-- ==== Sys2Proof/Word.lean ====
section
/-!
DEFINITION. The byte, and the plain names for numbers the block's structures use.
-/

namespace Sys2Proof

/-- One byte. -/
abbrev Byte := BitVec 8

/-- A device, core-local, Base engine or host byte address. -/
abbrev Addr := Nat

end Sys2Proof
end

