-- ==== Sys2Proof/Syntax.lean ====
section
/-!
DEFINITION. The commands: one constructor of `Instr` per row of spec/opcode_table.json, with the operands that come
from outside the block (a message's bytes, a measured value, the agent addressed).
-/

namespace Sys2Proof

/-- An NYP endpoint (R34): a PCIe function's mailbox, a network session slot (0 is session 1), or the SPI sideband. -/
inductive Endpoint where
  | mailbox (fn : Fin 32)
  | session (n : Fin 16)
  | spi
deriving DecidableEq, Repr

/-- The NYP header of Table 1.5 less its operation code, which the command names. `tenantByte` and `flags` are whole
bytes, so that reserved bits can be set. -/
structure NypHdr where
  version : Fin 16
  flags : Fin 256
  tenantByte : Fin 256
  session : Fin 256
  seq : Fin 65536
  index : Fin 65536
  sub : Fin 256
  count : Fin 256
  length : Fin 65536
  status : Fin 4294967296
deriving DecidableEq, Repr

/-- A cell found failing by memory BIST, before repair (R479, R481). -/
structure BistCell where
  block : Fin 65536
  address : Fin 4294967296
  bit : Fin 72
  row : Fin 65536
  columnGroup : Fin 65536
deriving DecidableEq, Repr

/-- The load of a compute-die rail when a phase is removed (R89): the measured current, and the part of it that
does not scale with frequency, in mA. -/
structure RailLoad where
  totalMa : Nat
  fixedMa : Nat
deriving DecidableEq, Repr

/-- VDDIO levels in mV sampled at POR_N release: AON, CAM, AUD, NET, GEN (R61). -/
structure BankMv where
  aon : Nat
  cam : Nat
  aud : Nat
  net : Nat
  gen : Nat
deriving DecidableEq, Repr

/-- A bound of an adaptive loop's envelope (Table 5.10), and the object that holds it. -/
inductive EnvBound where
  | freqMin (rink : Fin 4)
  | freqMax (rink : Fin 4)
  | vcoreMin (die : Fin 2)
  | vcoreMax (die : Fin 2)
  | threshMin
  | threshMax
  | expMin (input : Fin 16)
  | expMax (input : Fin 16)
  | gainMin (input : Fin 16)
  | gainMax (input : Fin 16)
  | refreshMin
  | refreshMax
deriving DecidableEq, Repr

/-- A CSI-2 packet header as received: whether its ECC was correctable with one error, or not at all (Table 15.1). -/
inductive EccState where
  | ok
  | corrected
  | failed
deriving DecidableEq, Repr

/-- A PTP message as received, with its compensated-to-SerDes arrival time in units of 2^-16 ns (R395, R396, R399). -/
structure PtpMsg where
  domain : Fin 256
  /-- sourcePortIdentity: clockIdentity (8 bytes) and port number. -/
  clockId : List Byte
  portNum : Fin 65536
  sequenceId : Fin 65536
  logInterval : Int
  /-- correctionField, in 2^-16 ns. -/
  correction : Int
  /-- The message's timestamp field, in units of 2^-16 ns. -/
  timestamp : Nat
  /-- TIME96 at which the message arrived at the SerDes. -/
  rxTime : Nat
  /-- Malformed under its standard. -/
  malformed : Bool
deriving DecidableEq, Repr

/-- The fields of an Announce (R395, R399). -/
structure AnnounceMsg where
  gmId : List Byte
  priority1 : Fin 256
  clockClass : Fin 256
  clockAccuracy : Fin 256
  variance : Fin 65536
  priority2 : Fin 256
  stepsRemoved : Fin 65536
  timeSource : Fin 256
deriving DecidableEq, Repr

/-- Why a host transfer ended (R418). -/
inductive HostEnd where
  | done
  | linkDown
  | unsupported
  | completerAbort
  | poisoned
  | timeout
deriving DecidableEq, Repr

/-- Where the scrub or a read finds an ECC or parity error (Table 19.3). -/
inductive EccPlace where
  | coreMem (core : Fin 16) (addr : Nat)
  | lodge (seg : Fin 32) (addr : Nat)
  | rinkLine (rink : Fin 4) (tenant : Fin 32) (addr : Nat) (dirty : Bool)
  | rinkControl (rink : Fin 4) (addr : Nat)
  | historyRing (addr : Nat)
  | baseMem (addr : Nat)
  | ioBuffer (u : Fin 54) (addr : Nat)
  | aonControl (addr : Nat)
  | patrolStore (addr : Nat)
  | traceBuffer (record : Fin 4096) (addr : Nat)
deriving DecidableEq, Repr

/-- A write to a function's BAR (R414). -/
structure BarWrite where
  offset : Nat
  bytes : List Byte
deriving DecidableEq, Repr

/-- The pass shares of Table 13.5. -/
inductive BudgetShare where
  | lcReserve
  | lcLimit
  | beLimit
deriving DecidableEq, Repr

/-- What the core spent on a tile: cycles with it in the array, bank-conflict cycles, and stall cycles of the causes
1-12 of Table 12.5. -/
structure TileUse where
  busy : Nat
  conflicts : Nat
  stalls : List Nat
deriving DecidableEq, Repr

/-- How a read over the LPDDR5X link ended (R305). -/
inductive LinkRead where
  | clean
  | corrected
  | retried
  | failed
deriving DecidableEq, Repr

/-- Temperatures of DRAM dies 0-3 in degrees Celsius. -/
structure DramTemps where
  d0 : Int
  d1 : Int
  d2 : Int
  d3 : Int
deriving DecidableEq, Repr

/-- A command of the block: one constructor per row of the opcode table. -/
inductive Instr where
  /-- READ (R29): NYP READ returns the values of COUNT consecutive subindices after the header, scope and access checks. -/
  | read (ep : Endpoint) (h : NypHdr) (payload : List Byte)
  /-- WRITE (R29): NYP WRITE sets COUNT subindices all or nothing; it also covers every write to an object that has no row of its own. -/
  | write (ep : Endpoint) (h : NypHdr) (payload : List Byte)
  /-- READ_BLOCK (R33): Returns one segment of a DOMAIN object; offset 0 takes a snapshot that later segments read from. -/
  | readBlock (ep : Endpoint) (h : NypHdr) (payload : List Byte)
  /-- WRITE_BLOCK (R32): Accepts one segment of a block write; the last segment applies the whole block at once. -/
  | writeBlock (ep : Endpoint) (h : NypHdr) (payload : List Byte)
  /-- SUBSCRIBE (R35): Registers the endpoint for changes of an EV object and returns its current value. -/
  | subscribe (ep : Endpoint) (h : NypHdr) (payload : List Byte)
  /-- UNSUBSCRIBE (R35): Ends the endpoint's subscription to the object. -/
  | unsubscribe (ep : Endpoint) (h : NypHdr) (payload : List Byte)
  /-- CLAIM (R49): Claims n consecutive shared resources for the requesting tenant, or none of them. -/
  | claim (ep : Endpoint) (h : NypHdr) (payload : List Byte)
  /-- RELEASE (R50): Releases a claim; with FORCE, tenant 0 revokes the claim and disables the feature that uses it. -/
  | release (ep : Endpoint) (h : NypHdr) (payload : List Byte)
  /-- HEARTBEAT (R46): A HEARTBEAT request is answered with the heartbeat record. -/
  | heartbeat (ep : Endpoint) (h : NypHdr) (payload : List Byte)
  /-- SESSION_OPEN (R45): Moves a PROVISIONED or CLOSED session slot to OPEN. -/
  | sessionOpen (ep : Endpoint) (h : NypHdr)
  /-- SESSION_CLOSE (R45): Moves an OPEN session to CLOSED and ends its subscriptions. -/
  | sessionClose (ep : Endpoint) (h : NypHdr)
  /-- SESSION_STATUS (R45): Returns the state of the session slot. -/
  | sessionStatus (ep : Endpoint) (h : NypHdr)
  /-- NYP_DATAGRAM_RX (R44): A UDP NYP datagram is authenticated, checked against replay and dispatched, or discarded and counted. -/
  | nypDatagramRx (port : Fin 2) (peer : List Byte) (bytes : List Byte)
  /-- BLOCK_TRANSFER_TIMEOUT (R32): No segment arrives for 100 ms, and the block write in progress is abandoned. -/
  | blockTransferTimeout (index : Fin 65536) (sub : Fin 256) (tenant : Fin 32)
  /-- SNAPSHOT_TIMEOUT (R33): A READ_BLOCK snapshot is released after 100 ms without a request from its endpoint. -/
  | snapshotTimeout (ep : Endpoint)
  /-- SESSION_IDLE_TIMEOUT (R45): An OPEN session without an authenticated datagram for SESSION_IDLE_TIMEOUT becomes CLOSED. -/
  | sessionIdleTimeout (n : Fin 16)
  /-- HEARTBEAT_PERIOD_EXPIRY (R46): Each HEARTBEAT_PERIOD the device sends a heartbeat on every OPEN session. -/
  | heartbeatPeriodExpiry
  /-- SUBSCRIPTION_WINDOW_END (R35): At the end of a subscription window, one EVENT carries the combined changes and a new window opens. -/
  | subscriptionWindowEnd (ep : Endpoint) (index : Fin 65536) (sub : Fin 256) (tenant : Fin 32)
  /-- REQUEST_STATE_TIMEOUT (R23): A requested unit state is not reached in time, so the object shows the actual state with MISMATCH and raises an event. -/
  | requestStateTimeout (index : Fin 65536) (sub : Fin 256) (tenant : Fin 32)
  /-- WRITE_FRAME (R39): The SPI command 0x01 takes one NYP message with its CRC, or discards it when BUSY is set or the CRC fails. -/
  | writeFrame (bytes : List Byte)
  /-- READ_FRAME (R39): The SPI command 0x02 returns the oldest pending response or event with its CRC, or 0x00. -/
  | readFrame
  /-- READ_STATUS (R39): The SPI command 0x03 returns the status byte and clears the sticky CRC_ERROR. -/
  | readStatus
  /-- SPI_UNKNOWN_COMMAND (R39): Any other SPI command byte makes the target return zeros until SB_CS_N rises and change nothing. -/
  | spiUnknownCommand (cmd : Fin 256)
  /-- SB_CS_N_FALLING (R116): SPI traffic is request source 3 and restarts AON_FAST_CLK in DORMANT. -/
  | sbCsNFalling
  /-- CONFIG_DECLARE (R54): Tenant 0 declares the configuration complete; the state becomes CONFIGURED if the value equals CONFIG_GENERATION. -/
  | configDeclare (ep : Endpoint) (value : Fin 4294967296)
  /-- SPI_AUTHORITY_WRITE (R41): Tenant 0 over PCIe sets the authority of the SPI sideband. -/
  | spiAuthorityWrite (ep : Endpoint) (value : Fin 256)
  /-- SESSION_KEY (R42): A key write over tenant 0's mailbox provisions a session slot and zeroes its counters. -/
  | sessionKey (ep : Endpoint) (n : Fin 16) (key : List Byte)
  /-- SESSION_DISCARD (R42): Destroys the session key and empties the slot. -/
  | sessionDiscard (ep : Endpoint) (n : Fin 16) (value : Fin 256)
  /-- POR_N_ASSERT (R63): POR_N low for 10 µs or more resets the whole device. -/
  | porNAssert (lowNs : Nat)
  /-- POR_N_RELEASE (R107): The release of POR_N starts the self-reporting bring-up sequence. -/
  | porNRelease (refInRange testEn aonBistHeld pttLow camPrivLow : Bool) (banks : BankMv)
  /-- UNIT_READY (R108): A unit finishes its bring-up or restart and self-test and sets READY or HELD. -/
  | unitReady (u : Fin 54) (selfTestOk : Bool) (cells : List BistCell)
  /-- READY_TIMEOUT (R108): A unit that has set neither READY nor HELD by its maximum time sets HELD and writes a record. -/
  | readyTimeout (u : Fin 54)
  /-- UNIT_RESET (R106): Tenant 0 resets one unit, which repeats its own bring-up and self-test. -/
  | unitReset (ep : Endpoint) (code : Fin 256)
  /-- WATCHDOG_EXPIRY (R105): The always-on control watchdog expires: the device resets, or enters the safe state on a repeat within 10 s. -/
  | watchdogExpiry
  /-- AON_UNDERVOLTAGE (R84): VDD_AON below 0.72 V for 2 µs causes an internal reset identical to POR_N low. -/
  | aonUndervoltage
  /-- RAIL_EXCURSION (R84): A board rail out of range beyond its filter time triggers the action of Table 3.3 and a record. -/
  | railExcursion (rail : Fin 9) (high : Bool) (mv : Fin 65536)
  /-- PHASE_FAIL_OPEN (R87): A phase that switches without sensed current for 20 µs is removed from rotation. -/
  | phaseFailOpen (reg : Fin 3) (phase : Fin 8) (load : RailLoad)
  /-- PHASE_SENSE_DISAGREEMENT (R87): A phase whose sensed and modelled currents disagree for 50 µs is removed from rotation. -/
  | phaseSenseDisagreement (reg : Fin 3) (phase : Fin 8) (load : RailLoad)
  /-- PHASE_OVERCURRENT (R87): A phase above the current threshold for 1 µs is removed from rotation. -/
  | phaseOvercurrent (reg : Fin 3) (phase : Fin 8) (load : RailLoad)
  /-- BURST_END (R102): At the end of a retention burst, fail open and sense disagreement are judged for the burst-mode phase. -/
  | burstEnd (reg : Fin 3) (failOpen disagreement : Bool) (burstUs : Nat) (load : RailLoad)
  /-- HOUSEKEEPING_TICK (R102): Every 32 slow periods AON_FAST_CLK runs for the checks, including sense disagreement over short bursts. -/
  | housekeepingTick (disagreeA disagreeB disagreeIo : Bool) (load : RailLoad)
  /-- POWER_LIMIT_WINDOW (R93): Each 1 s window the die frequency ceiling is lowered or raised in 25 MHz steps against DIE_POWER_LIMIT_MW. -/
  | powerLimitWindow (die : Fin 2) (powerMw : Fin 4294967296)
  /-- REF38_LOSS (R103): No reference edge for 1 µs puts the device in its safe state. -/
  | ref38Loss
  /-- PLL_UNLOCK (R103): A PLL reports loss of lock, and the action of Table 4.4 for that PLL follows. -/
  | pllUnlock (n : Fin 14)
  /-- XTAL32K_QUALIFIED (R97): 64 good periods qualify the 32.768 kHz crystal, and XTAL32K_STATE becomes OK. -/
  | xtal32kQualified
  /-- XTAL32K_FAILURE (R97): The crystal stops or drifts, and the substitute slow clock applies until POR_N. -/
  | xtal32kFailure (ppm : Fin 4294967296)
  /-- PERST_N_ASSERT (R67): PERST_N low resets the PCIe unit alone. -/
  | perstNAssert
  /-- PERST_N_RELEASE (R107): The release of PERST_N lets the PCIe unit enter Detect and bring itself up. -/
  | perstNRelease
  /-- HOST_WAKE (R68): WAKE_N held low by the host for 10 µs is a host wake, request source 2. -/
  | hostWake
  /-- PTT_PRESS (R70): PTT_N low for 5 ms is a press: request source 1, and it latches a ring wake. -/
  | pttPress
  /-- PTT_RELEASE (R70): PTT_N high for 20 ms marks the push-to-talk released. -/
  | pttRelease
  /-- CAM_PRIVACY_ON (R71): CAM_PRIV_N low gates camera streams within 1 µs, with no debounce. -/
  | camPrivacyOn
  /-- CAM_PRIVACY_OFF (R71): CAM_PRIV_N continuously high for 20 ms turns privacy off. -/
  | camPrivacyOff
  /-- JTAG_TRST (R104): JTAG_TRST_N low resets the TAP only. -/
  | jtagTrst
  /-- TARGET_STATE_WRITE (R117): A host write to 2200.02 replaces the pending target, as source 13. -/
  | targetStateWrite (ep : Endpoint) (value : Fin 256)
  /-- WAKE_TARGET_WRITE (R116): Tenant 0 sets the target state of a request source 0–7. -/
  | wakeTargetWrite (ep : Endpoint) (source : Fin 8) (value : Fin 256)
  /-- IDLE_TIMER_EXPIRY (R124): The idle timer of the stable state expires and lowers the pending target by one state. -/
  | idleTimerExpiry
  /-- ENTRY_START (R119): A downward transition begins with the refusal checks of E0 and, where needed, a link quiesce request. -/
  | entryStart
  /-- LINK_QUIESCED (R429): The link reaches L2/L3 Ready, and the entry continues at E1. -/
  | linkQuiesced
  /-- LINK_QUIESCE_TIMEOUT (R120): The link is not quiesced within LINK_QUIESCE_MS, so the entry is refused with LINK_NOT_QUIESCED. -/
  | linkQuiesceTimeout
  /-- ENTRY_DRAIN_COMPLETE (R119): In-flight tiles and transfers end, and E3–E6 save state, gate clocks, assert retention and remove power. -/
  | entryDrainComplete
  /-- DRAIN_TIMEOUT (R120): Step E2 exceeds DRAIN_LIMIT_US, so the entry is refused with the draining unit charged. -/
  | drainTimeout (u : Fin 54)
  /-- EXIT_START (R122): An upward transition latches its target, restarts the clocks and starts the PLLs at U1. -/
  | exitStart
  /-- EXIT_STEP_COMPLETE (R122): A timed exit step (rails, power, retention, retraining, KAT, DRAM) completes, and the next step begins. -/
  | exitStepComplete
  /-- EXIT_COMPLETE (R112): The last unit sets READY or HELD, and POWER_STATE changes to the destination. -/
  | exitComplete
  /-- TRANSITION_LATENCY_EXPIRED (R123): The maximum transition latency passes without the target being reached, and MISMATCH is shown. -/
  | transitionLatencyExpired
  /-- COMPARATOR_TRIGGER (R341): A microphone energy comparator crosses its threshold: source 0, and the Base engine starts. -/
  | comparatorTrigger (channel : Fin 4)
  /-- BASE_LIFT_RUN (R133): At a 4 ms block boundary the Base engine runs the armed program and reads the decision word. -/
  | baseLiftRun
  /-- PREWAKE_WINDOW_EXPIRY (R126): PREWAKE_WINDOW_MS passes without a wake, and the pre-wake is retracted. -/
  | prewakeWindowExpiry
  /-- BASE_HOLD_EXPIRY (R342): BASE_HOLD_MS passes after the last trigger with no pre-wake open, and BASE_CLK is gated. -/
  | baseHoldExpiry
  /-- MID_LIFT_RUN (R134): The Mid core runs the Mid lift program and reads its decision word: CONFIRM, REJECT or none. -/
  | midLiftRun
  /-- MID_DECISION_TIMEOUT (R129): MID_DECISION_MS passes without a decision, and the run counts as source 11. -/
  | midDecisionTimeout
  /-- BASE_PROGRAM (R133): BASE_TENANT arms the Base lift by naming a checked program header, which is measured. -/
  | baseProgram (ep : Endpoint) (tenant : Fin 32) (address : Fin 4294967296)
  /-- BASE_DISARM (R133): Writing 0xFFFF_FFFF disarms the Base lift at the end of the run in progress. -/
  | baseDisarm (ep : Endpoint) (tenant : Fin 32)
  /-- BASE_LOAD_WINDOW (R132): Data written to the load window go to Base engine memory at BASE_LOAD_OFFSET, which advances. -/
  | baseLoadWindow (ep : Endpoint) (tenant : Fin 32) (data : List Byte)
  /-- BASE_TENANT_WRITE (R131): Changes the owner of the Base engine, and the Groomer clears its memory. -/
  | baseTenantWrite (ep : Endpoint) (value : Fin 256)
  /-- MID_PROGRAM (R134): MID_TENANT names the Mid lift program header in the program-placed region, checked and measured. -/
  | midProgram (ep : Endpoint) (tenant : Fin 32) (address : Fin 4294967296)
  /-- ENVELOPE_BOUND_WRITE (R136): A bound write narrows or widens an adaptive loop's envelope without setting its state. -/
  | envelopeBoundWrite (ep : Endpoint) (bound : EnvBound) (value : Fin 65536)
  /-- VF_LOOP_STEP (R135): The voltage and frequency loop adapts Rink frequencies and die voltages within the envelope. -/
  | vfLoopStep (demand0 demand1 demand2 demand3 : Fin 2048)
  /-- THERMAL_THROTTLE_STEP (R138): At or above THERMAL_THROTTLE_C, the die frequencies drop 25 MHz every 100 µs. -/
  | thermalThrottleStep (die : Fin 2) (tj : Int)
  /-- THERMAL_RECOVERY_STEP (R138): More than 2 °C below the threshold, the frequencies rise 25 MHz every 10 ms. -/
  | thermalRecoveryStep (die : Fin 2) (tj : Int)
  /-- THERMAL_CRITICAL (R138): A junction at THERMAL_CRITICAL_C stops the die in the Snowplough, or the device for the I/O die. -/
  | thermalCritical (die : Fin 3) (tj : Int)
  /-- THERMAL_COOLED (R138): A die stopped for temperature restarts once it is 10 °C below THERMAL_THROTTLE_C. -/
  | thermalCooled (die : Fin 2) (tj : Int)
  /-- CORE_SERVICE (R160): Tenant 0 withdraws an unowned core from service or returns it. -/
  | coreService (ep : Endpoint) (core : Fin 16) (value : Fin 256)
  /-- CORE_GRANT (R316): Tenant 0 grants cores of a Rink to a tenant, forming or dissolving its context. -/
  | coreGrant (ep : Endpoint) (tenant : Fin 32) (rink : Fin 4) (value : Fin 256)
  /-- LC_PERMITTED_WRITE (R316): Tenant 0 sets whether a tenant may create LC queues, subject to the one-LC-tenant-per-core rule. -/
  | lcPermittedWrite (ep : Endpoint) (tenant : Fin 32) (value : Fin 256)
  /-- WAY_GRANT (R317): Assigns Rink cache ways; a lost way is written back, cleared and passed on. -/
  | wayGrant (ep : Endpoint) (tenant : Fin 32) (rink : Fin 4) (value : Fin 65536)
  /-- CHANNEL_GRANT (R318): Assigns DRAM channels to a tenant and remaps its allocation. -/
  | channelGrant (ep : Endpoint) (tenant : Fin 32) (value : Fin 65536)
  /-- LODGE_SEG_OWNER (R296): Tenant 0 assigns a Lodge segment 2–31 to a tenant. -/
  | lodgeSegOwner (ep : Endpoint) (seg : Fin 32) (value : Fin 256)
  /-- BUDGET_SHARE_WRITE (R334): A write to LC_RESERVE, LC_LIMIT or BE_LIMIT takes effect at the next period boundary. -/
  | budgetShareWrite (ep : Endpoint) (tenant : Fin 32) (which : BudgetShare) (resource : Fin 13) (value : Fin 65536)
  /-- SCHEDULER_DECISION (R321): The Rink control core assigns each affected core to an activity after a scheduling event. -/
  | schedulerDecision (rink : Fin 4)
  /-- BE_QUANTUM_EXPIRY (R323): A BE activity that has held a core for BE_QUANTUM_US yields at the next tile boundary. -/
  | beQuantumExpiry (core : Fin 16)
  /-- SWITCH_COMPLETE (R325): Save, restore and clear end, and the incoming activity may make its first claim. -/
  | switchComplete (core : Fin 16) (switchNs : Nat) (waited : Bool)
  /-- BUDGET_PERIOD_BOUNDARY (R328): A new budget period recomputes the passes, carries overruns and releases throttles. -/
  | budgetPeriodBoundary
  /-- MATMUL (R199): Matrix product with optional initial accumulator, rescaled per output channel. -/
  | matmul (rink : Fin 4) (tenant : Fin 32) (lc : Bool)
  /-- MATMUL_BWD (R199): Input or weight gradient of a matrix product. -/
  | matmulBwd (rink : Fin 4) (tenant : Fin 32) (lc : Bool)
  /-- CONV (R224): Direct or exact-Winograd grouped convolution, rescaled per output channel. -/
  | conv (rink : Fin 4) (tenant : Fin 32) (lc : Bool)
  /-- DWCONV (R227): Depthwise convolution in the depthwise array mode. -/
  | dwconv (rink : Fin 4) (tenant : Fin 32) (lc : Bool)
  /-- TCONV (R228): Transposed convolution executed by phase. -/
  | tconv (rink : Fin 4) (tenant : Fin 32) (lc : Bool)
  /-- ATTEND (R264): Paged attention with online soft maximum over a ragged batch, after a page step. -/
  | attend (rink : Fin 4) (tenant : Fin 32) (lc : Bool)
  /-- ATTEND_BWD (R269): Attention gradients dQ, dK and dV, recomputed from the saved row statistics. -/
  | attendBwd (rink : Fin 4) (tenant : Fin 32) (lc : Bool)
  /-- SCAN (R280): Chunked input-dependent linear recurrence with exact state carry. -/
  | scan (rink : Fin 4) (tenant : Fin 32) (lc : Bool)
  /-- FILTER (R282): Chunked order-N IIR filter computed from chunk-response tables. -/
  | filter (rink : Fin 4) (tenant : Fin 32) (lc : Bool)
  /-- CROP_RESIZE (R241): Samples crops of boxes from an image by nearest or bilinear interpolation. -/
  | cropResize (rink : Fin 4) (tenant : Fin 32) (lc : Bool)
  /-- WARP (R244): Resamples an image by a flow field clamped to MAXDISP. -/
  | warp (rink : Fin 4) (tenant : Fin 32) (lc : Bool)
  /-- ELEMENTWISE (R200): Fabric-defined element-wise operation over A and broadcast B. -/
  | elementwise (rink : Fin 4) (tenant : Fin 32) (lc : Bool)
  /-- REDUCE (R201): Sum, max, min or sum of squares along one axis. -/
  | reduce (rink : Fin 4) (tenant : Fin 32) (lc : Bool)
  /-- GATHER (R202): Writes the table rows named by the indices. -/
  | gather (rink : Fin 4) (tenant : Fin 32) (lc : Bool)
  /-- SCATTER (R202): Replaces or adds rows at the indexed destinations. -/
  | scatter (rink : Fin 4) (tenant : Fin 32) (lc : Bool)
  /-- COPY (R203): Copies codes unchanged, possibly with depth-to-space or space-to-depth, or into program-placed regions. -/
  | copy (rink : Fin 4) (tenant : Fin 32) (lc : Bool)
  /-- FUSE_BEGIN (R213): Opens a fused group of layers that keep their intermediates in core-local memory. -/
  | fuseBegin (rink : Fin 4) (tenant : Fin 32) (lc : Bool)
  /-- FUSE_END (R213): Closes a fused group. -/
  | fuseEnd (rink : Fin 4) (tenant : Fin 32) (lc : Bool)
  /-- BARRIER (R218): Each Rink of the set arrives and commits its writes, then waits for the others. -/
  | barrier (rink : Fin 4) (tenant : Fin 32) (lc : Bool)
  /-- BARRIER_RELEASE (R218): When every Rink has arrived and committed, all of them proceed. -/
  | barrierRelease (tenant : Fin 32) (lc : Bool)
  /-- FENCE (R218): The Rink commits all earlier writes before later instructions start. -/
  | fence (rink : Fin 4) (tenant : Fin 32) (lc : Bool)
  /-- CHECKPOINT (R219): Acts as a barrier, writes a progress completion and optionally pauses. -/
  | checkpoint (rink : Fin 4) (tenant : Fin 32) (lc : Bool)
  /-- TICKET_CLAIM (R210): A core claims the next tile index or chain of its context's share, or receives DONE. -/
  | ticketClaim (core : Fin 16)
  /-- TILE_COMPLETE (R209): A tile finishes its passes, checksum comparisons, corrections and rescale, and writes its outputs. -/
  | tileComplete (core : Fin 16) (mismatches : Fin 3) (column : Fin 128) (use : TileUse)
  /-- STREAM_FETCH (R306): The stream engine fetches the next stream ERT into the window once it has room. -/
  | streamFetch (rink : Fin 4) (tenant : Fin 32) (lc : Bool)
  /-- RINK_FILL_COMPLETE (R304): A fill arrives in the Rink cache, and an ERT is checked for its tag and header before use. -/
  | rinkFillComplete (rink : Fin 4) (tenant : Fin 32) (lc : Bool) (address : Nat) (link : LinkRead)
  /-- REFRESH_TICK (R312): Every 1 ms each channel's refresh code is set from temperature within the envelope. -/
  | refreshTick (temps : DramTemps)
  /-- RUN (R418): Job that runs a program image as an activity of the queue's class. -/
  | run (fn : Fin 32) (q : Fin 8)
  /-- COPY_IN (R418): Job that copies host data to device memory, forming ERT tags when NT is nonzero. -/
  | copyIn (fn : Fin 32) (q : Fin 8)
  /-- COPY_OUT (R418): Job that copies device data to host memory in plaintext. -/
  | copyOut (fn : Fin 32) (q : Fin 8)
  /-- STREAM_POST (R423): Job that advances a DEV_RING tail in queue order, optionally marking the block invalid. -/
  | streamPost (fn : Fin 32) (q : Fin 8)
  /-- LOAD_FIRMWARE (R440): Job that copies, verifies, decrypts and installs a signed firmware image. -/
  | loadFirmware (fn : Fin 32) (q : Fin 8)
  /-- RESUME (R420): Job that continues a paused program. -/
  | resume (fn : Fin 32) (q : Fin 8)
  /-- ABANDON (R420): Job that ends a paused program at its pause. -/
  | abandon (fn : Fin 32) (q : Fin 8)
  /-- NOP (R418): Job that completes at once. -/
  | nop (fn : Fin 32) (q : Fin 8)
  /-- LOAD_BASE (R132): Job that copies host data into Base engine memory. -/
  | loadBase (fn : Fin 32) (q : Fin 8)
  /-- MB_DOORBELL (R415): Starts execution of the NYP request in the function's mailbox. -/
  | mbDoorbell (fn : Fin 32) (request : List Byte)
  /-- MB_RESP_ACK (R415): Clears RESPONSE_READY after the host reads the response. -/
  | mbRespAck (fn : Fin 32)
  /-- MB_EVENT_ACK (R415): Moves the next queued event into MB_EVENT, or clears EVENT_READY. -/
  | mbEventAck (fn : Fin 32)
  /-- SQ_TAIL (R417): A tail write submits entries, as source 12, or faults the queue. -/
  | sqTail (fn : Fin 32) (q : Fin 8) (entries : List Byte) (tail : Fin 4294967296)
  /-- CQ_HEAD (R419): A head write frees completion entries and re-arms the vector. -/
  | cqHead (fn : Fin 32) (q : Fin 8) (head : Fin 4294967296)
  /-- STREAM_DOORBELL (R423): Advances the tail of a stream context's source or sink ring. -/
  | streamDoorbell (fn : Fin 32) (value : Fin 4294967296)
  /-- BAR_WRITE_IGNORED (R414): A write to a RO field, an unlisted offset or a narrow access completes without effect. -/
  | barWriteIgnored (fn : Fin 32) (w : BarWrite)
  /-- Q_ENABLE (R416): Enables or disables a queue and applies its class. -/
  | qEnable (ep : Endpoint) (tenant : Fin 32) (q : Fin 8) (value : Fin 256)
  /-- STREAM_ENABLE (R422): Enables a stream context after checking its endpoints, claims and rings. -/
  | streamEnable (ep : Endpoint) (tenant : Fin 32) (ctx : Fin 96) (value : Fin 256)
  /-- STREAM_COMMIT (R426): Checks the shadowed route fields of the tenant's contexts and makes them pending. -/
  | streamCommit (ep : Endpoint) (tenant : Fin 32) (value : Fin 256)
  /-- STREAM_BLOCK_BOUNDARY (R425): At a source block boundary, blocks move to sinks, descriptors finish and pending routes apply. -/
  | streamBlockBoundary (ctx : Fin 96) (block srcDesc snkDesc : List Byte) (sampleTime : Nat)
  /-- NET_FRAME_RX (R423): A received frame matching a context's NET_FILTER is delivered to that context. -/
  | netFrameRx (port : Fin 2) (frame : List Byte)
  /-- PCIE_CONFIG_REQUEST (R412): A configuration request is answered once unit 0x20 is ready, and with Retry Status before. -/
  | pcieConfigRequest (fn : Fin 32) (vfEnable : Option Bool)
  /-- FLR (R430): A function-level reset disables and clears the function's queues, jobs, mailbox and streams. -/
  | flr (fn : Fin 32)
  /-- LINK_DOWN (R430): The link is lost without PERST_N; host transfers fail and HOST_RING contexts fault. -/
  | linkDown
  /-- LINK_L0 (R428): The link reaches L0, releasing WAKE_N and clearing QUIESCE_STATE. -/
  | linkL0 (speed : Fin 6) (width : Fin 9)
  /-- L1_1_ENTRY (R413): The link rests in L1.1, and the device releases CLKREQ_N. -/
  | l11Entry
  /-- L1_EXIT (R413): An exit from L1 is initiated or seen, and CLKREQ_N is asserted again. -/
  | l1Exit
  /-- PME_TURN_OFF (R429): The device answers PME_TO_Ack and enters L2/L3 Ready. -/
  | pmeTurnOff
  /-- WAKE_HOLD_EXPIRY (R428): WAKE_N is released after WAKE_HOLD_MS. -/
  | wakeHoldExpiry
  /-- RING_BLOCK_BOUNDARY (R346): Every 4 ms the ring codes and stores a block, and handover delivery follows it. -/
  | ringBlockBoundary (taps : List (List Int))
  /-- CH_GAIN_WRITE (R340): A new gain or delay takes effect at the next 4 ms block boundary. -/
  | chGainWrite (ep : Endpoint) (channel : Fin 8) (isDelay : Bool) (value : Fin 4294967296)
  /-- NOISE_FLOOR_BLOCK (R343): A 12 ms mean-square block updates the noise floor and settling state. -/
  | noiseFloorBlock (channel : Fin 4)
  /-- THRESHOLD_LOOP_STEP (R344): Every 100 ms the comparator threshold is set from floor and margin, clamped to the envelope. -/
  | thresholdLoopStep
  /-- MICBIAS_FAULT (R336): A bias load above 3.0 mA for 1 ms limits the current and sets the fault. -/
  | micbiasFault (b : Fin 2)
  /-- MICBIAS_FAULT_CLEAR (R336): A load below 2.0 mA for 10 ms clears the fault bit. -/
  | micbiasFaultClear (b : Fin 2)
  /-- LATCH_EXPIRY (R350): No handover starts within HANDOVER_OPEN_MS, and the latch clears. -/
  | latchExpiry
  /-- RING_CONFIG_WRITE (R348): A write to RING_CHANNELS or RING_BITS empties and restarts the ring. -/
  | ringConfigWrite (ep : Endpoint) (isBits : Bool) (value : Fin 256)
  /-- START (R351): The claim owner starts a handover, delivering HEADER and AUDIO records. -/
  | start (ep : Endpoint) (tenant : Fin 32)
  /-- CLOSE (R354): The owner ends the handover: END is written and the read port disabled. -/
  | close (ep : Endpoint) (tenant : Fin 32)
  /-- HANDOVER_LIVE (R352): Catch-up completes, the LIVE record is sent and delivery follows recording. -/
  | handoverLive
  /-- TDM_CLOCK_LOSS (R358): No frame sync for four frames unlocks the TDM port and stops its blocks. -/
  | tdmClockLoss (port : Fin 2)
  /-- TDM_RELOCK (R358): Eight valid frames lock the TDM port again. -/
  | tdmRelock (port : Fin 2) (ppm : Int)
  /-- TDM_UNDERRUN (R359): An output slot's route delivers no block in time, so zeros are sent and counted. -/
  | tdmUnderrun (port : Fin 2) (slot : Fin 8) (frames : Nat)
  /-- CAMERA_ENABLE (R365): The owner enables a camera input, and its frame counter resets. -/
  | cameraEnable (ep : Endpoint) (tenant : Fin 32) (input : Fin 16) (value : Fin 256)
  /-- FRAME_START (R366): A frame-start packet begins a frame, latches settings and applies pending commits. -/
  | frameStart (port : Fin 2) (vc : Fin 16) (sensorFrame : Fin 65536) (ecc : EccState)
  /-- FRAME_END (R366): A frame-end packet ends the frame, with padding to the full height. -/
  | frameEnd (port : Fin 2) (vc : Fin 16) (ecc : EccState)
  /-- LINE_PACKET (R367): An image long packet is checked and delivered as one line. -/
  | linePacket (port : Fin 2) (vc : Fin 16) (dataType : Fin 64) (codes : List Nat) (crcOk : Bool) (ecc : EccState)
  /-- FRAME_TIMEOUT (R366): TIMEOUT_US without a packet ends the frame with NO_FRAME_END. -/
  | frameTimeout (input : Fin 16)
  /-- MEMPASS_PROCESS (R370): The memory-pass ISP takes the next complete raw frame and processes it. -/
  | mempassProcess
  /-- ISP_FRAME_COMPLETE (R375): A frame's output and statistics record are written, and FRAME_DONE advances. -/
  | ispFrameComplete (input : Fin 16)
  /-- COMMIT (R373): Checks the shadow output set and makes it pending for the next frame start. -/
  | commit (ep : Endpoint) (tenant : Fin 32) (input : Fin 16) (value : Fin 256)
  /-- QUEUE_PUSH (R380): Pushes a settings entry onto an input's queue. -/
  | queuePush (ep : Endpoint) (tenant : Fin 32) (input : Fin 16) (entry : List Byte)
  /-- I3C_BUS_ERROR (R383): A NACK or bus error aborts the settings entry being sent. -/
  | i3cBusError (input : Fin 16)
  /-- ISP_PARAMS_WRITE (R371): New ISP parameters take effect at the next frame start of the input. -/
  | ispParamsWrite (ep : Endpoint) (input : Fin 16) (params : List Byte)
  /-- CAM_CLK_WRITE (R363): Changes the sensor clock output within 2 µs without short pulses. -/
  | camClkWrite (ep : Endpoint) (port : Fin 2) (value : Fin 256)
  /-- AE_ENABLE_WRITE (R384): Starting the exposure loop issues its first values in the next window. -/
  | aeEnableWrite (ep : Endpoint) (input : Fin 16) (value : Fin 256)
  /-- TIME_SET (R389): Steps TIME96 to the value written in FREE mode. -/
  | timeSet (ep : Endpoint) (value : List Byte)
  /-- TIME_ADJUST (R389): Slews the time by a signed offset at SLEW_MAX_PPB. -/
  | timeAdjust (ep : Endpoint) (value : Fin 18446744073709551616)
  /-- RATE_ADJ (R389): Sets the rate adjustment of the time base in FREE mode. -/
  | rateAdj (ep : Endpoint) (value : Fin 4294967296)
  /-- SYNC (R390): A received Sync yields an offset from master, applied by step or by the servo. -/
  | sync (port : Fin 2) (m : PtpMsg) (twoStep : Bool)
  /-- FOLLOW_UP (R395): A received Follow_Up completes a two-step Sync measurement. -/
  | followUp (port : Fin 2) (m : PtpMsg)
  /-- PDELAY_REQ (R395): A received Pdelay_Req is answered with Pdelay_Resp and Pdelay_Resp_Follow_Up. -/
  | pdelayReq (m : PtpMsg)
  /-- PDELAY_RESP (R395): A received Pdelay_Resp contributes to the neighbour delay. -/
  | pdelayResp (m : PtpMsg)
  /-- PDELAY_RESP_FOLLOW_UP (R395): A received Pdelay_Resp_Follow_Up completes the peer delay measurement. -/
  | pdelayRespFollowUp (m : PtpMsg)
  /-- ANNOUNCE (R395): A received Announce feeds the best master clock algorithm, or is ignored on NET1 from other masters. -/
  | announce (port : Fin 2) (m : PtpMsg) (a : AnnounceMsg)
  /-- SIGNALING (R395): A received Signaling message requesting intervals is honoured within range. -/
  | signaling (m : PtpMsg) (pdelayLog syncLog announceLog : Int)
  /-- DELAY_REQ (R399): As NET1 MASTER, a received Delay_Req is answered with Delay_Resp. -/
  | delayReq (m : PtpMsg)
  /-- DELAY_RESP (R399): As NET1 SLAVE, a received Delay_Resp completes the path delay. -/
  | delayResp (m : PtpMsg)
  /-- PTP_MANAGEMENT_DISCARD (R395): Management messages, and Pdelay or Signaling on NET1, are discarded. -/
  | ptpManagementDiscard (port : Fin 2) (messageType : Fin 16)
  /-- SYNC_INTERVAL_EXPIRY (R395): At each Sync interval as master, a two-step Sync and Follow_Up are sent. -/
  | syncIntervalExpiry (port : Fin 2)
  /-- PDELAY_INTERVAL_EXPIRY (R395): At each Pdelay interval a Pdelay_Req is sent; three missing responses clear asCapable. -/
  | pdelayIntervalExpiry (responseMissing : Bool)
  /-- ANNOUNCE_INTERVAL_EXPIRY (R399): At each Announce interval as master, an Announce is sent. -/
  | announceIntervalExpiry (port : Fin 2)
  /-- DELAY_REQ_INTERVAL_EXPIRY (R399): As NET1 SLAVE, a Delay_Req is sent at the Delay_Req interval. -/
  | delayReqIntervalExpiry
  /-- SYNC_RECEIPT_TIMEOUT (R391): No Sync, or an Announce timeout, moves the time quality to HOLDOVER. -/
  | syncReceiptTimeout (port : Fin 2)
  /-- ERROR_BOUND_TICK (R391): Every 1 ms in HOLDOVER the error bound is updated. -/
  | errorBoundTick
  /-- ARP_REQUEST (R394): The device answers ARP for its IPv4 address. -/
  | arpRequest (port : Fin 2) (senderMac : List Byte) (senderIp targetIp : Fin 4294967296)
  /-- NEIGHBOR_SOLICITATION (R394): The device answers IPv6 neighbour solicitations for its address. -/
  | neighborSolicitation (port : Fin 2) (senderMac senderIp target : List Byte)
  /-- NET0_LINK_CHANGE (R394): The NET0 link to the external PHY comes up or goes down. -/
  | net0LinkChange (rate : Fin 5)
  /-- MDIO_ACCESS (R394): A write with START performs one clause 22 read or write of the external PHY. -/
  | mdioAccess (ep : Endpoint) (value : Fin 4294967296)
  /-- PLCA_BEACON_LOSS (R398): Beacons are lost for two periods; the loss is counted and PTP lock broken. -/
  | plcaBeaconLoss
  /-- WAKE_FRAME (R400): A matching NET1 wake frame in retention is request source 4. -/
  | wakeFrame (dest : List Byte) (etherType : Fin 65536) (payload : List Byte)
  /-- TXTS_QUEUE (R401): A destructive read returns and removes the oldest transmit timestamp. -/
  | txtsQueue (ep : Endpoint) (port : Fin 2)
  /-- TIO_MODE (R403): The owner sets a TIME_IO to off, capture, pulse or wake input. -/
  | tioMode (ep : Endpoint) (tenant : Fin 32) (n : Fin 4) (value : Fin 256)
  /-- TIME_IO_EDGE (R404): A selected edge on a TIME_IO is captured, and in WAKE_INPUT mode is source 5. -/
  | timeIoEdge (n : Fin 4) (falling : Bool)
  /-- CAPTURE_QUEUE (R410): A destructive read returns and removes the oldest capture entry. -/
  | captureQueue (ep : Endpoint) (tenant : Fin 32) (n : Fin 4)
  /-- PULSE_EDGE (R405): A pulse-train edge falls due on TIME_CLK and drives the ball. -/
  | pulseEdge (n : Fin 4)
  /-- TRIG_ACTIONS (R407): A nonzero write arms a trigger at TRIG_TARGET; 0 disarms it. -/
  | trigActions (ep : Endpoint) (tenant : Fin 32) (n : Fin 8) (value : Fin 256)
  /-- TRIG_TARGET_WRITE (R407): Replaces the target or period of an armed trigger atomically. -/
  | trigTargetWrite (ep : Endpoint) (tenant : Fin 32) (n : Fin 8) (isPeriod : Bool) (value : Fin 18446744073709551616)
  /-- TRIGGER_FIRE (R408): A due trigger performs its actions and rearms or disarms. -/
  | triggerFire
  /-- TRIGGER_SLEEP_WAKE (R409): While asleep, the earliest WAKE trigger raises request source 6 at its target. -/
  | triggerSleepWake
  /-- ADMIT (R445): Tenant 0 admits a tenant slot: keys are drawn and installed, and the slot becomes ADMITTED. -/
  | admitTenant (ep : Endpoint) (t : Fin 32)
  /-- REMOVE (R447): Tenant 0 removes a tenant: work is abandoned, resources released and cleared, and keys zeroed. -/
  | remove (ep : Endpoint) (t : Fin 32)
  /-- ENTROPY_READY (R437): The TRNG passes 4,096 bits and becomes READY; the first time, the nonce is drawn and slot 0 admitted. -/
  | entropyReady
  /-- ENTROPY_HEALTH_FAIL (R438): A health-test failure sets RETESTING and stops the DRBG. -/
  | entropyHealthFail
  /-- KEY_REQUEST_TIMEOUT (R438): A key request waits 100 ms without READY and fails with ENTROPY_NOT_READY. -/
  | keyRequestTimeout
  /-- CERT_CHAIN (R436): Tenant 0 writes the vendor certificate chain once per power-up, verified to DeviceID. -/
  | certChain (ep : Endpoint) (chain : List Byte)
  /-- DEBUG_TOKEN (R462): A valid signed token unlocks the TAP to DEBUG_LEVEL 1. -/
  | debugToken (ep : Endpoint) (token : List Byte)
  /-- MEASURE_REQUEST (R454): Patrol hashes a tenant range and extends WEIGHT_DIGEST. -/
  | measureRequest (ep : Endpoint) (tenant : Fin 32) (request : List Byte)
  /-- CONSENT_WRITE (R464): The owning tenant sets its debug or profiling consent. -/
  | consentWrite (ep : Endpoint) (tenant : Fin 32) (isProfile : Bool) (value : Fin 256)
  /-- GET_VERSION (R455): SPDM request for the supported version. -/
  | getVersion (msg : List Byte)
  /-- GET_CAPABILITIES (R455): SPDM request for capabilities. -/
  | getCapabilities (msg : List Byte)
  /-- NEGOTIATE_ALGORITHMS (R455): SPDM algorithm negotiation. -/
  | negotiateAlgorithms (msg : List Byte)
  /-- GET_DIGESTS (R455): SPDM request for certificate chain digests. -/
  | getDigests (msg : List Byte)
  /-- GET_CERTIFICATE (R455): SPDM request for the slot 0 certificate chain. -/
  | getCertificate (msg : List Byte)
  /-- CHALLENGE (R455): SPDM challenge signed with the Alias key. -/
  | challenge (msg : List Byte)
  /-- GET_MEASUREMENTS (R456): Returns the measurement blocks from one snapshot, signed on request. -/
  | getMeasurements (session : Fin 4294967296) (msg : List Byte)
  /-- KEY_EXCHANGE (R455): Opens an SPDM secured session with DHE, reseeding the DRBG. -/
  | keyExchange (msg : List Byte)
  /-- FINISH (R455): Completes the SPDM session handshake. -/
  | finish (session : Fin 4294967296) (msg : List Byte)
  /-- END_SESSION (R455): Ends an SPDM secured session. -/
  | endSession (session : Fin 4294967296) (msg : List Byte)
  /-- SPDM_HEARTBEAT (R455): SPDM HEARTBEAT request keeping a session alive. -/
  | spdmHeartbeat (session : Fin 4294967296) (msg : List Byte)
  /-- KEY_UPDATE (R455): Updates the keys of an SPDM session. -/
  | keyUpdate (session : Fin 4294967296) (msg : List Byte)
  /-- QUERY (R457): IDE_KM query of the IDE streams. -/
  | query (session : Fin 4294967296) (port : Fin 256)
  /-- KEY_PROG (R457): IDE_KM programs a key set into CRYPTO1. -/
  | keyProg (session : Fin 4294967296) (stream : Fin 8) (keySet : Fin 2) (subStream : Fin 8) (tx : Bool)
      (keyIv : List Byte)
  /-- K_SET_GO (R457): IDE_KM activates a key set of a stream. -/
  | kSetGo (session : Fin 4294967296) (stream : Fin 8) (keySet : Fin 2) (subStream : Fin 8) (tx : Bool)
  /-- K_SET_STOP (R457): IDE_KM deactivates a key set of a stream. -/
  | kSetStop (session : Fin 4294967296) (stream : Fin 8) (keySet : Fin 2) (subStream : Fin 8) (tx : Bool)
  /-- GET_TDISP_VERSION (R458): TDISP version request. -/
  | getTdispVersion (session : Fin 4294967296) (fn : Fin 32)
  /-- GET_TDISP_CAPABILITIES (R458): TDISP capabilities request. -/
  | getTdispCapabilities (session : Fin 4294967296) (fn : Fin 32)
  /-- LOCK_INTERFACE_REQUEST (R458): Locks a function's TDI when its slot is admitted and IDE is Secure. -/
  | lockInterfaceRequest (session : Fin 4294967296) (fn : Fin 32) (stream : Fin 8)
  /-- GET_DEVICE_INTERFACE_REPORT (R458): Returns the TDI report with the BAR range and tenant record. -/
  | getDeviceInterfaceReport (session : Fin 4294967296) (fn : Fin 32) (offset length : Fin 65536)
  /-- GET_DEVICE_INTERFACE_STATE (R458): Returns the TDI state. -/
  | getDeviceInterfaceState (session : Fin 4294967296) (fn : Fin 32)
  /-- START_INTERFACE_REQUEST (R458): Moves a locked TDI to RUN. -/
  | startInterfaceRequest (session : Fin 4294967296) (fn : Fin 32) (nonce : List Byte)
  /-- STOP_INTERFACE_REQUEST (R459): Stops a TDI back to CONFIG_UNLOCKED. -/
  | stopInterfaceRequest (session : Fin 4294967296) (fn : Fin 32)
  /-- IDE_INTEGRITY_FAIL (R457): A TLP fails its IDE check, is discarded, and the stream goes Insecure. -/
  | ideIntegrityFail (stream : Fin 8)
  /-- TDI_REJECTED_TLP (R460): A BAR access without the T bit to a RUN TDI completes with Unsupported Request. -/
  | tdiRejectedTlp (fn : Fin 32)
  /-- FTI_ROUND_BOUNDARY (R472): A KAT round ends; PICTURE_OK may rise and OUTPUT_INVALID may clear. -/
  | ftiRoundBoundary
  /-- KAT_RUN (R472): A unit's known-answer test runs at its offset in the round. -/
  | katRun (u : Fin 54) (failed retestFailed : Bool) (part : Fin 7) (late : Bool)
  /-- SCRUB_STEP (R478): The Groomer reads and corrects SRAM words in the background. -/
  | scrubStep (found : Option EccPlace) (correctable : Bool) (bit : Fin 72) (passComplete : Bool)
  /-- SOFT_REPAIR_ADD (R482): Tenant 0 adds soft-repair entries, applied as each unit becomes ready. -/
  | softRepairAdd (ep : Endpoint) (entries : List Byte)
  /-- RCC_WATCHDOG_EXPIRY (R483): An unserviced Rink control-core watchdog enters the Snowplough with cause 2. -/
  | rccWatchdogExpiry (rink : Fin 4)
  /-- D2D_LINK_FAULT (R483): An uncorrectable die-to-die link error enters the Snowplough with cause 3. -/
  | d2dLinkFault (die : Fin 2)
  /-- DIE_RESTART_REQUEST (R483): Tenant 0 requests a compute-die restart with cause 7. -/
  | dieRestartRequest (ep : Endpoint) (value : Fin 256)
  /-- DIE_RESTART_RESET (R484): The compute-die restart reset is asserted and later released for training and BIST. -/
  | dieRestartReset (die : Fin 2) (released : Bool)
  /-- SNOWPLOUGH_EXIT (R484): The restarted die's cores and Rinks report ready, and DIE_STATE becomes NORMAL. -/
  | snowploughExit (die : Fin 2)
  /-- PATROL_WATCHDOG_EXPIRY (R488): The Patrol watchdog expires, and the device enters its safe state with cause 7. -/
  | patrolWatchdogExpiry
  /-- VDD_AON_RISING (R104): VDD_AON rising from below 0.4 V is a cold power-up: the whole device resets, RESET_CAUSE is COLD and WDOG_RESETS restarts. -/
  | vddAonRising
  /-- PLCA_BEACON_SEEN (R398): A PLCA follower that is seeking beacons receives a coordinator beacon and moves PLCA_STATUS to following. -/
  | plcaBeaconSeen
  /-- RAIL_BACK_IN_RANGE (R84): A rail returns into its range: bit 0 of RAIL_STATUS sets with an event, and after 1 ms in range the rail is re-armed for action. -/
  | railBackInRange (rail : Fin 9) (forOneMs : Bool)
  /-- HOST_TRANSFER_COMPLETE (R418): A host DMA transfer of a job ends, by its last completion or by UR, CA, poisoning or completion timeout, and the job's DONE or ERROR completion follows. -/
  | hostTransferComplete (fn : Fin 32) (q : Fin 8) (how : HostEnd) (data : List Byte)
  /-- MEASURE_COMPLETE (R454): Patrol finishes hashing a measurement range: WEIGHT_DIGEST is extended and MEASURE_STATE leaves BUSY for DONE, or for FAILED on a tag fault. -/
  | measureComplete (tenant : Fin 32) (tagFault : Bool)
  /-- MDIO_OPERATION_END (R394): A clause 22 MDIO operation ends, bit 31 of MDIO_ACCESS clears, and any data read appear in bits 15:0. -/
  | mdioOperationEnd (data : Fin 65536)
deriving DecidableEq, Repr

end Sys2Proof
end

