-- ==== Sys2Proof/Machine/Bits.lean ====
section
/-!
DEFINITION. Bytes and numbers: little-endian fields (R11), two's complement and the named rounding (R13),
saturation and wrapping, and the CRC-32 of the sideband (R40).
-/

namespace Sys2Proof.Machine

/-- `n` little-endian bytes of `v` (R11). -/
def leBytes (n v : Nat) : List Byte :=
  match n with
  | 0 => []
  | n + 1 => BitVec.ofNat 8 (v % 256) :: leBytes n (v / 256)

/-- The number whose little-endian bytes are `bs` (R11). -/
def leNat (bs : List Byte) : Nat :=
  bs.foldr (fun b acc => b.toNat + 256 * acc) 0

/-- `len` bytes of `bs` from `off`, zero where `bs` ends. -/
def slice (bs : List Byte) (off len : Nat) : List Byte :=
  let xs := (bs.drop off).take len
  xs ++ List.replicate (len - xs.length) 0

/-- The little-endian field of `len` bytes at `off`. -/
def field (bs : List Byte) (off len : Nat) : Nat :=
  leNat (slice bs off len)

/-- Bits `hi`:`lo` of `v`. -/
def bits (v hi lo : Nat) : Nat := v / 2 ^ lo % 2 ^ (hi + 1 - lo)

/-- Bit `k` of `v`. -/
def bit (v k : Nat) : Bool := v.testBit k

/-- `v` with bit `k` set. -/
def setBit (v k : Nat) : Nat := if v.testBit k then v else v + 2 ^ k

/-- `v` with bit `k` clear. -/
def clrBit (v k : Nat) : Nat := if v.testBit k then v - 2 ^ k else v

/-- `v` with bit `k` equal to `b`. -/
def putBit (v k : Nat) (b : Bool) : Nat := if b then setBit v k else clrBit v k

/-- The number of set bits among the low `n` of `v`. -/
def popCount (n v : Nat) : Nat := ((List.range n).filter (fun k => v.testBit k)).length

/-- The signed value of the `w`-bit pattern `v` (R13). -/
def sx (w v : Nat) : Int :=
  let u := v % 2 ^ w
  if 2 * u < 2 ^ w then (u : Int) else (u : Int) - (2 ^ w : Nat)

/-- The `w`-bit two's complement pattern of `i` (R13). -/
def toU (w : Nat) (i : Int) : Nat := (i % ((2 ^ w : Nat) : Int)).toNat

/-- `i` wrapped to a signed `w`-bit value. -/
def wrapI (w : Nat) (i : Int) : Int := sx w (toU w i)

/-- `i` saturated to a signed `w`-bit value. -/
def satI (w : Nat) (i : Int) : Int :=
  let m : Int := (2 ^ (w - 1) : Nat)
  if i < -m then -m else if i > m - 1 then m - 1 else i

/-- `i` clamped to `lo`..`hi`. -/
def clampI (lo hi i : Int) : Int := if i < lo then lo else if hi < i then hi else i

/-- `a / d` rounded half to even (R13), for `d` above 0. -/
def divRhe (a : Int) (d : Nat) : Int :=
  let q := a / (d : Int)
  let m := (a % (d : Int)).toNat
  if 2 * m < d then q else if 2 * m > d then q + 1 else if q % 2 = 0 then q else q + 1

/-- `a / 2^s` rounded half to even (R13). -/
def shrRhe (a : Int) (s : Nat) : Int := divRhe a (2 ^ s)

/-- `a` rounded up to a multiple of `m`. -/
def ceilDiv (a m : Nat) : Nat := if m = 0 then 0 else (a + m - 1) / m

/-- One byte into the reflected CRC-32 of R40. -/
def crc32Byte (crc : Nat) (b : Byte) : Nat :=
  let step := fun (c : Nat) (_ : Nat) =>
    if c % 2 = 1 then Nat.xor (c / 2) 0xEDB88320 else c / 2
  (List.range 8).foldl step (Nat.xor crc b.toNat)

/-- The CRC-32 of R40: polynomial 0x04C1_1DB7, reflected, initial value and final XOR 0xFFFF_FFFF. -/
def crc32 (bs : List Byte) : Nat :=
  Nat.xor (bs.foldl crc32Byte 0xFFFFFFFF) 0xFFFFFFFF

/-- Entry `i` of a list, or `d` past its end. -/
def nth {α : Type} (xs : List α) (i : Nat) (d : α) : α := xs.getD i d

/-- `xs` with entry `i` passed through `f`. -/
def modNth {α : Type} (xs : List α) (i : Nat) (f : α → α) : List α :=
  xs.modify i f

end Sys2Proof.Machine
end

