-- ==== Sys2Proof/Machine/Crypto.lean ====
section
/-!
DEFINITION. The cryptographic standards the spec names, as functions on bytes: SHA-384 and HMAC (R434, R439, R453),
the KDFs of R434 and R440, AES-256 with CMAC (R450), GCM (R43, R440), XTS (R449) and key wrap (R440), and ECDSA and
ECDH on P-384 (R434, R440, R462). The spec gives the names; the algorithms are the published ones (PRESUMED).
-/

namespace Sys2Proof.Machine

/-- `n` big-endian bytes of `v`. -/
def beBytes (n v : Nat) : List Byte := (leBytes n v).reverse

/-- The number whose big-endian bytes are `bs`. -/
def beNat (bs : List Byte) : Nat := bs.foldl (fun acc b => acc * 256 + b.toNat) 0

/-- The exclusive-or of two byte strings. -/
def xorBytes (a b : List Byte) : List Byte := List.zipWith (fun x y => x ^^^ y) a b

/-- The first `n` bytes, zero-padded to `n`. -/
def padTo (n : Nat) (bs : List Byte) : List Byte := slice bs 0 n

/-- `xs` cut into pieces of `k` entries, the last perhaps shorter. -/
def chunksOf {α : Type} (k : Nat) (xs : List α) : List (List α) :=
  (List.range (ceilDiv xs.length k)).map fun i => (xs.drop (i * k)).take k

/-- The bytes of an ASCII string. -/
def strBytes (s : String) : List Byte := s.toList.map fun c => BitVec.ofNat 8 c.toNat

/-! ### SHA-384 -/

def shaK0 : List (BitVec 64) := [0x428a2f98d728ae22, 0x7137449123ef65cd, 0xb5c0fbcfec4d3b2f, 0xe9b5dba58189dbbc,
  0x3956c25bf348b538, 0x59f111f1b605d019, 0x923f82a4af194f9b, 0xab1c5ed5da6d8118, 0xd807aa98a3030242,
  0x12835b0145706fbe]
def shaK1 : List (BitVec 64) := [0x243185be4ee4b28c, 0x550c7dc3d5ffb4e2, 0x72be5d74f27b896f, 0x80deb1fe3b1696b1,
  0x9bdc06a725c71235, 0xc19bf174cf692694, 0xe49b69c19ef14ad2, 0xefbe4786384f25e3, 0x0fc19dc68b8cd5b5,
  0x240ca1cc77ac9c65]
def shaK2 : List (BitVec 64) := [0x2de92c6f592b0275, 0x4a7484aa6ea6e483, 0x5cb0a9dcbd41fbd4, 0x76f988da831153b5,
  0x983e5152ee66dfab, 0xa831c66d2db43210, 0xb00327c898fb213f, 0xbf597fc7beef0ee4, 0xc6e00bf33da88fc2,
  0xd5a79147930aa725]
def shaK3 : List (BitVec 64) := [0x06ca6351e003826f, 0x142929670a0e6e70, 0x27b70a8546d22ffc, 0x2e1b21385c26c926,
  0x4d2c6dfc5ac42aed, 0x53380d139d95b3df, 0x650a73548baf63de, 0x766a0abb3c77b2a8, 0x81c2c92e47edaee6,
  0x92722c851482353b]
def shaK4 : List (BitVec 64) := [0xa2bfe8a14cf10364, 0xa81a664bbc423001, 0xc24b8b70d0f89791, 0xc76c51a30654be30,
  0xd192e819d6ef5218, 0xd69906245565a910, 0xf40e35855771202a, 0x106aa07032bbd1b8, 0x19a4c116b8d2d0c8,
  0x1e376c085141ab53]
def shaK5 : List (BitVec 64) := [0x2748774cdf8eeb99, 0x34b0bcb5e19b48a8, 0x391c0cb3c5c95a63, 0x4ed8aa4ae3418acb,
  0x5b9cca4f7763e373, 0x682e6ff3d6b2b8a3, 0x748f82ee5defb2fc, 0x78a5636f43172f60, 0x84c87814a1f0ab72,
  0x8cc702081a6439ec]
def shaK6 : List (BitVec 64) := [0x90befffa23631e28, 0xa4506cebde82bde9, 0xbef9a3f7b2c67915, 0xc67178f2e372532b,
  0xca273eceea26619c, 0xd186b8c721c0c207, 0xeada7dd6cde0eb1e, 0xf57d4f7fee6ed178, 0x06f067aa72176fba,
  0x0a637dc5a2c898a6]
def shaK7 : List (BitVec 64) := [0x113f9804bef90dae, 0x1b710b35131c471b, 0x28db77f523047d84, 0x32caab7b40c72493,
  0x3c9ebe0a15c9bebc, 0x431d67c49c100d4c, 0x4cc5d4becb3e42b6, 0x597f299cfc657e2a, 0x5fcb6fab3ad6faec,
  0x6c44198c4a475817]

/-- The round constants. -/
def shaK : List (BitVec 64) := shaK0 ++ shaK1 ++ shaK2 ++ shaK3 ++ shaK4 ++ shaK5 ++ shaK6 ++ shaK7

/-- The initial hash value. -/
def shaH0 : List (BitVec 64) :=
  [0xcbbb9d5dc1059ed8, 0x629a292a367cd507, 0x9159015a3070dd17, 0x152fecd8f70e5939, 0x67332667ffc00b31,
    0x8eb44a8768581511, 0xdb0c2e0d64f98fa7, 0x47b5481dbefa4fa4]

/-- One step of the message schedule: `w` holds the last 16 words, newest first. -/
def shaNextW (w : List (BitVec 64)) : BitVec 64 :=
  let g := fun i => nth w i 0
  let s0 := fun (x : BitVec 64) => x.rotateRight 1 ^^^ x.rotateRight 8 ^^^ (x >>> 7)
  let s1 := fun (x : BitVec 64) => x.rotateRight 19 ^^^ x.rotateRight 61 ^^^ (x >>> 6)
  s1 (g 1) + g 6 + s0 (g 14) + g 15

/-- The 80 schedule words of a block. -/
def shaSchedule (blk : List (BitVec 64)) : List (BitVec 64) :=
  ((List.range 64).foldl (fun (w : List (BitVec 64)) _ => shaNextW w :: w) blk.reverse).reverse

/-- One round on the working variables a..h. -/
def shaRound (v : List (BitVec 64)) (kw : BitVec 64) : List (BitVec 64) :=
  match v with
  | [a, b, c, d, e, f, g, h] =>
    let s1 := e.rotateRight 14 ^^^ e.rotateRight 18 ^^^ e.rotateRight 41
    let ch := (e &&& f) ^^^ (~~~e &&& g)
    let t1 := h + s1 + ch + kw
    let s0 := a.rotateRight 28 ^^^ a.rotateRight 34 ^^^ a.rotateRight 39
    let mj := (a &&& b) ^^^ (a &&& c) ^^^ (b &&& c)
    [t1 + s0 + mj, a, b, c, d + t1, e, f, g]
  | v => v

/-- One 128-byte block. -/
def shaBlock (hs : List (BitVec 64)) (blk : List Byte) : List (BitVec 64) :=
  let ws := shaSchedule ((chunksOf 8 blk).map fun b => BitVec.ofNat 64 (beNat b))
  let v := (List.zipWith (· + ·) shaK ws).foldl shaRound hs
  List.zipWith (· + ·) hs v

/-- SHA-384 of FIPS 180-4. -/
def sha384 (msg : List Byte) : List Byte :=
  let n := msg.length
  let zeros := (128 - (n + 17) % 128) % 128
  let padded := msg ++ [0x80] ++ List.replicate zeros 0 ++ beBytes 16 (8 * n)
  let hs := (chunksOf 128 padded).foldl shaBlock shaH0
  ((hs.take 6).map fun h => beBytes 8 h.toNat).flatten

/-- HMAC-SHA-384 of RFC 2104. -/
def hmac384 (key msg : List Byte) : List Byte :=
  let k := padTo 128 (if key.length > 128 then sha384 key else key)
  let x := fun (c : Byte) => k.map fun b => b ^^^ c
  sha384 (x 0x5C ++ sha384 (x 0x36 ++ msg))

/-- HKDF-SHA-384 of RFC 5869, at most 48 bytes of output. -/
def hkdf384 (salt ikm info : List Byte) (len : Nat) : List Byte :=
  (hmac384 (hmac384 salt ikm) (info ++ [1])).take len

/-- Output block `i` (from 1) of the counter-mode KDF of SP 800-108 with HMAC-SHA-384: a 32-bit counter, the label,
a zero byte, an empty context and the output length of 384 bits. -/
def kdf108 (key : List Byte) (label : String) (i : Nat) : List Byte :=
  hmac384 key (beBytes 4 i ++ strBytes label ++ [0] ++ beBytes 4 384)

/-! ### AES-256 -/

/-- Doubling in the field of AES. -/
def aesX2 (a : Byte) : Byte := (a <<< 1) ^^^ (if a.msb then 0x1B else 0)

/-- Multiplication in the field of AES. -/
def aesMul (a b : Byte) : Byte :=
  ((List.range 8).foldl (fun (s : Byte × Byte) k =>
    (if b.getLsbD k then s.1 ^^^ s.2 else s.1, aesX2 s.2)) (0, a)).1

/-- The S-box: the inverse (the 254th power), then the affine map. -/
def aesSbox (a : Byte) : Byte :=
  let a2 := aesMul a a
  let p := (List.range 6).foldl (fun (s : Byte × Byte) _ =>
    let sq := aesMul s.2 s.2
    (aesMul s.1 sq, sq)) (a2, a2)
  let i := p.1
  i ^^^ i.rotateLeft 1 ^^^ i.rotateLeft 2 ^^^ i.rotateLeft 3 ^^^ i.rotateLeft 4 ^^^ 0x63

/-- The inverse S-box, by search. -/
def aesInvSbox (a : Byte) : Byte :=
  BitVec.ofNat 8 (((List.range 256).find? fun k => aesSbox (BitVec.ofNat 8 k) == a).getD 0)

/-- The 60 words of the key schedule, newest first, from the 8 words of a 256-bit key. -/
def aesExpand (key : List Byte) : List (List Byte) :=
  let init := (chunksOf 4 (padTo 32 key)).reverse
  let step := fun (s : List (List Byte) × Byte) k =>
    let (ws, rc) := s
    let i := k + 8
    let t := nth ws 0 []
    let o := nth ws 7 []
    if i % 8 = 0 then
      let r := (t.drop 1 ++ t.take 1).map aesSbox
      (xorBytes (xorBytes o r) [rc, 0, 0, 0] :: ws, aesX2 rc)
    else if i % 8 = 4 then (xorBytes o (t.map aesSbox) :: ws, rc)
    else (xorBytes o t :: ws, rc)
  ((List.range 52).foldl step (init, 1)).1

/-- The 15 round keys. -/
def aesRoundKeys (key : List Byte) : List (List Byte) :=
  (chunksOf 4 (aesExpand key).reverse).map List.flatten

/-- Row `r` of the state moved left by `r` columns; `inv` moves right. -/
def aesShift (inv : Bool) (s : List Byte) : List Byte :=
  (List.range 16).map fun i =>
    let r := i % 4
    let c := i / 4
    nth s (4 * ((if inv then c + 4 - r else c + r) % 4) + r) 0

/-- MixColumns with the first row of its matrix. -/
def aesMix (m : List Byte) (s : List Byte) : List Byte :=
  (List.range 16).map fun i =>
    let r := i % 4
    let c := i / 4
    (List.range 4).foldl (fun (acc : Byte) k => acc ^^^ aesMul (nth m ((k + 4 - r) % 4) 0) (nth s (4 * c + k) 0)) 0

/-- AES-256 encryption of a 16-byte block. -/
def aesEnc (key blk : List Byte) : List Byte :=
  let ks := aesRoundKeys key
  let s := xorBytes (padTo 16 blk) (nth ks 0 [])
  let s := (List.range 13).foldl (fun s k =>
    xorBytes (aesMix [2, 3, 1, 1] (aesShift false (s.map aesSbox))) (nth ks (k + 1) [])) s
  xorBytes (aesShift false (s.map aesSbox)) (nth ks 14 [])

/-- AES-256 decryption of a 16-byte block. -/
def aesDec (key blk : List Byte) : List Byte :=
  let ks := aesRoundKeys key
  let s := xorBytes (padTo 16 blk) (nth ks 14 [])
  let s := (List.range 13).foldl (fun s k =>
    aesMix [14, 11, 13, 9] (xorBytes ((aesShift true s).map aesInvSbox) (nth ks (13 - k) []))) s
  xorBytes ((aesShift true s).map aesInvSbox) (nth ks 0 [])

/-- Doubling of a 128-bit big-endian value, as CMAC's subkeys take it. -/
def cmacDbl (b : List Byte) : List Byte :=
  let v := beNat b
  beBytes 16 (if v.testBit 127 then Nat.xor (2 * v % 2 ^ 128) 0x87 else 2 * v)

/-- AES-256-CMAC of SP 800-38B. -/
def aesCmac (key msg : List Byte) : List Byte :=
  let k1 := cmacDbl (aesEnc key (List.replicate 16 0))
  let k2 := cmacDbl k1
  let n := max 1 (ceilDiv msg.length 16)
  let last := msg.drop (16 * (n - 1))
  let last := if last.length = 16 then xorBytes last k1 else xorBytes (padTo 16 (last ++ [0x80])) k2
  let x := (chunksOf 16 (msg.take (16 * (n - 1)))).foldl (fun x b => aesEnc key (xorBytes x b))
    (List.replicate 16 0)
  aesEnc key (xorBytes x last)

/-- Multiplication in the field of GCM, on 128-bit big-endian values. -/
def gfMul (x y : Nat) : Nat :=
  ((List.range 128).foldl (fun (s : Nat × Nat) k =>
    let z := if x.testBit (127 - k) then Nat.xor s.1 s.2 else s.1
    let v := if s.2 % 2 = 1 then Nat.xor (s.2 / 2) (0xE1 * 2 ^ 120) else s.2 / 2
    (z, v)) (0, y)).1

/-- GHASH over whole zero-padded blocks. -/
def ghash (h : Nat) (bs : List Byte) : Nat :=
  (chunksOf 16 bs).foldl (fun y b => gfMul (Nat.xor y (beNat (padTo 16 b))) h) 0

/-- Zero padding to a multiple of 16. -/
def pad16 (bs : List Byte) : List Byte := bs ++ List.replicate ((16 - bs.length % 16) % 16) 0

/-- The counter-mode key stream of GCM applied to `data`, from counter 2 of a 12-byte IV. -/
def gcmCtr (key iv data : List Byte) : List Byte :=
  ((List.zip (chunksOf 16 data) (List.range (ceilDiv data.length 16))).map fun (b, i) =>
    xorBytes b (aesEnc key (padTo 12 iv ++ beBytes 4 (i + 2)))).flatten

/-- The GCM tag over associated data and ciphertext. -/
def gcmTag (key iv aad ct : List Byte) : List Byte :=
  let h := beNat (aesEnc key (List.replicate 16 0))
  let s := ghash h (pad16 aad ++ pad16 ct ++ beBytes 8 (8 * aad.length) ++ beBytes 8 (8 * ct.length))
  xorBytes (aesEnc key (padTo 12 iv ++ beBytes 4 1)) (beBytes 16 s)

/-- AES-256-GCM encryption: ciphertext and 16-byte tag. -/
def gcmSeal (key iv aad pt : List Byte) : List Byte × List Byte :=
  let ct := gcmCtr key iv pt
  (ct, gcmTag key iv aad ct)

/-- AES-256-GCM decryption; none if the tag fails. -/
def gcmOpen (key iv aad ct tag : List Byte) : Option (List Byte) :=
  if gcmTag key iv aad ct = tag then some (gcmCtr key iv ct) else none

/-- AES-256-XTS encryption of whole blocks with a data unit number (IEEE 1619). -/
def xtsApply (dec : Bool) (key : List Byte) (unit : Nat) (data : List Byte) : List Byte :=
  let k1 := key.take 32
  let t0 := leNat (aesEnc (key.drop 32) (leBytes 16 unit))
  let dbl := fun (t : Nat) => if t.testBit 127 then Nat.xor (2 * t % 2 ^ 128) 0x87 else 2 * t
  ((chunksOf 16 data).foldl (fun (s : List (List Byte) × Nat) b =>
    let t := leBytes 16 s.2
    let x := xorBytes b t
    (xorBytes (if dec then aesDec k1 x else aesEnc k1 x) t :: s.1, dbl s.2)) ([], t0)).1.reverse.flatten

/-- AES key unwrap of RFC 3394; none if the check value fails. -/
def aesUnwrap (kek wrapped : List Byte) : Option (List Byte) :=
  let n := wrapped.length / 8 - 1
  let a0 := wrapped.take 8
  let r0 := chunksOf 8 (wrapped.drop 8)
  let (a, r) := (List.range (6 * n)).foldl (fun (s : List Byte × List (List Byte)) k =>
    let t := 6 * n - k
    let i := (t - 1) % n
    let b := aesDec kek (xorBytes s.1 (beBytes 8 t) ++ nth s.2 i [])
    (b.take 8, s.2.set i (b.drop 8))) (a0, r0)
  if a = List.replicate 8 0xA6 then some r.flatten else none

/-! ### P-384 -/

/-- The field prime. -/
def p384P : Nat := 2 ^ 384 - 2 ^ 128 - 2 ^ 96 + 2 ^ 32 - 1
/-- The curve constant b. -/
def p384B : Nat := 0xb3312fa7e23ee7e4988e056be3f82d19181d9c6efe8141120314088f5013875ac656398d8a2ed19d2a85c8edd3ec2aef
/-- The group order. -/
def p384N : Nat := 0xffffffffffffffffffffffffffffffffffffffffffffffffc7634d81f4372ddf581a0db248b0a77aecec196accc52973
/-- The base point. -/
def p384G : Nat × Nat :=
  (0xaa87ca22be8b05378eb1c71ef320ad746e1d3b628ba79b9859f741e082542a385502f25dbf55296c3a545e3872760ab7,
   0x3617de4a96262c6f5d9e98bf9292dc29f8f41dbd289a147ce9da3113b5f0b8c00a60b1ce1d7e819d7a431d7c90ea0e5f)

/-- `b ^ e mod m` for exponents below 2^384. -/
def powMod (b e m : Nat) : Nat :=
  ((List.range 384).foldl (fun (s : Nat × Nat) k =>
    (if e.testBit k then s.1 * s.2 % m else s.1, s.2 * s.2 % m)) (1 % m, b % m)).1

/-- The inverse modulo a prime. -/
def invMod (a m : Nat) : Nat := powMod a (m - 2) m

/-- `a - b` modulo `m`. -/
def subMod (a b m : Nat) : Nat := (a % m + (m - b % m)) % m

/-- Addition of points of P-384; none is the point at infinity. -/
def p384Add (a b : Option (Nat × Nat)) : Option (Nat × Nat) :=
  match a, b with
  | none, q => q
  | q, none => q
  | some (x1, y1), some (x2, y2) =>
    if x1 = x2 ∧ (y1 + y2) % p384P = 0 then none
    else
      let l := if x1 = x2 then (3 * x1 * x1 + (p384P - 3)) % p384P * invMod (2 * y1) p384P % p384P
        else subMod y2 y1 p384P * invMod (subMod x2 x1 p384P) p384P % p384P
      let x3 := subMod (l * l) (x1 + x2) p384P
      some (x3, subMod (l * subMod x1 x3 p384P) y1 p384P)

/-- `k` times a point. -/
def p384Mul (k : Nat) (q : Option (Nat × Nat)) : Option (Nat × Nat) :=
  ((List.range 384).foldl (fun (s : Option (Nat × Nat) × Option (Nat × Nat)) i =>
    (if k.testBit i then p384Add s.1 s.2 else s.1, p384Add s.2 s.2)) (none, q)).1

/-- A public key's point: 97 bytes, 0x04 then X and Y, on the curve. -/
def p384Point (bs : List Byte) : Option (Nat × Nat) :=
  let x := beNat (slice bs 1 48)
  let y := beNat (slice bs 49 48)
  if bs.length = 97 ∧ bs.head? = some 4 ∧ x < p384P ∧ y < p384P ∧
      y * y % p384P = (x * x % p384P * x + (p384P - 3) * x + p384B) % p384P then some (x, y) else none

/-- The 97-byte public key of a private key. -/
def p384Public (d : Nat) : List Byte :=
  match p384Mul d (some p384G) with
  | some (x, y) => 4 :: (beBytes 48 x ++ beBytes 48 y)
  | none => List.replicate 97 0

/-- ECDSA verification of a 96-byte signature (r, then s) over a SHA-384 digest. -/
def ecdsaVerify (pub digest sig : List Byte) : Bool :=
  let r := beNat (slice sig 0 48)
  let s := beNat (slice sig 48 48)
  match p384Point pub with
  | none => false
  | some q =>
    if r = 0 ∨ p384N ≤ r ∨ s = 0 ∨ p384N ≤ s then false
    else
      let w := invMod s p384N
      match p384Add (p384Mul (beNat digest * w % p384N) (some p384G)) (p384Mul (r * w % p384N) (some q)) with
      | none => false
      | some (x, _) => x % p384N == r

/-- ECDSA signing with private key `d` and nonce `k`: r, then s. -/
def ecdsaSign (d k : Nat) (digest : List Byte) : List Byte :=
  match p384Mul k (some p384G) with
  | none => List.replicate 96 0
  | some (x, _) =>
    let r := x % p384N
    let s := invMod k p384N * (beNat digest + r * d) % p384N
    beBytes 48 r ++ beBytes 48 s

/-- The x-coordinate of ECDH, 48 bytes; none for a bad key. -/
def ecdh384 (d : Nat) (pub : List Byte) : Option (List Byte) :=
  match p384Mul d (p384Point pub) with
  | some (x, _) => some (beBytes 48 x)
  | none => none

/-- The private key of R434: the first 48-byte candidate of the KDF in 1 to n - 1. -/
def deriveKey (cdi : List Byte) (label : String) : Nat :=
  (((List.range 8).map fun i => beNat (kdf108 cdi label (i + 1))).find? fun v =>
    decide (1 ≤ v ∧ v < p384N)).getD 1

end Sys2Proof.Machine
end

