-- ==== Sys2Proof/Machine/Formats.lean ====
section
/-!
DEFINITION. Number formats and the arithmetic between stored codes and accumulators (chapter 7: R165-R185), as
exact integer functions.
-/

namespace Sys2Proof.Machine

/-- The stored formats of Table 7.1. -/
inductive Fmt where
  | q8a
  | q8e
  | q16a
  | w4
  | bf16
  | e4m3
  | e5m2
  | acc48
deriving DecidableEq, Repr

/-- The format of a format code (Table 7.1); none for the reserved codes. -/
def Fmt.ofCode : Nat → Option Fmt
  | 1 => some .q8a
  | 2 => some .q8e
  | 3 => some .q16a
  | 4 => some .w4
  | 5 => some .bf16
  | 6 => some .e4m3
  | 7 => some .e5m2
  | 8 => some .acc48
  | _ => none

/-- The format code of Table 7.1. -/
def Fmt.code : Fmt → Nat
  | .q8a => 1
  | .q8e => 2
  | .q16a => 3
  | .w4 => 4
  | .bf16 => 5
  | .e4m3 => 6
  | .e5m2 => 7
  | .acc48 => 8

/-- Bits per element (Table 7.1). -/
def Fmt.bits : Fmt → Nat
  | .q8a | .q8e | .e4m3 | .e5m2 => 8
  | .q16a | .bf16 => 16
  | .w4 => 4
  | .acc48 => 64

/-- The largest zero point of a format (Table 7.1). -/
def Fmt.zpMax : Fmt → Nat
  | .q8a => 255
  | .q8e => 254
  | .q16a => 65535
  | _ => 0

/-- The exponents a format allows (Table 7.1). -/
def Fmt.expRange : Fmt → Int × Int
  | .q8a | .q8e | .q16a | .w4 => (-64, 63)
  | .bf16 | .e4m3 | .e5m2 => (0, 0)
  | .acc48 => (-128, 127)

/-- A block-float input format (R176). -/
def Fmt.isFloat : Fmt → Bool
  | .bf16 | .e4m3 | .e5m2 => true
  | _ => false

/-- Q8A, Q8E or Q16A. -/
def Fmt.isInt : Fmt → Bool
  | .q8a | .q8e | .q16a => true
  | _ => false

/-- A format that an engine-ready tile may hold (Table 12.3). -/
def Fmt.ertOk : Fmt → Bool
  | .q8a | .q8e | .e4m3 | .e5m2 | .w4 => true
  | _ => false

/-- Wrapping to the 48-bit accumulator (R170, R180). -/
def wrap48 (i : Int) : Int := wrapI 48 i

/-- The number of bits of a magnitude. -/
def bitLen (n : Nat) : Nat := if n = 0 then 0 else Nat.log2 n + 1

/-! ### Floating-point elements (R176) -/

/-- Fraction bits, exponent field width, and the exponent of a subnormal's unit (Table 7.5). -/
def Fmt.floatShape : Fmt → Nat × Nat × Int
  | .bf16 => (7, 8, -133)
  | .e4m3 => (3, 4, -9)
  | .e5m2 => (2, 5, -16)
  | _ => (0, 0, 0)

/-- Whether a floating-point code is non-finite (Table 7.5). -/
def Fmt.nonFinite (f : Fmt) (code : Nat) : Bool :=
  let (p, w, _) := f.floatShape
  let e := code / 2 ^ p % 2 ^ w
  match f with
  | .bf16 => e == 255
  | .e4m3 => e == 15 && code % 8 == 7
  | .e5m2 => e == 31
  | _ => false

/-- The significand and exponent of a floating-point code (Table 7.5); a non-finite code loads as 0 (R177). -/
def Fmt.decodeFloat (f : Fmt) (code : Nat) : Int × Int :=
  let (p, w, sub) := f.floatShape
  let e := code / 2 ^ p % 2 ^ w
  let fr := code % 2 ^ p
  let neg := code.testBit (p + w)
  if f.nonFinite code then (0, sub)
  else
    let (s, x) : Nat × Int := if e = 0 then (fr, sub) else (2 ^ p + fr, sub + (e : Int) - 1)
    (if neg then -(s : Int) else (s : Int), x)

/-- The largest finite code without its sign (Table 7.5). -/
def Fmt.maxFinite : Fmt → Nat
  | .bf16 => 254 * 128 + 127
  | .e4m3 => 15 * 8 + 6
  | .e5m2 => 30 * 4 + 3
  | _ => 0

/-- `s * 2^k` rounded half to even to an integer, `k` of either sign. -/
def scaleRhe (s : Int) (k : Int) : Int :=
  if 0 ≤ k then s * ((2 ^ k.toNat : Nat) : Int) else shrRhe s (-k).toNat

/-- The value `v * 2^e` rounded half to even to the format (R185), and whether it saturated. A zero is +0. -/
def Fmt.roundFloat (f : Fmt) (v : Int) (e : Int) : Nat × Bool :=
  let (p, w, sub) := f.floatShape
  let a := v.natAbs
  if a = 0 then (0, false)
  else
    let top := e + (bitLen a : Int) - 1
    let u := if top - (p : Int) < sub then sub else top - (p : Int)
    let m := (scaleRhe a (e - u)).toNat
    let code := (u - sub).toNat * 2 ^ p + m
    let sat := decide (f.maxFinite < code)
    let code := if sat then f.maxFinite else code
    (if code = 0 then 0 else if v < 0 then code + 2 ^ (p + w) else code, sat)

/-! ### Block-float (R178, R179) -/

/-- The block scale of up to 32 (significand, exponent) pairs for mantissa width `w`; none when every element is 0
(every mantissa and the scale are then 0). -/
def blockScale (w : Nat) (xs : List (Int × Int)) : Option Int :=
  let tops := xs.filterMap fun (s, x) => if s = 0 then none else some (x + (bitLen s.natAbs : Int) - 1)
  match tops with
  | [] => none
  | t :: ts => some (ts.foldl max t - ((w : Int) - 2))

/-- The block's scale and mantissas (R178). -/
def blockMantissas (w : Nat) (xs : List (Int × Int)) : Int × List Int :=
  match blockScale w xs with
  | none => (0, xs.map fun _ => 0)
  | some q => (q, xs.map fun (s, x) => scaleRhe s (x - q))

/-- A block partial sum aligned to the accumulator exponent `t`, before the wrap of R179. -/
def alignRaw (p : Int) (qp t : Int) : Int := scaleRhe p (qp - t)

/-- R179. -/
def alignAcc (p : Int) (qp t : Int) : Int := wrap48 (alignRaw p qp t)

/-! ### Rescale (R182-R185) -/

/-- A rescale entry (Tables 7.6 and 7.7). `reserved` holds CTRL bits 7:6. -/
structure Rescale where
  bias : Int
  m : Nat
  shift : Nat
  reserved : Nat
  zOut : Nat
  cMin : Int
  cMax : Int
deriving DecidableEq, Repr

/-- The entry in 16 bytes (Table 7.6). -/
def Rescale.ofBytes (bs : List Byte) : Rescale :=
  let ctrl := field bs 8 8
  { bias := sx 48 (field bs 0 6), m := field bs 6 2, shift := bits ctrl 5 0, reserved := bits ctrl 7 6,
    zOut := bits ctrl 23 8, cMin := sx 20 (bits ctrl 43 24), cMax := sx 20 (bits ctrl 63 44) }

/-- Validity for an output format (R184, Table 7.8). An ACC48 output reads no entry. -/
def Rescale.valid (r : Rescale) (f : Fmt) : Bool :=
  match f with
  | .acc48 => true
  | .q8a => r.reserved == 0 && decide (r.zOut ≤ 255 ∧ 0 ≤ r.cMin ∧ r.cMin ≤ r.cMax ∧ r.cMax ≤ 255)
  | .q8e => r.reserved == 0 && decide (r.zOut ≤ 254 ∧ r.cMin ≤ r.cMax)
  | .q16a => r.reserved == 0 && decide (0 ≤ r.cMin ∧ r.cMin ≤ r.cMax ∧ r.cMax ≤ 65535)
  | .bf16 | .e4m3 | .e5m2 => r.reserved == 0 && decide (r.zOut = 0 ∧ r.cMin = 0 ∧ r.cMax = 0)
  | .w4 => false

/-- The integer rescale (R183). -/
def Rescale.apply (r : Rescale) (acc : Int) : Int :=
  clampI r.cMin r.cMax (shrRhe ((acc + r.bias) * (r.m : Int)) r.shift + (r.zOut : Int))

/-- The floating-point rescale (R185) of an accumulator of exponent `t`, and whether it saturated. -/
def Rescale.applyFloat (r : Rescale) (f : Fmt) (acc t : Int) : Nat × Bool :=
  f.roundFloat ((acc + r.bias) * (r.m : Int)) (t - (r.shift : Int))

/-- The rescale that RESCALE applies for the instruction's output format: R183, or R185. -/
def Rescale.output (r : Rescale) (f : Fmt) (acc t : Int) : Int × Bool :=
  if f.isFloat then
    let (c, s) := r.applyFloat f acc t
    ((c : Int), s)
  else (r.apply acc, false)

/-- The score rescale of R263. -/
def Rescale.score (r : Rescale) (a : Int) : Int := satI 32 (shrRhe (a * (r.m : Int)) r.shift)

/-- An entry used for scores or dS must have BIAS, Z_OUT and both clamps 0 (R263, R268). -/
def Rescale.plain (r : Rescale) : Bool :=
  r.reserved == 0 && decide (r.bias = 0 ∧ r.zOut = 0 ∧ r.cMin = 0 ∧ r.cMax = 0)

/-! ### ACC48 elements (R181) -/

/-- The value of an ACC48 element's 64-bit pattern. -/
def acc48Val (code : Nat) : Int := sx 48 code

/-- Bits 63:48 are copies of bit 47 (Table 7.1). -/
def acc48Ok (code : Nat) : Bool := toU 64 (sx 48 code) == code % 2 ^ 64

/-! ### The fixed functions of the fabric (R149-R151) -/

/-- The root taken by EXP2: its argument is in units of 2^-16 (R150). -/
def rootDegree : Nat := 65536

/-- The largest integer whose 65,536-th power is at most `2^y`, found bit by bit: the floor of 2^(y / 65,536). -/
def rootFloor (y : Nat) : Nat :=
  (List.range 33).foldr (fun k acc =>
    let c := acc + 2 ^ k
    if c ^ rootDegree ≤ 2 ^ y then c else acc) 0

/-- R150: the nearest integer to 2^31 * 2^(x / 65,536). Twice the value is 2^(y / 65,536) for y = 32 * 65,536 + x;
its floor, halved and rounded up, is the nearest integer, and an exact tie occurs only at x = -32 * 65,536, where
the result is 0. -/
def exp2Fix (x : Int) : Nat :=
  if 0 ≤ x then 0x80000000
  else if x ≤ -2097152 then 0
  else (rootFloor (2097152 + x).toNat + 1) / 2

/-- R151: the mantissa and exponent of a reciprocal. -/
def recipFix (v : Nat) : Nat × Nat :=
  if v = 0 then (0xFFFFFFFF, 32)
  else
    let e := 32 - bitLen v
    ((divRhe ((2 ^ 62 : Nat) : Int) (v * 2 ^ e)).toNat, e)

/-- A lookup table of a fabric image (R146). -/
structure LutTable where
  base : Int
  shift : Nat
  entries : List Int
deriving DecidableEq, Repr

/-- R149. -/
def lutFix (t : LutTable) (x : Int) : Int :=
  let d := x - t.base
  let p : Int := ((2 ^ t.shift : Nat) : Int)
  let i := d / p
  let (i, f) : Int × Int :=
    if i < 0 then (0, 0) else if 255 < i then (255, p) else (i, d - i * p)
  let y0 := nth t.entries i.toNat 0
  let dy := nth t.entries (i.toNat + 1) 0 - y0
  satI 32 (y0 + shrRhe (dy * f) t.shift)

end Sys2Proof.Machine
end

