-- ==== Sys2Proof/Machine/Fabric.lean ====
section
/-!
DEFINITION. The vector fabric: configuration images and their checks (R146, R147), the microcode (R148, Tables 6.5
and 6.6), and one lane's run over the drained rows of a tile (R145, R494).
-/

namespace Sys2Proof.Machine

/-- A microcode word (Table 6.5). -/
structure FabWord where
  op : Nat
  dst : Nat
  srcA : Nat
  srcB : Nat
  rnd : Nat
  reserved : Nat
  imm : Nat
deriving DecidableEq, Repr

/-- The fields of a 64-bit word (Table 6.5). -/
def FabWord.ofNat (w : Nat) : FabWord :=
  { op := bits w 63 58, dst := bits w 57 52, srcA := bits w 51 46, srcB := bits w 45 40, rnd := bits w 39 38,
    reserved := bits w 37 32, imm := bits w 31 0 }

/-- A configuration image that has passed its checks: FLAGS, the tables, the words and LOOP_WORD. -/
structure FabImage where
  length : Nat
  digest : List Byte
  luts : List LutTable
  words : List FabWord
  loopWord : Nat
deriving DecidableEq, Repr

/-- Whether a word is accepted (R148): the operation, reserved fields and registers, and the units its header
declares. DEDUCED: a reserved register code is refused in every word, whatever its operation reads or writes. -/
def FabWord.ok (flags lutCount : Nat) (w : FabWord) : Bool :=
  decide (w.op ≤ 0x13) && w.reserved == 0 && decide (w.rnd ≤ 1) && decide (w.srcA < 56) && decide (w.srcB < 56) &&
  (decide (w.dst < 48) || w.dst == 49) &&
  (w.op != 0x0F || (decide (w.imm % 16 < lutCount) && flags.testBit 0)) &&
  (w.op != 0x10 || flags.testBit 1) &&
  (w.op != 0x11 || (decide (w.dst < 47) && flags.testBit 2))

/-- Whether a word applies RESCALE or reads source 52 (R148). -/
def FabWord.usesRescale (w : FabWord) : Bool :=
  w.op == 0x12 ||
  ((w.srcA == 52 || w.srcB == 52) &&
    (decide (1 ≤ w.op ∧ w.op ≤ 0x0D) || decide (0x0F ≤ w.op ∧ w.op ≤ 0x11)))

/-- Table `k` of an image's bytes, tables starting at `off` (R146). -/
def lutOfBytes (img : List Byte) (off k : Nat) : LutTable :=
  let o := off + 1040 * k
  { base := sx 32 (field img o 4), shift := field img (o + 4) 1,
    entries := (List.range 257).map fun i => sx 32 (field img (o + 8 + 4 * i) 4) }

/-- Whether the ranges [a, a + n) and [b, b + m) share a byte. -/
def overlaps (a n b m : Nat) : Bool := decide (a < b + m) && decide (b < a + n)

/-- Check 4 of R147: LENGTH, the offsets, the counts and LOOP_WORD under R146, and every table's SHIFT. -/
def fabLengthOk (b : List Byte) : Bool :=
  let length := field b 8 4
  let count := field b 0x0C 1
  let lutOff := field b 0x10 4
  let codeOff := field b 0x14 4
  let nWords := field b 0x18 2
  let loop := field b 0x1A 2
  length % 256 == 0 && decide (0x60 < length ∧ length ≤ 65536) && decide (count ≤ 16) &&
  decide (1 ≤ nWords ∧ nWords ≤ 1024) && decide (loop ≤ nWords) &&
  codeOff % 8 == 0 && decide (0x60 ≤ codeOff ∧ codeOff + 8 * nWords ≤ length) &&
  (count == 0 || (decide (0x60 ≤ lutOff ∧ lutOff + 1040 * count ≤ length) &&
    !overlaps lutOff (1040 * count) codeOff (8 * nWords))) &&
  (List.range count).all fun k => decide (field b (lutOff + 1040 * k + 4) 1 ≤ 24)

/-- Check 3 of R147: reserved fields of the header, and the reserved bytes and padding of every table. -/
def fabReservedOk (b : List Byte) : Bool :=
  let count := field b 0x0C 1
  let lutOff := field b 0x10 4
  decide (field b 6 2 < 8) && field b 0x0D 3 == 0 && field b 0x1C 4 == 0 && field b 0x50 16 == 0 &&
  (List.range count).all fun k =>
    field b (lutOff + 1040 * k + 5) 3 == 0 && field b (lutOff + 1040 * k + 8 + 1028) 4 == 0

/-- The words of an image. -/
def fabWords (b : List Byte) : List FabWord :=
  (List.range (field b 0x18 2)).map fun i => FabWord.ofNat (field b (field b 0x14 4 + 8 * i) 8)

/-- The image in the bytes `b` from its first byte on, or the number of the first check of R147 that fails. -/
def fabCheck (b : List Byte) : Except Nat FabImage :=
  if field b 0 4 ≠ 0x5A564642 then .error 1
  else if field b 4 2 ≠ 1 then .error 2
  else if !fabReservedOk b then .error 3
  else if !fabLengthOk b then .error 4
  else if sha384 (slice b 0x60 (field b 8 4 - 0x60)) ≠ slice b 0x20 48 then .error 5
  else if !(fabWords b).all (FabWord.ok (field b 6 2) (field b 0x0C 1)) then .error 6
  else .ok { length := field b 8 4, digest := slice b 0x20 48,
             luts := (List.range (field b 0x0C 1)).map (lutOfBytes b (field b 0x10 4)),
             words := fabWords b, loopWord := field b 0x1A 2 }

/-! ### One lane -/

/-- One drained row as a lane sees it: elements 2l and 2l + 1 (none outside the extent), the paired elements of B,
and the rescale entries of their channels. -/
structure RowIn where
  e0 : Option Int
  e1 : Option Int
  b0 : Int
  b1 : Int
  r0 : Option Rescale
  r1 : Option Rescale
deriving DecidableEq, Repr

/-- What is fixed for a tile: the image, the output format and accumulator exponent, the tile index, and the INDEX
values of source 53 (none without a correction pass). -/
structure FabCtx where
  img : FabImage
  fmt : Fmt
  expT : Int
  tile : Nat
  escapes : Option (List Nat)
deriving DecidableEq, Repr

/-- A lane (R145): registers, accumulator and flag, and where it stands in the row. `inRow` is false before
LOOP_WORD. -/
structure Lane where
  regs : List Int
  acc : Int
  flag : Bool
  inRow : Bool
  reads : Nat
  given : Nat
  row : RowIn
  out0 : Option Int
  out1 : Option Int
  sat0 : Bool
  sat1 : Bool
deriving DecidableEq, Repr

/-- The second element of the row is current (R148): it is the one last delivered. DEDUCED: before source 48 is read
in a row, element 2l is current for every source and destination. -/
def Lane.second (l : Lane) : Bool := decide (2 ≤ l.reads)

/-- The rescale entry of the current element's channel (R148, source 52). -/
def Lane.entry (l : Lane) : Option Rescale :=
  if l.inRow then (if l.second then l.row.r1 else l.row.r0) else none

/-- A source's value (R148), signed 32 bits, and the lane after the read. -/
def Lane.read (c : FabCtx) (idx : Nat) (l : Lane) (src : Nat) : Int × Lane :=
  if src < 48 then (nth l.regs src 0, l)
  else match src with
  | 48 =>
    if !l.inRow || decide (2 ≤ l.reads) then (0, l)
    else
      let v := wrap48 ((if l.reads = 0 then l.row.e0 else l.row.e1).getD 0)
      (wrapI 32 v, { l with acc := v, reads := l.reads + 1 })
  | 49 => if l.inRow then (wrapI 32 (if l.second then l.row.b1 else l.row.b0), l) else (0, l)
  | 50 => (wrapI 32 l.acc, l)
  | 51 => (wrapI 16 (l.acc / 0x100000000), l)
  | 52 => (((l.entry.map Rescale.m).getD 0 : Nat), l)
  | 53 =>
    match c.escapes with
    | none => (0, l)
    | some es => if l.given < es.length then ((nth es l.given 0 : Nat), { l with given := l.given + 1 }) else (-1, l)
  | 54 => ((idx : Nat), l)
  | 55 => (wrapI 32 (c.tile : Nat), l)
  | _ => (0, l)

/-- A result written to a destination (R148): a lane register, or the output of the current element. -/
def Lane.write (l : Lane) (dst : Nat) (v : Int) : Lane :=
  if dst < 48 then { l with regs := l.regs.set dst (wrapI 32 v) }
  else if dst = 49 ∧ l.inRow then
    if l.second then { l with out1 := some (wrapI 32 v) } else { l with out0 := some (wrapI 32 v) }
  else l

/-- RESCALE of the lane accumulator (R183, R185). A saturated float output is marked for its element (R185). -/
def Lane.rescale (c : FabCtx) (l : Lane) : Int × Lane :=
  match l.entry with
  | none => (0, l)
  | some r =>
    let (v, s) := r.output c.fmt l.acc c.expT
    (satI 32 v, if s then (if l.second then { l with sat1 := true } else { l with sat0 := true }) else l)

/-- The two-operand results of Table 6.6. -/
def fabAlu2 (op rnd imm : Nat) (flag : Bool) (a b : Int) : Int :=
  let pat := fun (f : Nat → Nat → Nat) => sx 32 (f (toU 32 a) (toU 32 b))
  match op with
  | 0x01 => satI 32 (a + b)
  | 0x02 => satI 32 (a - b)
  | 0x03 => satI 32 (if rnd = 0 then a * b / ((2 ^ (imm % 64) : Nat) : Int) else shrRhe (a * b) (imm % 64))
  | 0x07 => if b < a then b else a
  | 0x08 => if a < b then b else a
  | 0x09 => pat Nat.land
  | 0x0A => pat Nat.lor
  | 0x0B => pat Nat.xor
  | 0x0D => if flag then a else b
  | _ => 0

/-- One word on one lane (Table 6.6). DEDUCED: an operation reads only the sources it uses, A before B. -/
def Lane.exec (c : FabCtx) (idx : Nat) (l : Lane) (w : FabWord) : Lane :=
  let two := fun (k : Int → Int → Lane → Lane) =>
    let (a, l1) := l.read c idx w.srcA
    let (b, l2) := l1.read c idx w.srcB
    k a b l2
  let one := fun (k : Int → Lane → Lane) =>
    let (a, l1) := l.read c idx w.srcA
    k a l1
  match w.op with
  | 0x00 => l
  | 0x04 => two fun a b l => { l with acc := wrap48 (l.acc + wrapI 24 a * wrapI 17 b) }
  | 0x05 => one fun a l => l.write w.dst (satI 32 (a * ((2 ^ (w.imm % 32) : Nat) : Int)))
  | 0x06 => one fun a l =>
      l.write w.dst (if w.rnd = 0 then a / ((2 ^ (w.imm % 32) : Nat) : Int) else shrRhe a (w.imm % 32))
  | 0x0C => two fun a b l => { l with flag := decide (a < b) }
  | 0x0E => l.write w.dst (sx 32 w.imm)
  | 0x0F => one fun a l =>
      l.write w.dst (lutFix (nth c.img.luts (w.imm % 16) { base := 0, shift := 0, entries := [] }) a)
  | 0x10 => one fun a l => l.write w.dst (exp2Fix a : Nat)
  | 0x11 => one fun a l =>
      let (m, e) := recipFix (toU 32 a)
      (l.write w.dst (m : Nat)).write (w.dst + 1) (e : Nat)
  | 0x12 => let (v, l1) := l.rescale c; l1.write w.dst v
  | 0x13 => { l with acc := 0 }
  | op => two fun a b l => l.write w.dst (fabAlu2 op w.rnd w.imm l.flag a b)

/-- A lane at the start of a tile (R148). -/
def Lane.init : Lane :=
  { regs := List.replicate 48 0, acc := 0, flag := false, inRow := false, reads := 0, given := 0,
    row := { e0 := none, e1 := none, b0 := 0, b1 := 0, r0 := none, r1 := none },
    out0 := none, out1 := none, sat0 := false, sat1 := false }

/-- One drained row: the words from LOOP_WORD on (R148). -/
def Lane.runRow (c : FabCtx) (idx : Nat) (l : Lane) (r : RowIn) : Lane :=
  (c.img.words.drop c.img.loopWord).foldl (fun l w => l.exec c idx w)
    { l with inRow := true, reads := 0, row := r, out0 := none, out1 := none, sat0 := false, sat1 := false }

/-- What a lane wrote for a row: the outputs of its two elements, and how many saturated. -/
structure RowOut where
  o0 : Option Int
  o1 : Option Int
  sat : Nat
deriving DecidableEq, Repr

/-- A lane over the tile's drained rows, in order. DEDUCED: the rows drained are those inside the extent. -/
def runLane (c : FabCtx) (idx : Nat) (rows : List RowIn) : List RowOut :=
  let l0 := (c.img.words.take c.img.loopWord).foldl (fun l w => Lane.exec c idx l w) Lane.init
  (rows.foldl (fun (s : Lane × List RowOut) r =>
    let l := s.1.runRow c idx r
    (l, { o0 := l.out0, o1 := l.out1, sat := (if l.sat0 then 1 else 0) + (if l.sat1 then 1 else 0) } :: s.2))
    (l0, [])).2.reverse

/-- One element entering the drain: its accumulator or operand, the paired element of B, its rescale entry. -/
structure DrainElem where
  acc : Int
  b : Int
  entry : Option Rescale
deriving DecidableEq, Repr

/-- The tile through the fabric (R145, R494): `rows` holds each drained row's elements, at most 128, by column. The
result has the same shape: what the microcode wrote to each, and the count of saturated elements. -/
def runFabric (c : FabCtx) (rows : List (List DrainElem)) : List (List (Option Int)) × Nat :=
  let width := rows.foldl (fun m r => max m r.length) 0
  let lanes := (List.range (ceilDiv width 2)).map fun l =>
    runLane c l (rows.map fun r =>
      { e0 := (r[2 * l]?).map DrainElem.acc, e1 := (r[2 * l + 1]?).map DrainElem.acc,
        b0 := ((r[2 * l]?).map DrainElem.b).getD 0, b1 := ((r[2 * l + 1]?).map DrainElem.b).getD 0,
        r0 := (r[2 * l]?).bind DrainElem.entry, r1 := (r[2 * l + 1]?).bind DrainElem.entry })
  let outs := rows.mapIdx fun i r => r.mapIdx fun j _ =>
    let o := nth (nth lanes (j / 2) []) i { o0 := none, o1 := none, sat := 0 }
    if j % 2 = 0 then o.o0 else o.o1
  (outs, lanes.foldl (fun n l => l.foldl (fun n o => n + o.sat) n) 0)

end Sys2Proof.Machine
end

