-- ==== Sys2Proof/Machine/Tensor.lean ====
section
/-!
DEFINITION. Tensor descriptors (R196), the place of an element in linear and engine-ready layout (R221, R222, R223,
R300-R302), reading elements with their escapes (R168, R171), the checks of an engine-ready tile (R304), and writing
an output's elements (R174, R302).
-/

namespace Sys2Proof.Machine

/-- Why an instruction or a tile stops: an instruction rejection cause (R198), a format rejection cause (R188), a
tag failure with the tile's location and sequence number (R304), a failed swap with the page-table index and the kind of
the SWAP_FAULT record (R259, Table 19.9), or a missing table region (R186). -/
inductive Bad where
  | instr (cause : Nat)
  | format (cause : Nat)
  | tag (loc seq : Nat)
  | swap (index kind : Nat)
  | notConfigured
deriving DecidableEq, Repr

/-- A tensor descriptor (Table 8.6). -/
structure Desc where
  base : Nat
  fcode : Nat
  rank : Nat
  exp : Int
  ert : Bool
  clm : Bool
  /-- A reserved bit is set (TYPE bit 7, DFLAGS 7:2, or ESC_BASE where the format has none). -/
  reserved : Bool
  zp : Nat
  d0 : Nat
  d1 : Nat
  d2 : Nat
  d3 : Nat
  d4 : Nat
  stride1 : Nat
  stride2 : Nat
  esc : Nat
deriving DecidableEq, Repr

/-- The descriptor in 32 bytes (Table 8.6). -/
def Desc.ofBytes (b : List Byte) : Desc :=
  let ty := field b 5 1
  let fl := field b 7 1
  let fc := ty % 16
  let esc := field b 0x1C 4
  { base := field b 0 5, fcode := fc, rank := bits ty 6 4, exp := sx 8 (field b 6 1),
    ert := fl.testBit 0, clm := fl.testBit 1,
    reserved := ty.testBit 7 || decide (4 ≤ fl) || (decide (esc ≠ 0) && fc != 4 && fc != 2),
    zp := field b 8 2,
    d0 := field b 0x0A 2, d1 := field b 0x0C 2, d2 := field b 0x0E 2, d3 := field b 0x10 2, d4 := field b 0x12 2,
    stride1 := field b 0x14 4, stride2 := field b 0x18 4, esc }

/-- The descriptor's format; Q8A stands in for a reserved code, which R188 rejects before any element is read. -/
def Desc.fmt (d : Desc) : Fmt := (Fmt.ofCode d.fcode).getD .q8a

/-- Extents as a list. -/
def Desc.dims (d : Desc) : List Nat := [d.d0, d.d1, d.d2, d.d3, d.d4]

/-- The number of elements. -/
def Desc.count (d : Desc) : Nat := d.d0 * d.d1 * d.d2 * d.d3 * d.d4

/-- An element's index. -/
structure Ix where
  i0 : Nat
  i1 : Nat
  i2 : Nat
  i3 : Nat
  i4 : Nat
deriving DecidableEq, Repr

/-- Index with the higher dimensions zero. -/
def ix (i0 i1 : Nat) (i2 : Nat := 0) (i3 : Nat := 0) (i4 : Nat := 0) : Ix := { i0, i1, i2, i3, i4 }

/-- Inside the extents. -/
def Desc.has (d : Desc) (i : Ix) : Bool :=
  decide (i.i0 < d.d0 ∧ i.i1 < d.d1 ∧ i.i2 < d.d2 ∧ i.i3 < d.d3 ∧ i.i4 < d.d4)

/-- The element of dense logical order number `p` (dimension 0 fastest). -/
def Desc.ixOf (d : Desc) (p : Nat) : Ix :=
  { i0 := p % d.d0, i1 := p / d.d0 % d.d1, i2 := p / (d.d0 * d.d1) % d.d2,
    i3 := p / (d.d0 * d.d1 * d.d2) % d.d3, i4 := p / (d.d0 * d.d1 * d.d2 * d.d3) }

/-- Dense bytes of a row along dimension 0 (R196). -/
def Desc.rowBytes (d : Desc) : Nat := (d.d0 * d.fmt.bits + 7) / 8

/-- Byte strides of dimensions 1 to 4 (R196). -/
def Desc.s1 (d : Desc) : Nat := if d.stride1 = 0 then d.rowBytes else d.stride1
def Desc.s2 (d : Desc) : Nat := if d.stride2 = 0 then d.d1 * d.s1 else d.stride2
def Desc.s3 (d : Desc) : Nat := d.d2 * d.s2
def Desc.s4 (d : Desc) : Nat := d.d3 * d.s3

/-- The address of a linear element's first byte, and its bit in it (R196, R221; W4 shares bytes, R165). -/
def Desc.addr (d : Desc) (i : Ix) : Nat :=
  d.base + i.i0 * d.fmt.bits / 8 + i.i1 * d.s1 + i.i2 * d.s2 + i.i3 * d.s3 + i.i4 * d.s4

/-- Rows of an engine-ready tile (Table 12.3). -/
def Fmt.ertRows (f : Fmt) : Nat := if f = .w4 then 256 else 128

/-- A place in an ERT tensor: tile, row and column in the tile, and the tensor's number of tiles. -/
structure ErtPos where
  n : Nat
  r : Nat
  c : Nat
  nt : Nat
deriving DecidableEq, Repr

/-- The place of an element by the general numbering (R302), which for SPATIAL tensors is that of R222. -/
def Desc.ertPos (d : Desc) (i : Ix) : ErtPos :=
  let h := d.fmt.ertRows
  let rb := ceilDiv d.d1 h
  let cb := ceilDiv d.d0 128
  let beta := i.i2 + d.d2 * (i.i3 + d.d3 * i.i4)
  { n := (beta * rb + i.i1 / h) * cb + i.i0 / 128, r := i.i1 % h, c := i.i0 % 128,
    nt := d.d2 * d.d3 * d.d4 * rb * cb }

/-- The place of weight W[k][n] of a convolution (R223, Table 9.1): `kLen` is the length of k and `p` the Winograd
position of `ps` (0 of 1 in the direct forms). -/
def Desc.weightPos (d : Desc) (kLen ps p k n : Nat) : ErtPos :=
  let h := d.fmt.ertRows
  let nb := ceilDiv d.d0 128
  let kb := ceilDiv kLen h
  { n := (p * kb + k / h) * nb + n / 128, r := k % h, c := n % 128, nt := ps * kb * nb }

/-- What an evaluation reads: the tenant's device memory as the Rink sees it, the core's own memory, the tag the
device would form for a tile at an address (R303), and the tenant. -/
structure Env where
  tenant : Nat
  mem : Nat → Byte
  clm : Nat → Byte
  tagOf : Nat → List Byte → List Byte
  /-- The location of R303 of a device address. -/
  loc : Nat → Nat

/-- `n` bytes of device memory. -/
def Env.bytes (e : Env) (a n : Nat) : List Byte := (List.range n).map fun i => e.mem (a + i)

/-- A little-endian number of `n` bytes in device memory. -/
def Env.num (e : Env) (a n : Nat) : Nat := leNat (e.bytes a n)

/-- A byte of a tensor: core-local where CLM is set. -/
def Env.at (e : Env) (d : Desc) (a : Nat) : Byte := if d.clm then e.clm a else e.mem a

/-- An element: its code, and for an escaped Q8E element its exact VALUE (R171). -/
structure Elem where
  code : Nat
  esc : Option Int
deriving DecidableEq, Repr

/-- The code of a linear element (R165, R196). -/
def Env.linear (e : Env) (d : Desc) (i : Ix) : Nat :=
  let a := d.addr i
  match d.fmt with
  | .w4 => (e.at d a).toNat / (if i.i0 % 2 = 0 then 1 else 16) % 16
  | f => leNat ((List.range (f.bits / 8)).map fun k => e.at d (a + k))

/-- The header of tile `n` of an ERT tensor with `nt` tiles (R302). -/
def Env.ertHeader (e : Env) (d : Desc) (nt n : Nat) : List Byte := e.bytes (d.base + nt * 16384 + n * 64) 64

/-- The byte offset of a code in a payload (R301). -/
def ertOffset (layout1 : Bool) (f : Fmt) (r c : Nat) : Nat :=
  if f = .w4 then r / 2 * 128 + c else if layout1 then r * 128 + c else c * 128 + r

/-- The code at a place of an ERT tensor (R301). -/
def Env.ertCode (e : Env) (d : Desc) (p : ErtPos) : Nat :=
  let l1 := (field (e.ertHeader d p.nt p.n) 0x0E 2).testBit 0
  let b := (e.mem (d.base + p.n * 16384 + ertOffset l1 d.fmt p.r p.c)).toNat
  if d.fmt = .w4 then (if p.r % 2 = 0 then b % 16 else b / 16) else b

/-- The escape entries of a tile (R302), as raw 8-byte strings. -/
def Env.ertEscapes (e : Env) (d : Desc) (nt n : Nat) : List (List Byte) :=
  let h := e.ertHeader d nt n
  let a := d.base + d.esc * 256 + field h 4 4 * 8
  (List.range (field h 3 1)).map fun k => e.bytes (a + 8 * k) 8

/-- INDEX and VALUE of an escape entry (Table 7.5a). -/
def escIndex (b : List Byte) : Nat := field b 0 4
def escValue (b : List Byte) : Int := sx 24 (field b 4 3)
def escFlags (b : List Byte) : Nat := field b 7 1

/-- The element at a place of an ERT tensor, with its escape (R171). -/
def Env.ertElem (e : Env) (d : Desc) (p : ErtPos) : Elem :=
  let code := e.ertCode d p
  if d.fmt = .q8e ∧ code = 255 then
    let en := (e.ertEscapes d p.nt p.n).find? fun b => escIndex b == p.r * 128 + p.c
    { code, esc := some ((en.map escValue).getD 0) }
  else { code, esc := none }

/-- An element of a tensor by its index. -/
def Env.elem (e : Env) (d : Desc) (i : Ix) : Elem :=
  if d.ert then e.ertElem d (d.ertPos i) else { code := e.linear d i, esc := none }

/-- The array operand of an integer, W4 or ACC48 element (R168, Table 7.2); an escaped element enters as 0. -/
def Elem.operand (d : Desc) (x : Elem) : Int :=
  match d.fmt with
  | .w4 => sx 4 x.code
  | .acc48 => acc48Val x.code
  | _ => if x.esc.isSome then 0 else (x.code : Int) - (d.zp : Int)

/-- The operand with an escaped element at its exact VALUE. -/
def Elem.exact (d : Desc) (x : Elem) : Int :=
  match x.esc with
  | some v => v
  | none => x.operand d

/-- The exact operand of an element, 0 outside the extents (R212). -/
def Env.val (e : Env) (d : Desc) (i : Ix) : Int := if d.has i then (e.elem d i).exact d else 0

/-- Reading W[k][n] of a convolution: linear by (n, ci, kx, ky), or by weight tiles (R223). `dec` gives the linear
index of (k, n). -/
def Env.weight (e : Env) (d : Desc) (kLen ps p k n : Nat) (lin : Ix) : Elem :=
  if d.ert then e.ertElem d (d.weightPos kLen ps p k n) else { code := e.linear d lin, esc := none }

/-! ### Checks of an engine-ready tile -/

/-- The message of R450 for a tile, after its domain byte and location: payload, header and escapes. -/
def Env.ertMessage (e : Env) (d : Desc) (nt n : Nat) : List Byte :=
  e.bytes (d.base + n * 16384) 16384 ++ (e.ertHeader d nt n).take 48 ++ (e.ertEscapes d nt n).flatten

/-- Strictly rising. -/
def rising : List Nat → Bool
  | a :: b :: rest => decide (a < b) && rising (b :: rest)
  | _ => true

/-- The codes of a tile equal to 0xFF, as INDEX values in ascending order. -/
def Env.ertEscaped (e : Env) (d : Desc) (nt n : Nat) : List Nat :=
  (List.range 16384).filter fun i => e.ertCode d { n, r := i / 128, c := i % 128, nt } == 255

/-- R171: the list of a Q8E tile. `weight` bounds VALUE (ESCAPE_VALUE), `wino` says whether entries must carry
TRANSFORMED (R231). -/
def Env.listCheck (e : Env) (d : Desc) (nt n : Nat) (weight wino : Bool) : Option Bad :=
  let es := e.ertEscapes d nt n
  if d.fmt ≠ .q8e then none
  else if !(rising (es.map escIndex)) || es.map escIndex != e.ertEscaped d nt n ||
      es.any (fun b => escFlags b != (if wino then 1 else 0)) then some (.format 5)
  else if weight && es.any (fun b => decide (escValue b < -65536 ∨ 65535 < escValue b)) then some (.format 6)
  else none

/-- R304: the tag, then the header, then the side list of tile `n`. -/
def Env.ertCheck (e : Env) (d : Desc) (weight wino : Bool) (nt n : Nat) : Option Bad :=
  let h := e.ertHeader d nt n
  let q8e := d.fmt == .q8e
  if e.tagOf (d.base + n * 16384) (e.ertMessage d nt n) ≠ slice h 0x30 16 then
    some (.tag (e.loc (d.base + n * 16384) / 256) (field h 8 4))
  else if field h 0 1 ≠ e.tenant ∨ field h 1 1 ≠ d.fcode ∨ sx 8 (field h 2 1) ≠ d.exp ∨
      field h 0x0C 2 ≠ d.zp ∨ field h 8 4 ≠ n ∨ 2 ≤ field h 0x0E 2 ∨ field h 0x10 32 ≠ 0 ∨
      (d.fmt = .w4 ∧ field h 0x0E 2 ≠ 1) ∨ (!q8e ∧ (field h 3 1 ≠ 0 ∨ field h 4 4 ≠ 0)) then some (.instr 5)
  else e.listCheck d nt n weight wino

/-- `x` into an ascending list without repeats. -/
def insNat (x : Nat) : List Nat → List Nat
  | [] => [x]
  | y :: ys => if x < y then x :: y :: ys else if x = y then y :: ys else y :: insNat x ys

/-- The distinct values of a list, in ascending order. -/
def sortDedup (xs : List Nat) : List Nat := xs.foldl (fun acc x => insNat x acc) []

/-- `x` into a list ascending by `key`, after equal keys. -/
def insBy {α : Type} (key : α → Nat) (x : α) : List α → List α
  | [] => [x]
  | y :: ys => if key x < key y then x :: y :: ys else y :: insBy key x ys

/-- A list in ascending order of `key`, equal keys in their order. -/
def sortBy {α : Type} (key : α → Nat) (xs : List α) : List α := xs.foldl (fun acc x => insBy key x acc) []

/-- The first failure among the tiles of `ps`, in ascending tile number; a linear operand has none. -/
def Env.ertsCheck (e : Env) (d : Desc) (weight wino : Bool) (ps : List ErtPos) : Option Bad :=
  if d.ert then
    let nt := (ps.head?.map ErtPos.nt).getD 0
    (sortDedup (ps.map ErtPos.n)).findSome? fun n => e.ertCheck d weight wino nt n
  else none

/-! ### Outputs -/

/-- A byte to write: the bits of `mask` take those of `val`. -/
structure Wr where
  addr : Nat
  mask : Nat
  val : Nat
deriving DecidableEq, Repr

/-- The little-endian bytes of a value at an address. -/
def wrBytes (a : Nat) (bs : List Byte) : List Wr := bs.mapIdx fun k b => { addr := a + k, mask := 255, val := b.toNat }

/-- An output element: its place, its code before clamping, or with `keep` an escape to keep (`v` is VALUE plus the
zero point). -/
structure OutElem where
  at' : Ix
  v : Int
  keep : Bool
deriving DecidableEq, Repr

/-- The stored pattern of an output value: Q8A and Q16A clamped to their codes, floating-point and W4 codes by their
low bits, ACC48 sign-extended (R181, R200). DEDUCED: every opcode's output is clamped as ELEMENTWISE's is. -/
def Fmt.pattern (f : Fmt) (v : Int) : Nat :=
  match f with
  | .q8a => (clampI 0 255 v).toNat
  | .q8e => (clampI 0 254 v).toNat
  | .q16a => (clampI 0 65535 v).toNat
  | .acc48 => toU 64 (wrap48 v)
  | f => toU f.bits v

/-- What an output holds where nothing was written: the zero-point code, +0 or 0 (R494). -/
def Desc.blank (d : Desc) : Int := if d.fmt.isInt then (d.zp : Int) else 0

/-- What a tile does besides its writes: flags and counters of R173, R174, R177, R180, R185, R246 and R301. -/
structure TileStats where
  flags : Nat
  opstat : Nat
  escapes : Nat
  escOverflow : Nat
  nonFinite : Bool
  headroom : Bool
  saturated : Nat
  transposed : Nat
deriving DecidableEq, Repr

def TileStats.zero : TileStats :=
  { flags := 0, opstat := 0, escapes := 0, escOverflow := 0, nonFinite := false, headroom := false, saturated := 0,
    transposed := 0 }

/-- The format flags of Table 7.9 that follow from the statistics. -/
def TileStats.withFlags (s : TileStats) : TileStats :=
  { s with flags := (if s.nonFinite then 1 else 0) + (if 0 < s.escOverflow then 2 else 0) +
      (if s.headroom then 4 else 0) + (if 0 < s.saturated then 8 else 0) }

/-- Two parts of one tile. -/
def TileStats.add (a b : TileStats) : TileStats :=
  { flags := 0, opstat := a.opstat + b.opstat, escapes := a.escapes + b.escapes,
    escOverflow := a.escOverflow + b.escOverflow, nonFinite := a.nonFinite || b.nonFinite,
    headroom := a.headroom || b.headroom, saturated := a.saturated + b.saturated,
    transposed := a.transposed + b.transposed }

/-- A tile's result: writes through the Rink cache, writes of whole engine-ready tiles past it (R303), writes to
core-local memory, and the statistics. -/
structure TileOut where
  lines : List Wr
  erts : List Wr
  clm : List Wr
  stats : TileStats
deriving DecidableEq, Repr

def TileOut.empty : TileOut := { lines := [], erts := [], clm := [], stats := TileStats.zero }

def TileOut.add (a b : TileOut) : TileOut :=
  { lines := a.lines ++ b.lines, erts := a.erts ++ b.erts, clm := a.clm ++ b.clm, stats := a.stats.add b.stats }

/-- The writes of linear output elements. -/
def linearWrites (d : Desc) (es : List OutElem) : List Wr :=
  es.flatMap fun o =>
    let a := d.addr o.at'
    let pat := d.fmt.pattern o.v
    match d.fmt with
    | .w4 => if o.at'.i0 % 2 = 0 then [{ addr := a, mask := 0x0F, val := pat }]
             else [{ addr := a, mask := 0xF0, val := 16 * pat }]
    | f => wrBytes a (leBytes (f.bits / 8) pat)

/-- R174: the escapes of an output tile from its out-of-range elements in ascending INDEX (the first 255), and the
codes of all of them. -/
def chooseEscapes (xs : List (Nat × Int)) : List (Nat × Int) × List (Nat × Nat) :=
  let kept := xs.take 255
  (kept, kept.map (fun (i, _) => (i, 255)) ++
    (xs.drop 255).map (fun (i, v) => (i, (clampI 0 254 v).toNat)))

/-- Writes of one whole output ERT (R302, R303): payload, header with its tag, and escape entries. -/
def ertWrites (e : Env) (d : Desc) (nt n : Nat) (es : List (Nat × OutElem)) : List Wr × Nat :=
  let f := d.fmt
  let h := f.ertRows
  let esc := if f = .q8e then
      sortBy Prod.fst ((es.filter fun (_, o) => o.keep || decide (o.v < 0 ∨ 254 < o.v)).map fun (i, o) => (i, o.v))
    else []
  let (kept, codes) := chooseEscapes esc
  let base : Array Nat := Array.replicate (h * 128) (f.pattern d.blank)
  let arr := es.foldl (fun (a : Array Nat) (i, o) => a.setIfInBounds i (f.pattern o.v)) base
  let arr := codes.foldl (fun (a : Array Nat) (i, c) => a.setIfInBounds i c) arr
  let get := fun (r c : Nat) => arr.getD (r * 128 + c) 0
  let payload : List Byte := (List.range 16384).map fun k =>
    if f = .w4 then BitVec.ofNat 8 (get (2 * (k / 128)) (k % 128) + 16 * get (2 * (k / 128) + 1) (k % 128))
    else BitVec.ofNat 8 (get (k % 128) (k / 128))
  let escs : List Byte := (kept.map fun (i, v) =>
    leBytes 4 i ++ leBytes 3 (toU 24 (v - (d.zp : Int))) ++ [0]).flatten
  let head : List Byte := leBytes 1 e.tenant ++ leBytes 1 d.fcode ++ leBytes 1 (toU 8 d.exp) ++ leBytes 1 kept.length ++
    leBytes 4 (if f = .q8e then n * 255 else 0) ++ leBytes 4 n ++ leBytes 2 (if f.isInt then d.zp else 0) ++
    leBytes 2 (if f = .w4 then 1 else 0) ++ List.replicate 32 0
  let a := d.base + n * 16384
  let tag := e.tagOf a (payload ++ head ++ escs)
  (wrBytes a payload ++ wrBytes (d.base + nt * 16384 + n * 64) (head ++ slice tag 0 16) ++
    wrBytes (d.base + d.esc * 256 + n * 2040) escs, if 255 < esc.length then 1 else 0)

/-- The writes of an output's elements, in whichever layout the descriptor has (R302: the rest of a touched
engine-ready tile holds the zero-point code). -/
def outWrites (e : Env) (d : Desc) (es : List OutElem) : TileOut :=
  if d.clm then { TileOut.empty with clm := linearWrites d es }
  else if d.ert then
    let ps := es.map fun o => (d.ertPos o.at', o)
    let nt := ((ps.head?).map fun p => p.1.nt).getD 0
    let parts := (sortDedup (ps.map fun p => p.1.n)).map fun n =>
      ertWrites e d nt n ((ps.filter fun p => p.1.n == n).map fun p => (p.1.r * 128 + p.1.c, p.2))
    { TileOut.empty with
      erts := parts.flatMap Prod.fst,
      stats := { TileStats.zero with escOverflow := parts.foldl (fun n p => n + p.2) 0 } }
  else { TileOut.empty with lines := linearWrites d es }

end Sys2Proof.Machine
end

