-- ==== Sys2Proof/Machine/Program.lean ====
section
/-!
DEFINITION. Programs and macro-instructions (R190, R193, Tables 8.1-8.6), the tile shapes and their numbering
(R204-R208, R495), and the share of a position (R156).
-/

namespace Sys2Proof.Machine

/-- The opcodes of Table 8.4. -/
inductive Opc where
  | matmul | conv | dwconv | tconv | attend | attendBwd | matmulBwd | scan | filter | cropResize | warp
  | elementwise | reduce | gather | scatter | copy | fuseBegin | fuseEnd | barrier | fence | checkpoint
deriving DecidableEq, Repr

/-- The opcode of a code (Table 8.4); none for the reserved codes. -/
def Opc.ofCode : Nat → Option Opc
  | 0x01 => some .matmul | 0x02 => some .conv | 0x03 => some .dwconv | 0x04 => some .tconv
  | 0x05 => some .attend | 0x06 => some .attendBwd | 0x07 => some .matmulBwd | 0x08 => some .scan
  | 0x09 => some .filter | 0x0A => some .cropResize | 0x0B => some .warp | 0x0C => some .elementwise
  | 0x0D => some .reduce | 0x0E => some .gather | 0x0F => some .scatter | 0x10 => some .copy
  | 0x11 => some .fuseBegin | 0x12 => some .fuseEnd | 0x13 => some .barrier | 0x14 => some .fence
  | 0x15 => some .checkpoint
  | _ => none

/-- Opcodes of class CONTROL. -/
def Opc.control : Opc → Bool
  | .fuseBegin | .fuseEnd | .barrier | .fence | .checkpoint => true
  | _ => false

/-- Opcodes that the Base engine executes (R164; CONV only without WINO). -/
def Opc.onBase : Opc → Bool
  | .matmul | .conv | .dwconv | .filter | .scan | .elementwise | .reduce | .copy | .fuseBegin | .fuseEnd
  | .barrier => true
  | _ => false

/-- Opcodes that take a fabric image (R194). -/
def Opc.usesFabric : Opc → Bool
  | .gather | .scatter | .copy => false
  | o => !o.control

/-- Opcodes whose output is rescaled (R193). -/
def Opc.rescaled : Opc → Bool
  | .elementwise => false
  | o => o.usesFabric

/-- Opcodes whose sums come from the array under Table 7.3. -/
def Opc.array : Opc → Bool
  | .matmul | .conv | .dwconv | .tconv | .matmulBwd => true
  | _ => false

/-- Opcodes with an accumulator of their own, whose ACC48 outputs the drain writes (R494). DEDUCED: REDUCE has one. -/
def Opc.hasAcc : Opc → Bool
  | .elementwise => false
  | o => o.usesFabric

/-- A macro-instruction (Table 8.2) and its raw 64 bytes, from which PARAM fields are read. -/
structure Macro where
  op : Nat
  flags : Nat
  mode : Nat
  accExp : Int
  out : Nat
  a : Nat
  b : Nat
  c : Nat
  fabric : Nat
  rescale : Nat
  aux : Nat
  raw : List Byte
deriving DecidableEq, Repr

/-- The instruction in 64 bytes (Table 8.2). -/
def Macro.ofBytes (b : List Byte) : Macro :=
  { op := field b 0 1, flags := field b 1 1, mode := field b 2 1, accExp := sx 8 (field b 3 1), out := field b 4 2,
    a := field b 6 2, b := field b 8 2, c := field b 0x0A 2, fabric := field b 0x0C 2, rescale := field b 0x10 4,
    aux := field b 0x14 4, raw := b }

def Macro.opc (m : Macro) : Option Opc := Opc.ofCode m.op
def Macro.is (m : Macro) (o : Opc) : Bool := m.opc == some o
/-- A PARAM field (Table 8.5), by its offset in the instruction. -/
def Macro.p (m : Macro) (off n : Nat) : Nat := field m.raw off n
/-- FLAGS and MODE fields (Table 8.3). -/
def Macro.wino (m : Macro) : Bool := m.flags.testBit 0
def Macro.accIn (m : Macro) : Bool := m.flags.testBit 1
def Macro.splitK (m : Macro) : Bool := m.flags.testBit 2
def Macro.emit (m : Macro) : Bool := m.flags.testBit 3
def Macro.split (m : Macro) : Nat := m.mode % 8
def Macro.mwidth (m : Macro) : Nat := bits m.mode 4 3
/-- The convolution fields of Table 8.5. -/
def Macro.kh (m : Macro) : Nat := m.p 0x18 1
def Macro.kw (m : Macro) : Nat := m.p 0x19 1
def Macro.sh (m : Macro) : Nat := m.p 0x1A 1
def Macro.sw (m : Macro) : Nat := m.p 0x1B 1
def Macro.dh (m : Macro) : Nat := m.p 0x1C 1
def Macro.dw (m : Macro) : Nat := m.p 0x1D 1
def Macro.pt (m : Macro) : Nat := m.p 0x1E 1
def Macro.pl (m : Macro) : Nat := m.p 0x1F 1
def Macro.pb (m : Macro) : Nat := m.p 0x20 1
def Macro.pr (m : Macro) : Nat := m.p 0x21 1
def Macro.groups (m : Macro) : Nat := m.p 0x22 2

/-- Where a program runs (R191): the cores, the Base engine, or the Mid core. -/
inductive Target where
  | core
  | base
  | mid
deriving DecidableEq, Repr

/-- A program: its target, where its image lies, and the fields of Table 8.1. -/
structure Prog where
  target : Target
  image : Nat
  size : Nat
  instrCount : Nat
  descCount : Nat
  instrOff : Nat
  descOff : Nat
  budget : Nat
  scratchBase : Nat
  scratchSize : Nat
deriving DecidableEq, Repr

/-- The first byte past the program-placed region of a core (Table 6.3). -/
def clmEnd : Nat := 0x1FF000

/-- R191: the header of the image in `read` (a byte of the image by offset), or none if a check fails. `alloc` says
whether a range lies in the tenant's allocation. -/
def Prog.check (target : Target) (image size : Nat) (read : Nat → Byte) (alloc : Nat → Nat → Bool) : Option Prog :=
  let h := (List.range 64).map read
  let f := fun o n => field h o n
  let ic := f 8 4
  let dc := f 0x0C 2
  let io := f 0x10 4
  let dof := f 0x14 4
  let bud := f 0x18 4
  let sb := f 0x20 8
  let ss := f 0x28 4
  let base := target == .base
  let ok := decide (64 ≤ size) && f 0 4 == 0x5A565047 && f 4 2 == 1 && f 6 2 == (if base then 1 else 0) &&
    f 0x0E 2 == 0 && f 0x1C 4 == 0 && f 0x2C 20 == 0 && decide (1 ≤ ic ∧ ic ≤ 65536) && decide (1 ≤ dc) &&
    io % 64 == 0 && decide (64 ≤ io ∧ io + 64 * ic ≤ size) &&
    dof % 32 == 0 && decide (64 ≤ dof ∧ dof + 32 * dc ≤ size) && !overlaps io (64 * ic) dof (32 * dc) &&
    bud % 4096 == 0 && (if base then decide (65536 ≤ bud ∧ bud ≤ 983040) else decide (262144 ≤ bud ∧ bud ≤ 2093056)) &&
    sb % 4096 == 0 && ss % 4096 == 0 && (if base then sb == 0 && ss == 0 else ss == 0 || alloc sb ss)
  if ok then
    some { target, image, size, instrCount := ic, descCount := dc, instrOff := io, descOff := dof, budget := bud,
           scratchBase := sb, scratchSize := ss }
  else none

/-- A program with the bytes it reads: its image, its memories, its table region, and what lies in its allocation. -/
structure Ctx where
  prog : Prog
  env : Env
  /-- A byte of the image by offset. -/
  read : Nat → Byte
  alloc : Nat → Nat → Bool
  dramOk : Nat → Nat → Bool
  /-- A byte of the table region by offset, whether a range lies in it, and whether there is one (R186). -/
  table : Nat → Byte
  tableOk : Nat → Nat → Bool
  tableNone : Bool
  /-- Engine-ready tiles carry tags (not in Base engine memory, R131). -/
  tagged : Bool

def Ctx.instr (x : Ctx) (i : Nat) : Macro :=
  Macro.ofBytes ((List.range 64).map fun k => x.read (x.prog.instrOff + 64 * i + k))

/-- Descriptor `i`; past DESC_COUNT the bytes that follow (R198 rejects such an index first). -/
def Ctx.desc (x : Ctx) (i : Nat) : Desc :=
  Desc.ofBytes ((List.range 32).map fun k => x.read (x.prog.descOff + 32 * i + k))

/-- `n` bytes of the table region. -/
def Ctx.tableBytes (x : Ctx) (off n : Nat) : List Byte := (List.range n).map fun k => x.table (off + k)

/-- Whether a format code is not reserved and a predicate holds of its format. -/
def Desc.fits (d : Desc) (p : Fmt → Bool) : Bool :=
  match Fmt.ofCode d.fcode with
  | none => true
  | some f => p f

/-- Length of k for a convolution's weights (Table 9.1). -/
def Macro.kLen (m : Macro) (w : Desc) : Nat :=
  if m.is .dwconv then m.kh * m.kw else if m.wino then w.d1 else m.kh * m.kw * w.d1

/-- Whether a descriptor index is the convolution weights of the instruction. -/
def Macro.convWeight (m : Macro) : Bool := m.is .conv || m.is .dwconv || m.is .tconv

/-- Number of engine-ready tiles (R302, Table 9.1). -/
def Desc.nt (d : Desc) : Nat := d.d2 * d.d3 * d.d4 * ceilDiv d.d1 d.fmt.ertRows * ceilDiv d.d0 128
def Macro.weightNt (m : Macro) (w : Desc) : Nat :=
  (if m.wino then 16 else 1) * ceilDiv (m.kLen w) w.fmt.ertRows * ceilDiv w.d0 128

/-- Bytes a tensor spans from BASE, without its escape region. -/
def Desc.span (d : Desc) (nt : Nat) : Nat :=
  if d.ert then nt * 16448
  else d.rowBytes + (d.d1 - 1) * d.s1 + (d.d2 - 1) * d.s2 + (d.d3 - 1) * d.s3 + (d.d4 - 1) * d.s4

/-! ### Tiles -/

/-- The tile classes of Table 8.8. -/
inductive TileClass where
  | matrix | spatial | head | chunk | box | row | stream | control
deriving DecidableEq, Repr

/-- The extents of a SPATIAL region per layer (R205, R214): y then x. -/
structure Ext where
  y : Nat
  x : Nat
deriving DecidableEq, Repr

/-- An instruction's tiling: its class, the number of tiles, the mixed radix of its index (fastest last: four
coordinates), and the chunk or tile sizes. -/
structure Plan where
  cls : TileClass
  /-- Radices of the index, slowest first. -/
  dims : List Nat
  /-- SPATIAL: H_t and W_t. MATRIX: S and K_c. BOX: H_b. STREAM and ROW: elements or rows per tile. -/
  p0 : Nat
  p1 : Nat
deriving DecidableEq, Repr

/-- The number of tiles. -/
def Plan.total (p : Plan) : Nat := if p.dims = [] then 0 else p.dims.foldl (· * ·) 1

/-- Coordinate `k` of tile `t`. -/
def Plan.coord (p : Plan) (k t : Nat) : Nat :=
  t / (p.dims.drop (k + 1)).foldl (· * ·) 1 % nth p.dims k 1

/-- Ceiling of the working-set candidates of R205. -/
def spatialCandidates : List Ext :=
  [⟨64, 128⟩, ⟨64, 64⟩, ⟨32, 64⟩, ⟨32, 32⟩, ⟨16, 32⟩, ⟨16, 16⟩, ⟨8, 16⟩]

/-- Bytes of an element in a working set. -/
def Fmt.size (f : Fmt) : Nat := max 1 (f.bits / 8)

/-- Kernel extent, dilation, stride and leading padding of a layer along y and x (R214); 1, 1, 1, 0 for
ELEMENTWISE. -/
def Macro.axisY (m : Macro) : Nat × Nat × Nat × Nat :=
  if m.convWeight then (m.kh, m.dh, m.sh, m.pt) else (1, 1, 1, 0)
def Macro.axisX (m : Macro) : Nat × Nat × Nat × Nat :=
  if m.convWeight then (m.kw, m.dw, m.sw, m.pl) else (1, 1, 1, 0)

/-- The extent a layer's input needs along one axis (R214); for TCONV the bound of R229. -/
def inExtent (tconv : Bool) (a : Nat × Nat × Nat × Nat) (e : Nat) : Nat :=
  let (k, d, s, _) := a
  if tconv then (e - 1 + (k - 1) * d) / s + 1 else (e - 1) * s + (k - 1) * d + 1

/-- The region extents E_0 .. E_L of a group's layers for a tile extent, E_0 first (R214). -/
def groupExtents (layers : List Macro) (e : Ext) : List Ext :=
  layers.foldr (fun m acc =>
    match acc with
    | [] => []
    | e :: rest => ⟨inExtent (m.is .tconv) m.axisY e.y, inExtent (m.is .tconv) m.axisX e.x⟩ :: e :: rest) [e]

/-- Bytes of the rescale and group-offset tables a layer stages (R205, R_t). -/
def Ctx.tableSize (x : Ctx) (m : Macro) : Nat :=
  let y := x.desc m.out
  let w := x.desc m.b
  (if m.rescale ≠ 0xFFFFFFFF ∧ y.fmt ≠ .acc48 then 16 * y.d0 else 0) +
  (if m.convWeight ∧ w.fmt = .w4 then ceilDiv (m.kLen w) 128 * w.d0 else 0)

/-- The input channels a single SPATIAL layer's tile reads (R205, B_0). -/
def Ctx.inChannels (x : Ctx) (m : Macro) : Nat :=
  let cin := (x.desc m.a).d0
  let cout := (x.desc m.out).d0
  if m.is .warp then 2
  else if m.is .conv || m.is .tconv then
    if m.groups ≤ 1 then cin
    else
      let gw := cout / m.groups
      let cg := cin / m.groups
      min cin (if gw ≠ 0 ∧ 128 % gw = 0 then 128 / gw * cg else cg)
  else min 128 cin

/-- Whether a layer at or after `l` (from 1) of the group reads the output of layer `j` (0: the group input) as its
SRC_B (R205, R213). -/
def readsLater (layers : List Macro) (j l : Nat) : Bool :=
  let src := if j = 0 then (layers.head?.map Macro.a).getD 0xFFFF else (layers[j - 1]?.map Macro.out).getD 0xFFFF
  (layers.drop (l - 1)).any fun m => m.is .elementwise && m.b == src

/-- The working set of R205 for a candidate; `fused` says whether the layers are a group. -/
def Ctx.workingSet (x : Ctx) (layers : List Macro) (fused : Bool) (e : Ext) : Nat :=
  let exts := groupExtents layers e
  let m1 := layers.head?.getD (x.instr 0)
  let inDesc := if m1.is .warp then x.desc m1.b else x.desc m1.a
  let b := fun j =>
    let ex := nth exts j ⟨0, 0⟩
    if j = 0 then ex.y * ex.x * (if fused && m1.is .conv then inDesc.d0 else x.inChannels m1) * inDesc.fmt.size
    else
      let y := x.desc ((layers[j - 1]?.map Macro.out).getD 0)
      ex.y * ex.x * (if fused then y.d0 else 128) * y.fmt.size
  let rt := layers.foldl (fun n m => n + x.tableSize m) 0
  let peak := (List.range layers.length).foldl (fun n i =>
    let l := i + 1
    let held := (List.range (l - 1)).foldl (fun s j => if readsLater layers j l then s + b j else s) 0
    max n (b (l - 1) + b l + held)) 0
  peak + 131072 + rt

/-- H_t and W_t (R205, R495); none: cause 11. -/
def Ctx.spatialTile (x : Ctx) (layers : List Macro) (fused : Bool) : Option Ext :=
  let ert := layers.any fun m => (x.desc m.out).ert && (m.emit || !fused || layers.getLast? == some m)
  (spatialCandidates.filter fun e => !ert || e.x == 128).find? fun e =>
    decide (x.workingSet layers fused e ≤ x.prog.budget)

/-- The chunks of a split-K reduction (R206): S and K_c. -/
def splitKChunks (on : Bool) (k : Nat) : Nat × Nat :=
  if on then
    let s0 := min 8 (ceilDiv k 512)
    let kc := 128 * ceilDiv k (128 * s0)
    (ceilDiv k kc, kc)
  else (1, k)

/-- The reduction extent of a MATRIX instruction. -/
def Ctx.redLen (x : Ctx) (m : Macro) : Nat :=
  let a := x.desc m.a
  if m.is .matmulBwd ∧ m.p 0x18 1 = 1 then a.d1 * (a.d2 * a.d3 * a.d4) else a.d0

/-- An entry of the length table (Table 10.2). -/
structure LenEntry where
  seqId : Nat
  length : Nat
  new : Nat
  ptOff : Nat
deriving DecidableEq, Repr

def LenEntry.ofNat (w : Nat) : LenEntry :=
  { seqId := bits w 15 0, length := bits w 32 16, new := bits w 45 33, ptOff := bits w 63 46 }

/-- The length table that AUX names (R248). -/
def Ctx.lengths (x : Ctx) (m : Macro) : List LenEntry :=
  (List.range (leNat (x.tableBytes m.aux 2))).map fun s => LenEntry.ofNat (leNat (x.tableBytes (m.aux + 8 + 8 * s) 8))

/-- Heads of an attention instruction (Table 8.5). -/
def Macro.qHeads (m : Macro) : Nat := m.p 0x18 1
def Macro.kvHeads (m : Macro) : Nat := m.p 0x19 1
def Macro.headDim (m : Macro) : Nat := m.p 0x1A 2

/-- Row blocks of an entry (R260). -/
def Macro.rowBlocks (m : Macro) (e : LenEntry) : Nat := ceilDiv (m.qHeads / m.kvHeads * e.new) 128

/-- FILTER's order N (Table 11.3). -/
def Macro.order (m : Macro) : Nat := if m.p 0x19 1 = 0 then 2 * m.p 0x1A 1 else 1

/-- Directions of SCAN or FILTER (R272). -/
def Macro.dirs (m : Macro) : Nat := if m.p 0x18 1 = 2 then 2 else 1

/-- The plan of an instruction outside a group (Table 8.8, R495); none where no spatial candidate fits. For HEAD the
tiles are counted per entry, so `dims` holds one radix. -/
def Ctx.plan (x : Ctx) (m : Macro) : Option Plan :=
  let y := x.desc m.out
  let a := x.desc m.a
  match m.opc with
  | some .matmul =>
    let (s, kc) := splitKChunks m.splitK (x.redLen m)
    some { cls := .matrix, dims := [a.d2 * a.d3 * a.d4, ceilDiv y.d0 128, ceilDiv y.d1 128, s], p0 := s, p1 := kc }
  | some .matmulBwd =>
    let (s, kc) := splitKChunks m.splitK (x.redLen m)
    let b := if m.p 0x18 1 = 1 then 1 else a.d2 * a.d3 * a.d4
    some { cls := .matrix, dims := [b, ceilDiv y.d0 128, ceilDiv y.d1 128, s], p0 := s, p1 := kc }
  | some .conv | some .dwconv | some .tconv | some .warp =>
    (x.spatialTile [m] false).map fun e =>
      { cls := .spatial, dims := [y.d3, ceilDiv y.d0 128, ceilDiv y.d2 e.y, ceilDiv y.d1 e.x], p0 := e.y, p1 := e.x }
  | some .elementwise =>
    if 3 ≤ y.rank then
      (x.spatialTile [m] false).map fun e =>
        { cls := .spatial, dims := [y.d3, ceilDiv y.d0 128, ceilDiv y.d2 e.y, ceilDiv y.d1 e.x], p0 := e.y, p1 := e.x }
    else if y.ert then some { cls := .stream, dims := [y.nt], p0 := 16384, p1 := 1 }
    else some { cls := .stream, dims := [ceilDiv y.count 16384], p0 := 16384, p1 := 0 }
  | some .reduce =>
    if y.ert then some { cls := .stream, dims := [y.nt], p0 := 128, p1 := 1 }
    else some { cls := .stream, dims := [ceilDiv y.count 128], p0 := 128, p1 := 0 }
  | some .copy =>
    if y.ert then some { cls := .stream, dims := [y.nt], p0 := 16384, p1 := 1 }
    else some { cls := .stream, dims := [ceilDiv y.count 16384], p0 := 16384, p1 := 0 }
  | some .gather | some .scatter => some { cls := .row, dims := [ceilDiv y.d1 128], p0 := 128, p1 := 0 }
  | some .scan | some .filter =>
    some { cls := .chunk, dims := [a.d2, ceilDiv a.d0 128, m.dirs, ceilDiv a.d1 128], p0 := 128, p1 := 128 }
  | some .cropResize =>
    let hb := max 1 (16384 / y.d1)
    some { cls := .box, dims := [y.d3, ceilDiv y.d0 128, ceilDiv y.d2 hb], p0 := hb, p1 := 0 }
  | some .attend =>
    let n := (x.lengths m).foldl (fun n e => n + m.kvHeads * m.rowBlocks e) 0
    some { cls := .head, dims := [n], p0 := 0, p1 := 0 }
  | some .attendBwd =>
    let n := (x.lengths m).foldl (fun n e => n + m.kvHeads * (m.rowBlocks e + ceilDiv e.length 128)) 0
    some { cls := .head, dims := [n], p0 := 0, p1 := 0 }
  | _ => some { cls := .control, dims := [], p0 := 0, p1 := 0 }

/-- The plan of a fused group (R213, R214). -/
def Ctx.groupPlan (x : Ctx) (layers : List Macro) : Option Plan :=
  match layers.getLast? with
  | none => none
  | some m =>
    let y := x.desc m.out
    (x.spatialTile layers true).map fun e =>
      { cls := .spatial, dims := [y.d3, 1, ceilDiv y.d2 e.y, ceilDiv y.d1 e.x], p0 := e.y, p1 := e.x }

/-- The HEAD tile's entry and the tile's number within the entry's tiles: (entry, KV head, block). -/
def headCoord (m : Macro) (blocks : LenEntry → Nat) (es : List LenEntry) (t : Nat) : Nat × Nat × Nat :=
  let r := es.foldl (fun (s : Nat × Nat × Option (Nat × Nat × Nat)) e =>
    let n := m.kvHeads * blocks e
    match s.2.2 with
    | some _ => (s.1, s.2.1 + 1, s.2.2)
    | none => if t < s.1 + n then (s.1, s.2.1 + 1, some (s.2.1, (t - s.1) / blocks e, (t - s.1) % blocks e))
              else (s.1 + n, s.2.1 + 1, none)) (0, 0, none)
  r.2.2.getD (0, 0, 0)

/-- The number of phase 1 tiles of ATTEND_BWD, and of all tiles of ATTEND (R260, R270). -/
def Ctx.phase1 (x : Ctx) (m : Macro) : Nat :=
  (x.lengths m).foldl (fun n e => n + m.kvHeads * m.rowBlocks e) 0

/-- The splits a class allows (Table 8.8). -/
def TileClass.splits : TileClass → List Nat
  | .matrix => [0, 1, 2, 3]
  | .spatial => [0, 2, 3, 4]
  | .head => [0, 3]
  | .chunk => [0, 2, 3]
  | .box => [0, 3]
  | .row | .stream => [0, 1]
  | .control => [0]

/-- The split coordinate of tile `t`, and its number of units (R156, R208). -/
def Ctx.splitCoord (x : Ctx) (m : Macro) (p : Plan) (split t : Nat) : Nat :=
  match p.cls, split with
  | .matrix, 1 => p.coord 2 t
  | .matrix, 2 => p.coord 1 t
  | .spatial, 2 => p.coord 1 t
  | .spatial, 4 => p.coord 2 t
  | .chunk, 2 => p.coord 1 t
  | .head, 3 =>
    let n1 := x.phase1 m
    if m.is .attendBwd ∧ n1 ≤ t then (headCoord m (fun e => ceilDiv e.length 128) (x.lengths m) (t - n1)).1
    else (headCoord m m.rowBlocks (x.lengths m) t).1
  | .row, 1 | .stream, 1 => t
  | _, 3 => p.coord 0 t
  | _, _ => 0

def Ctx.splitUnits (x : Ctx) (m : Macro) (p : Plan) (split : Nat) : Nat :=
  match p.cls, split with
  | .matrix, 1 => nth p.dims 2 0
  | .matrix, 2 => nth p.dims 1 0
  | .spatial, 2 => nth p.dims 1 0
  | .spatial, 4 => nth p.dims 2 0
  | .chunk, 2 => nth p.dims 1 0
  | .head, 3 => (x.lengths m).length
  | .row, 1 | .stream, 1 => nth p.dims 0 0
  | _, 3 => nth p.dims 0 0
  | _, _ => 1

/-- R156, R208: the tiles of position `i` of a Rink set of `k` members, in ascending index. -/
def Ctx.share (x : Ctx) (m : Macro) (p : Plan) (split k i : Nat) : List Nat :=
  if split = 0 then (if i = 0 then List.range p.total else [])
  else
    let u := x.splitUnits m p split
    (List.range p.total).filter fun t =>
      let c := x.splitCoord m p split t
      decide (u * i / k ≤ c ∧ c < u * (i + 1) / k)

end Sys2Proof.Machine
end

