-- ==== Sys2Proof/Machine/Checks.lean ====
section
/-!
DEFINITION. The checks of a macro-instruction before its first tile: Table 8.7 in its order (R193, R195-R198, R213,
R224-R230, R239-R243, R247-R252, R262, R267, R270, R272-R274, R286, R287, R300, R302), then R188.
-/

namespace Sys2Proof.Machine

/-- How an instruction sits in its program: alone, or as layer `l` (from 0) of the group `layers`. -/
structure LayerOf where
  layers : List Macro
  l : Nat
deriving DecidableEq, Repr

/-- Whether an operand field must be present, may be, or must be absent (Table 8.4). -/
inductive Need where
  | req | opt | none
deriving DecidableEq, Repr

/-- OUT, SRC_A, SRC_B, SRC_C of an opcode (Table 8.4). -/
def Macro.needs (m : Macro) : List (Nat × Need) :=
  let acc := if m.accIn then Need.req else Need.none
  let n : Need × Need × Need × Need :=
    match m.opc with
    | some .matmul | some .conv => (.req, .req, .req, acc)
    | some .dwconv | some .tconv | some .matmulBwd | some .cropResize | some .warp | some .gather | some .scatter =>
      (.req, .req, .req, .none)
    | some .attend | some .attendBwd => (.req, .req, .req, .req)
    | some .scan | some .filter => (.req, .req, .req, .opt)
    | some .elementwise => (.req, .req, .opt, .none)
    | some .reduce | some .copy => (.req, .req, .none, .none)
    | _ => (.none, .none, .none, .none)
  [(m.out, n.1), (m.a, n.2.1), (m.b, n.2.2.1), (m.c, n.2.2.2)]

/-- The descriptor indices in PARAM, and whether each must be present. -/
def Macro.paramNeeds (m : Macro) : List (Nat × Need) :=
  match m.opc with
  | some .attend =>
    [(m.p 0x24 2, if m.p 0x1D 1 % 2 = 1 then .req else .opt),
     (m.p 0x26 2, if m.p 0x1C 1 = 3 then .req else .opt)]
  | some .attendBwd =>
    [(m.p 0x24 2, .req), (m.p 0x26 2, if m.p 0x1C 1 = 3 then .req else .opt), (m.p 0x28 2, .req), (m.p 0x2A 2, .req),
     (m.p 0x2C 2, .req), (m.p 0x2E 2, .req)]
  | some .scan | some .filter => [(m.p 0x1C 2, .opt)]
  | _ => []

/-- The descriptors an instruction names, present ones only. -/
def Macro.named (m : Macro) : List Nat :=
  ((m.needs ++ m.paramNeeds).map Prod.fst).filter (· != 0xFFFF)

/-- The PARAM bytes an opcode uses (Table 8.5), as (offset, size). -/
def Macro.paramUsed (m : Macro) : List (Nat × Nat) :=
  match m.opc with
  | some .matmulBwd | some .scatter | some .fuseBegin => [(0x18, 1)]
  | some .conv | some .dwconv | some .tconv => [(0x18, 12)]
  | some .attend => [(0x18, 16)]
  | some .attendBwd => [(0x18, 24)]
  | some .scan | some .filter => [(0x18, 3), (0x1C, 2)]
  | some .cropResize | some .warp => [(0x18, 4)]
  | some .reduce | some .copy => [(0x18, 2)]
  | some .checkpoint => [(0x18, 5)]
  | _ => []

/-- FLAGS bits an opcode uses (Table 8.3). SCAN and FILTER turn WINO, ACC_IN, SPLIT_K and EMIT away with cause 9
(R272), so those bits are not reserved there. -/
def Macro.flagsUsed (m : Macro) : Nat :=
  match m.opc with
  | some .matmul => 0b0110
  | some .conv => 0b1011
  | some .matmulBwd => 0b0100
  | some .dwconv | some .elementwise => 0b1000
  | some .scan | some .filter => 0b1111
  | _ => 0

/-- Cause 2. -/
def Ctx.reservedSet (x : Ctx) (m : Macro) : Bool :=
  let opc := m.opc.getD .barrier
  let scanF := m.is .scan || m.is .filter
  decide (Nat.land m.flags (255 - m.flagsUsed) ≠ 0) || decide (32 ≤ m.mode) || m.mwidth == 3 || m.p 0x0E 2 != 0 ||
  (m.accExp != 0 && !opc.array && !scanF) ||
  (!opc.usesFabric && m.fabric != 0xFFFF) ||
  (!(opc.rescaled || opc == .elementwise) && m.rescale != 0xFFFFFFFF) ||
  (!(opc == .attend || opc == .attendBwd || scanF) && m.aux != 0xFFFFFFFF) ||
  ((List.range 40).any fun k => m.p (0x18 + k) 1 != 0 && !(m.paramUsed.any fun (o, n) => decide (o ≤ 0x18 + k ∧ 0x18 + k < o + n))) ||
  ((opc == .attend || opc == .attendBwd) && decide (2 ≤ m.p 0x1D 1)) ||
  (opc == .checkpoint && decide (2 ≤ m.p 0x1C 1)) ||
  m.named.any fun i => decide (i < x.prog.descCount) && (x.desc i).reserved

/-- Cause 3. -/
def Ctx.operandBad (x : Ctx) (m : Macro) : Bool :=
  ((m.needs ++ m.paramNeeds).any fun (i, n) =>
    (n == .req && i == 0xFFFF) || (n == .none && i != 0xFFFF) ||
    (n != .none && i != 0xFFFF && decide (x.prog.descCount ≤ i))) ||
  ((m.opc.getD .barrier).rescaled && m.rescale == 0xFFFFFFFF &&
    (m.is .attend || m.is .attendBwd || !((x.desc m.out).fcode == 8)))

/-- R196, R197: rank, extents and strides of one descriptor. -/
def Desc.shapeOk (d : Desc) : Bool :=
  decide (1 ≤ d.rank ∧ d.rank ≤ 5) && d.dims.all (fun n => decide (1 ≤ n)) && (d.dims.drop d.rank).all (· == 1) &&
  (d.ert ||
    ((d.stride1 == 0 || (decide (d.rowBytes ≤ d.stride1) && d.stride1 % d.fmt.size == 0)) &&
     (d.stride2 == 0 || (decide (d.d1 * d.s1 ≤ d.stride2) && d.stride2 % 64 == 0)) &&
     !(d.fmt == .w4 && d.d0 % 2 == 1)))

/-- R207: a convolution's output extent along one axis. -/
def convExtent (i k d s lead trail : Nat) : Option Nat :=
  if s = 0 ∨ k = 0 ∨ i + lead + trail < (k - 1) * d + 1 then none
  else some ((i + lead + trail - (k - 1) * d - 1) / s + 1)

/-- R228: a transposed convolution's output extent along one axis. -/
def tconvExtent (i k d s lead trail : Nat) : Option Nat :=
  if (i - 1) * s + (k - 1) * d + 1 ≤ lead + trail then none else some ((i - 1) * s + (k - 1) * d + 1 - lead - trail)

/-- The page's token count T_P (R251). -/
def tokensPerPage (headDim : Nat) : Nat := 512 / ceilDiv headDim 128

/-- The page-table range of an entry (R249): first index and length. -/
def Macro.ptRange (m : Macro) (e : LenEntry) : Nat × Nat :=
  (4 * e.ptOff, 2 * m.kvHeads * ceilDiv e.length (tokensPerPage m.headDim))

/-- Pairs of a list, each entry with those after it. -/
def pairsOf {α : Type} : List α → List (α × α)
  | [] => []
  | x :: xs => xs.map (fun y => (x, y)) ++ pairsOf xs

/-- R249: the length table of an attention instruction. -/
def Ctx.lengthsOk (x : Ctx) (m : Macro) : Bool :=
  let es := x.lengths m
  let bwd := m.is .attendBwd
  let ptEntries := leNat (x.tableBytes (m.p 0x20 4 + 0x14) 4)
  decide (1 ≤ es.length ∧ es.length ≤ 4096) &&
  (x.tableBytes (m.aux + 2) 6).all (· == 0) &&
  es.all (fun e => decide (e.length ≤ 131071 ∧ e.new ≤ 4096 ∧ e.new ≤ e.length) && (!bwd || e.new == e.length)) &&
  es.foldl (fun n e => n + e.new) 0 == (x.desc m.a).d2 &&
  (bwd || ((pairsOf es).all (fun (a, b) =>
      let ra := m.ptRange a
      let rb := m.ptRange b
      ra.2 == 0 || rb.2 == 0 || !overlaps ra.1 ra.2 rb.1 rb.2) &&
    es.all fun e => decide ((m.ptRange e).1 + (m.ptRange e).2 ≤ ptEntries)))

/-- Cause 4: the shapes an opcode asks for. -/
def Ctx.shapeBad (x : Ctx) (m : Macro) : Bool :=
  let y := x.desc m.out
  let a := x.desc m.a
  let b := x.desc m.b
  let c := x.desc m.c
  let spatial := fun (d : Desc) => d.d4 == 1
  let accOk := !m.accIn || c.dims == y.dims
  let stats := x.desc (m.p 0x24 2)
  let opOk : Bool :=
    match m.opc with
    | some .matmul =>
      b.d1 == a.d0 && (b.dims.drop 2 == [1, 1, 1] || b.dims.drop 2 == a.dims.drop 2) && y.d0 == b.d0 &&
      y.d1 == a.d1 && y.dims.drop 2 == a.dims.drop 2 && accOk
    | some .matmulBwd =>
      if m.p 0x18 1 = 1 then
        b.dims.drop 1 == a.dims.drop 1 && y.d0 == a.d0 && y.d1 == b.d0 && y.dims.drop 2 == [1, 1, 1]
      else
        b.d0 == a.d0 && (b.dims.drop 2 == [1, 1, 1] || b.dims.drop 2 == a.dims.drop 2) && y.d0 == b.d1 &&
        y.d1 == a.d1 && y.dims.drop 2 == a.dims.drop 2
    | some .conv =>
      let g := m.groups
      let gw := y.d0 / g
      spatial a && spatial y && y.d3 == a.d3 && accOk && b.rank == 4 &&
      decide (1 ≤ g ∧ a.d0 % g = 0 ∧ y.d0 % g = 0) && (g == 1 || 128 % gw == 0 || gw % 128 == 0) &&
      b.dims == (if m.wino then [y.d0, a.d0, 4, 4, 1] else [y.d0, a.d0 / g, m.kw, m.kh, 1]) &&
      convExtent a.d1 m.kw m.dw m.sw m.pl m.pr == some y.d1 && convExtent a.d2 m.kh m.dh m.sh m.pt m.pb == some y.d2
    | some .dwconv =>
      spatial a && spatial y && y.d3 == a.d3 && y.d0 == a.d0 && b.rank == 4 && b.dims == [a.d0, 1, m.kw, m.kh, 1] &&
      convExtent a.d1 m.kw m.dw m.sw m.pl m.pr == some y.d1 && convExtent a.d2 m.kh m.dh m.sh m.pt m.pb == some y.d2
    | some .tconv =>
      let g := m.groups
      let gw := y.d0 / g
      spatial a && spatial y && y.d3 == a.d3 && b.rank == 4 &&
      decide (1 ≤ g ∧ a.d0 % g = 0 ∧ y.d0 % g = 0) && (g == 1 || 128 % gw == 0 || gw % 128 == 0) &&
      b.dims == [y.d0, a.d0 / g, m.kw, m.kh, 1] &&
      tconvExtent a.d1 m.kw m.dw m.sw m.pl m.pr == some y.d1 && tconvExtent a.d2 m.kh m.dh m.sh m.pt m.pb == some y.d2
    | some .elementwise =>
      a.dims == y.dims && (y.rank < 3 || y.d4 == 1) &&
      (m.b == 0xFFFF || (List.zip b.dims y.dims).all fun (p, q) => p == 1 || p == q)
    | some .reduce =>
      y.dims == a.dims.set (m.p 0x18 1) 1 || decide (a.rank ≤ m.p 0x18 1)
    | some .gather =>
      a.dims.drop 2 == [1, 1, 1] && y.dims.drop 2 == [1, 1, 1] && y.d0 == a.d0 && y.d1 == b.count &&
      !(y.ert && y.fmt == .w4)
    | some .scatter =>
      a.dims.drop 2 == [1, 1, 1] && y.dims.drop 2 == [1, 1, 1] && y.d0 == a.d0 && a.d1 == b.count &&
      !y.ert
    | some .copy =>
      let r := m.p 0x19 1
      match m.p 0x18 1 with
      | 0 => y.dims == a.dims
      | 1 => a.d4 == 1 && decide (2 ≤ r) && a.d0 % (r * r) == 0 && y.dims == [a.d0 / (r * r), r * a.d1, r * a.d2, a.d3, 1]
      | 2 => a.d4 == 1 && decide (2 ≤ r) && a.d1 % r == 0 && a.d2 % r == 0 &&
             y.dims == [a.d0 * (r * r), a.d1 / r, a.d2 / r, a.d3, 1]
      | _ => true
    | some .cropResize =>
      spatial a && spatial y && b.rank == 2 && b.dims == [32, y.d3, 1, 1, 1] && !b.ert && b.fcode == 1 && b.exp == 0 &&
      b.zp == 0 && y.d0 == a.d0 && decide (y.d1 ≤ 16384)
    | some .warp =>
      spatial a && spatial y && spatial b && y.d0 == a.d0 && y.d1 == a.d1 && y.d2 == a.d2 && y.d3 == a.d3 &&
      b.d0 == 2 && b.d1 == y.d1 && b.d2 == y.d2 && (b.d3 == y.d3 || b.d3 == 1)
    | some .attend | some .attendBwd =>
      let qh := m.qHeads
      let kh := m.kvHeads
      let hd := m.headDim
      let r := a.d2
      let q := [hd, qh, r, 1, 1]
      let kv := [hd, kh, r, 1, 1]
      let bwd := m.is .attendBwd
      let mask := x.desc (m.p 0x26 2)
      decide (1 ≤ kh ∧ kh ≤ qh) && qh % kh == 0 && a.rank == 3 && b.rank == 3 && c.rank == 3 && y.rank == 3 &&
      a.dims == q && b.dims == kv && c.dims == kv && y.dims == q && !a.ert && !b.ert && !c.ert && !y.ert &&
      (!(bwd || m.p 0x1D 1 % 2 == 1) || (stats.rank == 2 && stats.dims == [8, r * qh, 1, 1, 1] && !stats.ert)) &&
      (m.p 0x1C 1 != 3 || (mask.rank == 2 && mask.d1 == r && !mask.ert &&
        (x.lengths m).all fun e => decide (e.length ≤ mask.d0))) &&
      (!bwd || ((x.desc (m.p 0x28 2)).dims == kv && (x.desc (m.p 0x2A 2)).dims == kv &&
        (x.desc (m.p 0x2C 2)).dims == q && (x.desc (m.p 0x2E 2)).dims == q &&
        [0x28, 0x2A, 0x2C, 0x2E].all fun o => (x.desc (m.p o 2)).rank == 3 && !(x.desc (m.p o 2)).ert)) &&
      x.lengthsOk m
    | some .scan | some .filter =>
      let cd := a.d0 * m.dirs
      let ws := if m.is .scan then 1 else 2 * m.order
      let st := [ws, cd, a.d2, 1, 1]
      let so := m.p 0x1C 2
      let h := b.d0
      let pw := if h = 0 then 0 else a.d0 / h
      a.rank == 3 && y.rank == 3 && y.dims == [cd, a.d1, a.d2, 1, 1] &&
      (m.c == 0xFFFF || (c.rank == 3 && c.dims == st)) && (so == 0xFFFF || ((x.desc so).rank == 3 && (x.desc so).dims == st)) &&
      (if m.is .scan then
        b.rank == 3 && b.dims.drop 1 == [a.d1, a.d2, 1, 1] && decide (1 ≤ h) && a.d0 % h == 0 &&
        (128 % pw == 0 || pw % 128 == 0)
      else b.rank == 2 && b.dims == [128 + 256 * m.order, a.d0, 1, 1, 1])
    | _ => true
  !(m.named.all fun i => (x.desc i).shapeOk) || !opOk

/-- A memory a descriptor lies in: device space, core-local memory, or Base engine memory. -/
inductive Space where
  | dev | clm | base
deriving DecidableEq, Repr

/-- The decision-word form of R133 or R134. -/
def Ctx.decision (x : Ctx) (m : Macro) (d : Desc) : Bool :=
  (m.is .elementwise || m.is .copy) && d.fcode == 8 && d.rank == 1 && d.d0 == 1 &&
  match x.prog.target with
  | .base => d.base == 0xEFFF8 && !d.clm
  | .mid => d.base == 0x1FEFF8 && d.clm
  | .core => false

/-- The number of tiles of a descriptor in the role it has. -/
def Ctx.ntOf (x : Ctx) (m : Macro) (i : Nat) : Nat :=
  if m.convWeight && i == m.b then m.weightNt (x.desc i) else (x.desc i).nt

/-- The space and range of a descriptor. -/
def Ctx.range (x : Ctx) (m : Macro) (i : Nat) : Space × Nat × Nat :=
  let d := x.desc i
  (if x.prog.target == .base then .base else if d.clm then .clm else .dev, d.base, d.span (x.ntOf m i))

/-- R197, R131, R134, R300, R302: the place of one descriptor. -/
def Ctx.placeOk (x : Ctx) (m : Macro) (i : Nat) (out : Bool) : Bool :=
  let d := x.desc i
  let (sp, lo, n) := x.range m i
  let nt := x.ntOf m i
  let dec := out && x.decision m d
  let esc := d.base + d.esc * 256
  let escN := if out then nt * 2040 else 1
  let q8e := d.ert && d.fcode == 2
  (dec || d.base % (if d.ert then 256 else 64) == 0) &&
  match sp with
  | .base =>
    !d.clm &&
    (decide (lo + n ≤ 0xF0000) || (!out && decide (0xF0000 ≤ lo ∧ lo + n ≤ 0x100000))) &&
    (dec || !overlaps lo n 0xEFFF8 8) &&
    (!q8e || (decide (lo + nt * 16448 ≤ esc) && decide (esc + escN ≤ 0xEFFF8)))
  | .clm =>
    !d.ert && (!out || m.is .copy || dec) && decide (x.prog.budget ≤ lo ∧ lo + n ≤ clmEnd) &&
    (x.prog.target != .mid || dec || !overlaps lo n 0x1FEFF8 8)
  | .dev =>
    x.alloc lo n && (!q8e || (decide (lo + nt * 16448 ≤ esc) && x.alloc esc escN))

/-- Two descriptors share bytes. -/
def Ctx.clash (x : Ctx) (m : Macro) (i j : Nat) : Bool :=
  let (s, a, n) := x.range m i
  let (t, b, k) := x.range m j
  s == t && overlaps a n b k

/-- The output descriptors, and the input descriptors, of an instruction. -/
def Macro.outs (m : Macro) : List Nat :=
  let ps := match m.opc with
    | some .attend => if m.p 0x1D 1 % 2 = 1 then [m.p 0x24 2] else []
    | some .attendBwd => [m.p 0x28 2, m.p 0x2A 2]
    | some .scan | some .filter => [m.p 0x1C 2]
    | _ => []
  ((m.out :: ps).filter (· != 0xFFFF))

def Macro.inputs (m : Macro) : List Nat :=
  let ps := match m.opc with
    | some .attend => if m.p 0x1C 1 = 3 then [m.p 0x26 2] else []
    | some .attendBwd => [m.p 0x24 2, m.p 0x2C 2, m.p 0x2E 2] ++ (if m.p 0x1C 1 = 3 then [m.p 0x26 2] else [])
    | _ => []
  (([m.a, m.b, m.c] ++ ps).filter (· != 0xFFFF))

/-- The key-value control block's fields (Table 10.4). -/
structure KvBlock where
  magic : Nat
  format : Nat
  headDim : Nat
  poolBase : Nat
  frames : Nat
  ptEntries : Nat
  swapBase : Nat
  kExp : Int
  vExp : Int
  kZp : Nat
  vZp : Nat
  freeTop : Nat
  reserved : Bool
deriving DecidableEq, Repr

def Ctx.kv (x : Ctx) (m : Macro) : KvBlock :=
  let b := x.tableBytes (m.p 0x20 4) 128
  { magic := field b 0 4, format := field b 4 2, headDim := field b 6 2, poolBase := field b 8 8,
    frames := field b 0x10 4, ptEntries := field b 0x14 4, swapBase := field b 0x18 8, kExp := sx 8 (field b 0x20 1),
    vExp := sx 8 (field b 0x21 1), kZp := field b 0x22 1, vZp := field b 0x23 1, freeTop := field b 0x24 4,
    reserved := field b 0x38 72 != 0 }

/-- Bytes of the control block with its page table and free stack (Table 10.4). -/
def KvBlock.size (k : KvBlock) : Nat := 0x80 + 8 * k.ptEntries + 4 * k.frames

/-- Entry `i` of the free stack. -/
def Ctx.freeEntry (x : Ctx) (m : Macro) (k : KvBlock) (i : Nat) : Nat :=
  leNat (x.tableBytes (m.p 0x20 4 + 0x80 + 8 * k.ptEntries + 4 * i) 4)

/-- The rescale entries an instruction stages: how many, and the format each serves (R199, R201, R263, R268, R273).
An ACC48 output reads none (Table 7.8). -/
def Ctx.rescaleFmts (x : Ctx) (m : Macro) : List (Option Fmt) :=
  let y := x.desc m.out
  if m.rescale = 0xFFFFFFFF then []
  else
    let of := fun (d : Desc) n => List.replicate n (some d.fmt)
    match m.opc with
    | some .attend => of y (m.qHeads * m.headDim) ++ [none]
    | some .attendBwd => of y (m.qHeads * m.headDim) ++ of (x.desc (m.p 0x28 2)) (m.kvHeads * m.headDim) ++
        of (x.desc (m.p 0x2A 2)) (m.kvHeads * m.headDim) ++ [none, none]
    | _ => if y.fmt = .acc48 ∧ !m.is .elementwise then [] else of y y.d0

/-- Bytes of the W4 group-offset table (Table 7.4), 0 for other weights. -/
def Ctx.groupTable (x : Ctx) (m : Macro) : Nat :=
  let b := x.desc m.b
  if (m.opc.getD .barrier).array ∧ b.fmt = .w4 then
    ceilDiv (if m.convWeight then m.kLen b else if m.is .matmulBwd ∧ m.p 0x18 1 = 1 then x.redLen m else b.d1) 128 * b.d0
  else 0

/-- The tables an instruction needs, as ranges of the table region (R186). -/
def Ctx.tables (x : Ctx) (m : Macro) : List (Nat × Nat) :=
  let rs := (x.rescaleFmts m).length
  let g := x.groupTable m
  (if 0 < rs then [(m.rescale, 16 * rs)] else []) ++ (if 0 < g then [((x.desc m.b).esc, g)] else []) ++
  (if m.is .attend || m.is .attendBwd then
    let n := leNat (x.tableBytes m.aux 2)
    [(m.aux, 8 + 8 * n + (if m.is .attend then n else 0))] else []) ++
  (if m.is .attend then [(m.p 0x20 4, (x.kv m).size)] else [])

/-- Cause 5 (R197; R131 and R134 also for the tables of the lifts' programs). `skip` names descriptors whose BASE is not read (intermediates of a group). -/
def Ctx.addressBad (x : Ctx) (m : Macro) (skip : List Nat) : Bool :=
  let outs := m.outs.filter fun i => !skip.contains i
  let ins := m.inputs.filter fun i => !skip.contains i
  let inPlace := (m.is .elementwise || (m.is .copy && m.p 0x18 1 == 0)) && x.desc m.out == x.desc m.a
  let k := x.kv m
  let stateOut := m.p 0x1C 2
  !(outs.all fun i => x.placeOk m i true) || !(ins.all fun i => x.placeOk m i false) ||
  (outs.any fun o => ins.any fun i =>
    x.clash m o i && !(inPlace && o == m.out && i == m.a) &&
    !((m.is .scan || m.is .filter) && o == stateOut && i == m.c && x.desc o == x.desc i)) ||
  ((m.is .scan || m.is .filter) && (pairsOf outs).any fun (o, p) => x.clash m o p) ||
  (m.is .attend && !(x.dramOk k.poolBase (k.frames * 65536 + k.frames * 256))) ||
  (x.prog.target != .core && !((x.tables m).all fun (o, n) => x.tableOk o n))

/-- The bytes of a fabric image from its first one. -/
def Ctx.fabBytes (x : Ctx) (m : Macro) (n : Nat) : List Byte :=
  let a := m.fabric * 256
  (List.range n).map fun k => if x.prog.target == .base then x.env.mem (a + k) else x.env.clm (a + k)

/-- The image's checks (R147). -/
def Ctx.image (x : Ctx) (m : Macro) : Except Nat FabImage :=
  let len := leNat (x.fabBytes m 12 |>.drop 8)
  fabCheck (x.fabBytes m (max 96 (min len 65536)))

/-- Cause 7. -/
def Ctx.fabricBad (x : Ctx) (m : Macro) : Bool :=
  let hi := if x.prog.target == .base then 0xEFFF8 else clmEnd
  (m.opc.getD .barrier).usesFabric &&
  (m.fabric == 0xFFFF || decide (m.fabric * 256 < x.prog.budget ∨ hi < m.fabric * 256 + 256) ||
    match x.image m with
    | .ok im => decide (hi < m.fabric * 256 + im.length) ||
        (m.rescale == 0xFFFFFFFF && im.words.any FabWord.usesRescale)
    | .error _ => false)

/-- The number of CLM COPYs of the program up to and including instruction `idx` (R203). -/
def Ctx.clmCopies (x : Ctx) (idx : Nat) : Nat :=
  ((List.range (idx + 1)).filter fun i =>
    let m := x.instr i
    m.is .copy && decide (m.out < x.prog.descCount) && (x.desc m.out).clm && !x.decision m (x.desc m.out)).length

/-- Cause 9. -/
def Ctx.paramBad (x : Ctx) (m : Macro) (idx : Nat) : Bool :=
  let a := x.desc m.a
  let between := fun (lo v hi : Nat) => decide (lo ≤ v ∧ v ≤ hi)
  let intMode := !(a.fmt.isFloat || (x.desc m.b).fmt.isFloat)
  let k := x.kv m
  let attnOk := between 1 m.qHeads 128 && between 1 m.kvHeads 128 && between 32 m.headDim 256 && m.headDim % 32 == 0 &&
    between 0 (m.p 0x1C 1) 3 && (if m.p 0x1C 1 = 2 then decide (1 ≤ m.p 0x1E 2) else m.p 0x1E 2 == 0) &&
    (m.p 0x1C 1 == 3 || m.p 0x26 2 == 0xFFFF)
  let ok : Bool :=
    match m.opc with
    | some .conv | some .dwconv | some .tconv =>
      between 1 m.kh 15 && between 1 m.kw 15 && between 1 m.sh 8 && between 1 m.sw 8 && between 1 m.dh 16 &&
      between 1 m.dw 16 && decide (1 ≤ m.groups) && (!m.is .dwconv || m.groups == a.d0) &&
      (!m.wino || (m.kh == 3 && m.kw == 3 && m.sh == 1 && m.sw == 1 && m.dh == 1 && m.dw == 1 && m.groups == 1))
    | some .matmulBwd => between 0 (m.p 0x18 1) 1
    | some .attend =>
      attnOk && k.magic == 0x5A564B56 && k.format == 1 && !k.reserved && k.headDim == m.headDim &&
      m.p 0x20 4 % 64 == 0 && k.poolBase % 65536 == 0 && between 1 k.frames 262144 && between 1 k.ptEntries 1048576 &&
      k.swapBase % 4096 == 0 && decide (k.freeTop ≤ k.frames) &&
      (x.desc m.b).exp == k.kExp && (x.desc m.b).zp == k.kZp && (x.desc m.c).exp == k.vExp && (x.desc m.c).zp == k.vZp &&
      (List.range k.freeTop).all fun i => decide (x.freeEntry m k i < k.frames)
    | some .attendBwd =>
      attnOk && m.p 0x20 4 == 0xFFFFFFFF && m.p 0x1D 1 % 2 == 0 &&
      decide (((x.desc m.c).exp - (x.desc (m.p 0x2E 2)).exp).natAbs ≤ 16)
    | some .scan => between 0 (m.p 0x18 1) 2 && m.p 0x19 1 == 0 && m.p 0x1A 1 == 0
    | some .filter =>
      between 0 (m.p 0x18 1) 2 &&
      (if m.p 0x19 1 = 0 then between 1 (m.p 0x1A 1) 4 else m.p 0x19 1 == 1 && m.p 0x1A 1 == 0)
    | some .cropResize => between 0 (m.p 0x18 1) 1 && between 0 (m.p 0x19 1) 1 && m.p 0x1A 2 == 0
    | some .warp => between 0 (m.p 0x18 1) 1 && between 0 (m.p 0x19 1) 1 && between 0 (m.p 0x1A 2) 255 &&
        decide (-8 ≤ (x.desc m.b).exp ∧ (x.desc m.b).exp ≤ 0)
    | some .reduce => decide (m.p 0x18 1 < a.rank) && between 0 (m.p 0x19 1) 3
    | some .scatter => between 0 (m.p 0x18 1) 1
    | some .copy => between 0 (m.p 0x18 1) 2 &&
        (if m.p 0x18 1 = 0 then m.p 0x19 1 == 0 else between 2 (m.p 0x19 1) 8) &&
        !((x.desc m.out).clm && !x.decision m (x.desc m.out) && decide (16 < x.clmCopies idx))
    | some .fuseBegin => between 2 (m.p 0x18 1) 8
    | _ => true
  let scanF := m.is .scan || m.is .filter
  !ok || (m.rescale != 0xFFFFFFFF && m.rescale % 16 != 0) ||
  (scanF && (m.aux != 0xFFFFFFFF || m.accExp != 0 || m.flags % 16 != 0)) ||
  ((m.opc.getD .barrier).array && intMode && m.accExp != 0)

/-- The accumulator exponent T (R166, R179, R265, R268, R273, R201, R238). -/
def Ctx.accExpOf (x : Ctx) (m : Macro) : Int :=
  let a := x.desc m.a
  let b := x.desc m.b
  match m.opc with
  | some .scan => a.exp - 15
  | some .filter => a.exp + b.exp
  | some .cropResize | some .warp => a.exp - 16
  | some .reduce => if m.p 0x19 1 = 3 then 2 * a.exp else a.exp
  | some .attend => (x.kv m).vExp - 16
  | some .elementwise => a.exp
  | _ => if a.fmt.isFloat || b.fmt.isFloat then m.accExp else a.exp + b.exp

/-- Cause 10: formats by role (Table 7.3, R164, R197, R200-R203, R227, R230, R239, R243, R247, R267, R272, R300),
and exponents. A reserved format code passes here and fails R188. -/
def Ctx.roleBad (x : Ctx) (m : Macro) : Bool :=
  let y := x.desc m.out
  let a := x.desc m.a
  let b := x.desc m.b
  let c := x.desc m.c
  let outAny := fun (d : Desc) => d.fits fun f => f != .w4
  let act := fun (d : Desc) => d.fits fun f => f.isInt || f.isFloat
  let wt := fun (d : Desc) => d.fits fun f => f == .q8a || f == .q8e || f == .w4 || f.isFloat
  let isF := fun (f : Fmt) (d : Desc) => d.fits (· == f)
  let int := fun (d : Desc) => d.fits Fmt.isInt
  let isAcc := isF .acc48
  let bytes := fun (d : Desc) => isF .q8a d && d.exp == 0 && d.zp == 0
  let mask := x.desc (m.p 0x26 2)
  let maskOk := m.p 0x1C 1 != 3 || (isF .q8a mask && decide (-16 ≤ mask.exp ∧ mask.exp ≤ 0 ∧ 1 ≤ mask.zp))
  let ok : Bool :=
    match m.opc with
    | some .matmul | some .tconv | some .matmulBwd => act a && wt b && outAny y
    | some .conv => act a && wt b && outAny y &&
        (!m.wino || (m.mwidth == 0 && int a && isF .q8e b && b.ert))
    | some .dwconv => int a && (b.fits fun f => f == .q8a || f == .q8e) && outAny y
    | some .attend => (a.fits fun f => f == .q8a || f == .q16a) && isF .q8a b && isF .q8a c &&
        (y.fits fun f => f != .w4 && f != .acc48) &&
        (m.p 0x1D 1 % 2 == 0 || bytes (x.desc (m.p 0x24 2))) && maskOk
    | some .attendBwd => isF .q8a a && isF .q8a b && isF .q8a c && outAny y && outAny (x.desc (m.p 0x28 2)) &&
        outAny (x.desc (m.p 0x2A 2)) && isF .q8a (x.desc (m.p 0x2C 2)) &&
        ((x.desc (m.p 0x2E 2)).fits fun f => f == .q8a || f == .q16a) && bytes (x.desc (m.p 0x24 2)) && maskOk
    | some .scan => int a && isF .q16a b && decide (-16 ≤ b.exp ∧ b.exp ≤ 0) && outAny y
    | some .filter => int a && isF .q16a b && decide (-16 ≤ b.exp ∧ b.exp ≤ -1) && outAny y
    | some .cropResize => int a && int y
    | some .warp => int a && int y && b.fits fun f => f == .q8a || f == .q16a
    | some .elementwise => int a && (m.b == 0xFFFF || int b) && y.fits fun f => f.isInt || f == .acc48
    | some .reduce => int a && outAny y
    | some .gather => isF .q16a b && b.zp == 0 && b.exp == 0 && y.fcode == a.fcode && y.exp == a.exp && y.zp == a.zp
    | some .scatter => isF .q16a b && b.zp == 0 && b.exp == 0 &&
        (if m.p 0x18 1 = 1 then isAcc a && isAcc y && a.exp == y.exp
         else y.fcode == a.fcode && y.exp == a.exp && y.zp == a.zp)
    | some .copy => y.fcode == a.fcode && y.exp == a.exp && y.zp == a.zp
    | _ => true
  let states := if m.is .scan || m.is .filter then
      [m.c, m.p 0x1C 2].all fun i => i == 0xFFFF || (isAcc (x.desc i) && (x.desc i).exp == x.accExpOf m)
    else true
  !ok || !states ||
  (m.accIn && (m.opc.getD .barrier).array && !(isAcc c && c.exp == x.accExpOf m)) ||
  (m.named.any fun i =>
    let d := x.desc i
    (Fmt.ofCode d.fcode).isSome && ((d.ert && !d.fmt.ertOk) || (d.fcode == 2 && !d.ert))) ||
  (x.prog.target == .base && (m.opc.getD .barrier).array &&
    !((a.fits fun f => f == .q8a || f == .q8e) && (b.fits fun f => !f.isFloat)))

/-- Cause 11: the fixed working sets of R262, R270 and R286; a spatial instruction needs a candidate. -/
def Ctx.workingBad (x : Ctx) (m : Macro) : Bool :=
  let a := x.desc m.a
  let y := x.desc m.out
  let hd := m.headDim
  let g := m.qHeads / m.kvHeads
  match m.opc with
  | some .attend => decide (x.prog.budget < hd * (128 * a.fmt.size + 1536) + 67584 + 16 * (g * hd + 1))
  | some .attendBwd => decide (x.prog.budget < 2816 * hd + 131072 + 16 * (g * hd + 2 * hd + 2))
  | some .scan => decide (x.prog.budget < 16384 * (a.fmt.size + y.fmt.size) + 36864)
  | some .filter => decide (x.prog.budget < 16384 * (a.fmt.size + y.fmt.size) + 34816 + 67584 * m.order)
  | _ => (x.plan m).isNone

/-- Whether a Table 7.3 combination or a mantissa width is rejected as MODE (R169, R188). -/
def Ctx.modeBad (x : Ctx) (m : Macro) : Bool :=
  let a := (x.desc m.a).fmt
  let b := (x.desc m.b).fmt
  if (m.opc.getD .barrier).array then
    let combo := match a with
      | .q8a => true
      | .q8e => !b.isFloat
      | .q16a => b == .q8a || b == .q8e
      | _ => b == .q8a || b.isFloat
    !combo || (if a.isFloat then m.mwidth == 0 else m.mwidth != 0)
  else m.mwidth != 0

/-- R188's checks at the instruction's start: descriptors, the operand mode, the table region, rescale entries. -/
def Ctx.formatBad (x : Ctx) (m : Macro) : Option Bad :=
  let ds := m.named.map x.desc
  if ds.any fun d => (Fmt.ofCode d.fcode).isNone then some (.format 1)
  else if ds.any fun d => decide (d.fmt.zpMax < d.zp) then some (.format 2)
  else if ds.any fun d => decide (d.exp < d.fmt.expRange.1 ∨ d.fmt.expRange.2 < d.exp) then some (.format 3)
  else if x.modeBad m then some (.format 4)
  else if !((x.tables m).all fun (o, n) => x.tableOk o n) then some (.format 10)
  else if !((x.rescaleFmts m).mapIdx fun i f =>
      let r := Rescale.ofBytes (x.tableBytes (m.rescale + 16 * i) 16)
      match f with
      | none => r.plain
      | some f => r.valid f).all (· == true) then some (.format 7)
  else none

/-- The layers of the group that FUSE_BEGIN at `idx` opens. -/
def Ctx.layers (x : Ctx) (idx : Nat) : List Macro :=
  (List.range ((x.instr idx).p 0x18 1)).map fun k => x.instr (idx + 1 + k)

/-- Cause 8 of a FUSE_BEGIN (R213, R216). -/
def Ctx.fusionBad (x : Ctx) (idx : Nat) : Bool :=
  let m := x.instr idx
  let ls := x.layers idx
  let n := ls.length
  let out := fun k => (ls[k]?.map Macro.out).getD 0xFFFF
  let inGroup := fun i => decide (idx ≤ i ∧ i ≤ idx + n + 1)
  let mids := (List.range (n - 1)).filter fun k => !((ls[k]?.map Macro.emit).getD false)
  let final := x.desc (out (n - 1))
  decide (x.prog.instrCount ≤ idx + n + 1) || !(x.instr (idx + n + 1)).is .fuseEnd ||
  ls.any (fun l => !(l.is .conv || l.is .dwconv || (l.is .elementwise && ((x.desc l.out).rank == 3 || (x.desc l.out).rank == 4)))) ||
  ls.any (fun l => l.split != m.split || l.splitK || l.accIn) ||
  ((List.range n).any fun k =>
    let l := nth ls k m
    (k != 0 && l.a != out (k - 1)) ||
    (l.is .elementwise && l.b != 0xFFFF &&
      !(((l.b == (ls.head?.map Macro.a).getD 0xFFFF) || (List.range k).any fun j => out j == l.b) &&
        (x.desc l.b).d1 == (x.desc l.out).d1 && (x.desc l.b).d2 == (x.desc l.out).d2)) ||
    (l.emit && !((x.desc l.out).d1 == final.d1 && (x.desc l.out).d2 == final.d2))) ||
  ((List.range x.prog.instrCount).any fun i =>
    !inGroup i && (x.instr i).inputs.any fun d => mids.any fun k => out k == d)

/-- Table 8.7 in its order, then R188, for instruction `idx`; `grp` places a layer in its group. DEDUCED: a missing
table region (R186) is found after the operands and before the shapes, which may need the tables. -/
def Ctx.checkOne (x : Ctx) (idx : Nat) (grp : Option LayerOf) : Option Bad :=
  let m := x.instr idx
  let skip := match grp with
    | none => []
    | some g =>
      let inter := (g.layers.dropLast.filter fun l => !l.emit).map Macro.out
      let prev := if g.l = 0 then [] else (g.layers.take g.l).map Macro.out
      inter ++ prev.filter (· != m.out)
  match m.opc with
  | none => some (.instr 1)
  | some o =>
    if x.prog.target == .base && (!o.onBase || (o == .conv && m.wino)) then some (.instr 1)
    else if x.reservedSet m then some (.instr 2)
    else if x.operandBad m then some (.instr 3)
    else if x.tableNone && (m.rescale != 0xFFFFFFFF && (x.rescaleFmts m) != [] || x.groupTable m != 0 || o == .attend ||
        o == .attendBwd) then some .notConfigured
    else if x.shapeBad m then some (.instr 4)
    else if x.addressBad m skip then some (.instr 5)
    else if grp.isNone && (!(((x.plan m).map Plan.cls).getD .spatial).splits.contains m.split &&
        !(o == .fuseBegin && [0, 3, 4].contains m.split)) ||
        (o == .copy && (x.desc m.out).clm && !x.decision m (x.desc m.out) && m.split != 0) then some (.instr 6)
    else if x.fabricBad m then some (.instr 7)
    else if (grp.isNone && m.emit && (o == .conv || o == .dwconv || o == .elementwise)) ||
        (o == .fuseBegin && x.fusionBad idx) || (o == .fuseEnd && grp.isNone) then some (.instr 8)
    else if x.paramBad m idx then some (.instr 9)
    else if x.roleBad m then some (.instr 10)
    else if grp.isNone && x.workingBad m then some (.instr 11)
    else if o.array && !m.convWeight && decide (1 < (splitKChunks m.splitK (x.redLen m)).1) &&
        decide (x.prog.scratchSize / 4 < 4 * (splitKChunks m.splitK (x.redLen m)).1 * 131072) then some (.instr 14)
    else x.formatBad m

/-- The checks of the instruction at `idx` that starts a unit of work (R198): a FUSE_BEGIN with its layers in order,
then the group's working set; any other instruction alone. The result names the failing instruction's index. -/
def Ctx.check (x : Ctx) (idx : Nat) : Option (Bad × Nat) :=
  match x.checkOne idx none with
  | some b => some (b, idx)
  | none =>
    if (x.instr idx).is .fuseBegin then
      let ls := x.layers idx
      match (List.range ls.length).findSome? fun k =>
          (x.checkOne (idx + 1 + k) (some { layers := ls, l := k })).map fun b => (b, idx + 1 + k) with
      | some r => some r
      | none => if (x.groupPlan ls).isNone then some (.instr 11, idx) else none
    else none

end Sys2Proof.Machine
end

