-- ==== Sys2Proof/Machine/Eval.lean ====
section
/-!
DEFINITION. What every tile's evaluation shares: reduction vectors and their products (R168, R170, R175, R178-R180),
the drain into the fabric and the output (R494), and the tile of MATMUL and MATMUL_BWD (R199, R206, R211).
-/

namespace Sys2Proof.Machine

/-- The tables staged when an instruction starts (R186, R240). -/
structure Staged where
  rescale : List Byte
  group : List Byte
  boxes : List Byte
deriving DecidableEq, Repr

/-- Staged rescale entry `n`. -/
def Staged.entry (s : Staged) (n : Nat) : Rescale := Rescale.ofBytes (slice s.rescale (16 * n) 16)

/-- A reduction vector: exact integers, or blocks of 32 with their scale (R178). -/
inductive Vec where
  | ints (vs : List Int)
  | blocks (bs : List (Int × List Int))
deriving DecidableEq, Repr

/-- The block-float modes apply when either operand is a floating-point format (Table 7.3). -/
def blockMode (a w : Desc) : Bool := a.fmt.isFloat || w.fmt.isFloat

/-- A vector of elements of `d`: in the integer modes each at its exact value, shifted by the W4 group offset
(R170, R172: array product and correction pass together); in block-float modes mantissas of width `w`, an integer
operand entering with its exponent as scale (R178). -/
def vecOf (d : Desc) (bf : Bool) (w : Nat) (es : List Elem) (shifts : List Nat) : Vec :=
  if bf then
    .blocks ((chunksOf 32 es).map fun blk =>
      if d.fmt.isFloat then blockMantissas w (blk.map fun e => d.fmt.decodeFloat e.code)
      else (d.exp, blk.map fun e => e.operand d))
  else .ints (es.mapIdx fun i e => e.exact d * ((2 ^ nth shifts i 0 : Nat) : Int))

/-- A large magnitude (R180). -/
def big (k : Nat) (v : Int) : Bool := decide (2 ^ k ≤ v.natAbs)

/-- The accumulator after a reduction, from `init`, and whether an aligned block partial reached 2^44 (R170, R179,
R180). -/
def dot (expT init : Int) (a w : Vec) : Int × Bool :=
  match a, w with
  | .ints xs, .ints ys => (wrap48 ((List.zipWith (· * ·) xs ys).foldl (· + ·) init), false)
  | .blocks xs, .blocks ys =>
    (List.zip xs ys).foldl (fun (s : Int × Bool) (p, q) =>
      let part := (List.zipWith (· * ·) p.2 q.2).foldl (· + ·) 0
      let al := alignRaw part (p.1 + q.1) expT
      (wrap48 (s.1 + al), s.2 || big 44 al)) (init, false)
  | _, _ => (init, false)

/-- Whether a list of elements holds a non-finite one (R177). -/
def anyNonFinite (d : Desc) (es : List Elem) : Bool := es.any fun e => d.fmt.nonFinite e.code

/-- The number of escaped elements. -/
def countEsc (es : List Elem) : Nat := (es.filter fun e => e.esc.isSome).length

/-- The element supplied outside an extent (R212). -/
def padElem (d : Desc) : Elem := { code := if d.fmt.isInt then d.zp else 0, esc := none }

/-- The activation mantissa width (R169). -/
def Macro.actWidth (m : Macro) : Nat := if m.mwidth = 2 then 17 else 9

/-- A drained element with its place in the output. -/
structure Cell where
  at' : Ix
  elem : DrainElem
deriving DecidableEq, Repr

/-- The drain and the output of a tile (R494): the microcode over the rows, then the elements of OUT. With an
accumulator of its own and an ACC48 output, the drain writes the accumulator. -/
def finishTile (env : Env) (m : Macro) (img : FabImage) (y : Desc) (expT : Int) (t : Nat) (escapes : Option (List Nat))
    (rows : List (List Cell)) : List OutElem × TileStats :=
  let c : FabCtx := { img, fmt := y.fmt, expT, tile := t, escapes }
  let (outs, sat) := runFabric c (rows.map fun r => r.map Cell.elem)
  let direct := (m.opc.getD .barrier).hasAcc && y.fmt == .acc48
  let es := (List.zip rows outs).flatMap fun (r, o) => (List.zip r o).map fun (cell, w) =>
    { at' := cell.at', v := if direct then cell.elem.acc else w.getD y.blank, keep := false : OutElem }
  let head := (m.opc.getD .barrier).hasAcc && rows.any fun r => r.any fun cell => big 46 cell.elem.acc
  let _ := env
  (es, { TileStats.zero with headroom := head, saturated := sat })

/-- The entry an output channel takes, none where the instruction stages none. -/
def Ctx.entryFor (x : Ctx) (m : Macro) (st : Staged) (n : Nat) : Option Rescale :=
  if m.rescale = 0xFFFFFFFF ∨ (x.rescaleFmts m).length ≤ n then none else some (st.entry n)

/-- INDEX values of the side lists of tiles, in order (source 53). -/
def Ctx.escIndices (x : Ctx) (ts : List (Desc × Nat × Nat)) : List Nat :=
  ts.flatMap fun (d, nt, n) => if d.ert && d.fmt == .q8e then (x.env.ertEscapes d nt n).map escIndex else []

/-- A failure, or nothing. -/
def Ctx.ertsOk (x : Ctx) (d : Desc) (weight wino : Bool) (ps : List ErtPos) : Except Bad Unit :=
  let d' := if x.tagged then x.env else { x.env with tagOf := fun a _ => x.env.bytes (tagAddr d ps a) 16 }
  match d'.ertsCheck d weight wino ps with
  | some b => .error b
  | none => .ok ()
where
  /-- The place of the TAG field of the tile whose payload is at `a`; comparing it with itself ignores it (R131). -/
  tagAddr (d : Desc) (ps : List ErtPos) (a : Nat) : Nat :=
    d.base + (ps.head?.map ErtPos.nt).getD 0 * 16384 + (a - d.base) / 16384 * 64 + 48

/-- The number of tiles read whose layout does not match the role (R301): activations want 0, weights 1. -/
def Ctx.transposed (x : Ctx) (d : Desc) (weight : Bool) (ps : List ErtPos) : Nat :=
  if d.ert then
    ((sortDedup (ps.map ErtPos.n)).filter fun n =>
      (field (x.env.ertHeader d ((ps.head?.map ErtPos.nt).getD 0) n) 0x0E 2).testBit 0 != weight).length
  else 0

/-! ### MATMUL and MATMUL_BWD -/

/-- How a MATRIX instruction reads its operands: the activation element of tile row `i` and the weight element of
tile column `j` at reduction index `q`. -/
structure MatrixView where
  aIx : Nat → Nat → Ix
  wIx : Nat → Nat → Ix
  /-- The (k, n) of a weight for its group offset. -/
  kn : Nat → Nat → Nat × Nat
  outIx : Nat → Nat → Ix

/-- The three products of R199, for batch `b`. In GRAD 1, rows run along K and the reduction over b and m, m
fastest; SRC_A is dY and enters with the columns. -/
def Ctx.matrixView (x : Ctx) (m : Macro) (b : Nat) : MatrixView :=
  let a := x.desc m.a
  let w := x.desc m.b
  let bi := fun (d : Desc) => (b % d.d2, b / d.d2 % d.d3, b / (d.d2 * d.d3))
  let at3 := fun (d : Desc) (i j : Nat) => let (p, q, r) := bi d; ix i j p q r
  let wb := fun (i j : Nat) => if w.d2 * w.d3 * w.d4 = 1 then ix i j else at3 w i j
  if m.is .matmulBwd then
    if m.p 0x18 1 = 1 then
      let red := fun (q : Nat) => (q % a.d1, q / a.d1 % a.d2, q / (a.d1 * a.d2) % a.d3, q / (a.d1 * a.d2 * a.d3))
      { aIx := fun j q => let (m1, p, r, s) := red q; ix j m1 p r s,
        wIx := fun i q => let (m1, p, r, s) := red q; ix i m1 p r s,
        kn := fun i q => (q, i),
        outIx := fun i j => ix j i }
    else
      { aIx := fun i q => at3 a q i, wIx := fun j q => wb q j, kn := fun j q => (j, q),
        outIx := fun i j => at3 (x.desc m.out) j i }
  else
    { aIx := fun i q => at3 a q i, wIx := fun j q => wb j q, kn := fun j q => (q, j),
      outIx := fun i j => at3 (x.desc m.out) j i }

/-- A fault of a W4 group-offset entry (R188 cause 8). -/
def groupBad (st : Staged) (n k j : Nat) : Bool := decide (8 ≤ (nth st.group (k / 128 * n + j) 0).toNat)

/-- The rows and columns of a MATRIX tile, and its chunk of the reduction. -/
structure MatrixTile where
  rows : List Nat
  cols : List Nat
  k0 : Nat
  k1 : Nat
  b : Nat
  kc : Nat
deriving DecidableEq, Repr

/-- The blocks of tile `t` (Table 8.8, R206). -/
def Ctx.matrixTile (x : Ctx) (m : Macro) (p : Plan) (t : Nat) : MatrixTile :=
  let y := x.desc m.out
  let red := x.redLen m
  let nb := p.coord 1 t
  let mb := p.coord 2 t
  let kc := p.coord 3 t
  { rows := (List.range 128).map (· + 128 * mb) |>.filter (· < y.d1),
    cols := (List.range 128).map (· + 128 * nb) |>.filter (· < y.d0),
    k0 := kc * p.p1, k1 := min ((kc + 1) * p.p1) red, b := p.coord 0 t, kc }

/-- The accumulators of a MATRIX tile's chunk, by row and column, with the statistics of loading its operands. -/
def Ctx.matrixAcc (x : Ctx) (m : Macro) (st : Staged) (p : Plan) (t : Nat) :
    Except Bad (List (List Int) × TileStats) := do
  let a := x.desc m.a
  let w := x.desc m.b
  let c := x.desc m.c
  let tl := x.matrixTile m p t
  let v := x.matrixView m tl.b
  let grad1 := m.is .matmulBwd && m.p 0x18 1 == 1
  let bf := blockMode a w
  let ks := (List.range (tl.k1 - tl.k0)).map (· + tl.k0)
  let aRows := if grad1 then tl.cols else tl.rows
  let wRows := if grad1 then tl.rows else tl.cols
  let aPos := aRows.flatMap fun i => ks.map fun q => a.ertPos (v.aIx i q)
  let wPos := wRows.flatMap fun j => ks.map fun q => w.ertPos (v.wIx j q)
  x.ertsOk a false false (if a.ert then aPos else [])
  x.ertsOk w true false (if w.ert then wPos else [])
  if w.fmt == .w4 && wRows.any (fun j => ks.any fun q => groupBad st w.d0 (v.kn j q).1 (v.kn j q).2) then
    throw (.format 8)
  if m.accIn && tl.kc == 0 && tl.rows.any (fun i => tl.cols.any fun j =>
      !acc48Ok (x.env.elem c (v.outIx i j)).code) then throw (.format 9)
  let aEls := aRows.map fun i => ks.map fun q => x.env.elem a (v.aIx i q)
  let wEls := wRows.map fun j => ks.map fun q => x.env.elem w (v.wIx j q)
  let aVecs := aEls.map fun es => vecOf a bf m.actWidth es []
  let wVecs := (List.zip wRows wEls).map fun (j, es) =>
    vecOf w bf 9 es (if w.fmt = .w4 then ks.map fun q =>
      (nth st.group ((v.kn j q).1 / 128 * w.d0 + (v.kn j q).2) 0).toNat % 8 else [])
  let rowVecs := if grad1 then wVecs else aVecs
  let colVecs := if grad1 then aVecs else wVecs
  let cells := (List.zip tl.rows rowVecs).map fun (i, rv) => (List.zip tl.cols colVecs).map fun (j, cv) =>
    dot (x.accExpOf m) (if m.accIn && tl.kc == 0 then acc48Val (x.env.elem c (v.outIx i j)).code else 0) rv cv
  pure (cells.map fun r => r.map Prod.fst,
    { TileStats.zero with
      escapes := (aEls.map countEsc).foldl (· + ·) 0 + (wEls.map countEsc).foldl (· + ·) 0,
      nonFinite := aEls.any (anyNonFinite a) || wEls.any (anyNonFinite w),
      headroom := cells.any fun r => r.any Prod.snd,
      transposed := x.transposed a false aPos + x.transposed w true wPos })

/-- The order of the side lists of a MATRIX tile (R172): input tiles along K ascending, the activation list first. -/
def Ctx.matrixEscapes (x : Ctx) (m : Macro) (p : Plan) (t : Nat) : List Nat :=
  let a := x.desc m.a
  let w := x.desc m.b
  let tl := x.matrixTile m p t
  let v := x.matrixView m tl.b
  let steps := (List.range (ceilDiv (tl.k1 - tl.k0) 128)).map fun i => tl.k0 + 128 * i
  x.escIndices (steps.flatMap fun q =>
    let pa := a.ertPos (v.aIx (tl.rows.headD 0) q)
    let pw := w.ertPos (v.wIx (tl.cols.headD 0) q)
    [(a, pa.nt, pa.n), (w, pw.nt, pw.n)])

/-- The drained cells of accumulators. -/
def Ctx.matrixCells (x : Ctx) (m : Macro) (st : Staged) (p : Plan) (t : Nat) (accs : List (List Int)) :
    List (List Cell) :=
  let tl := x.matrixTile m p t
  let v := x.matrixView m tl.b
  (List.zip tl.rows accs).map fun (i, r) => (List.zip tl.cols r).map fun (j, acc) =>
    { at' := v.outIx i j, elem := { acc, b := 0, entry := x.entryFor m st j } }

/-- The outputs of a MATRIX tile from its final accumulators. -/
def Ctx.matrixFinish (x : Ctx) (m : Macro) (st : Staged) (img : FabImage) (p : Plan) (t : Nat)
    (accs : List (List Int)) (stats : TileStats) : TileOut :=
  let y := x.desc m.out
  let (es, s) := finishTile x.env m img y (x.accExpOf m) t (some (x.matrixEscapes m p t)) (x.matrixCells m st p t accs)
  let o := outWrites x.env y es
  { o with stats := (o.stats.add s).add stats }

/-- A MATRIX tile that carries its whole reduction (S = 1). -/
def Ctx.evalMatrix (x : Ctx) (m : Macro) (st : Staged) (img : FabImage) (p : Plan) (t : Nat) : Except Bad TileOut := do
  let (accs, stats) ← x.matrixAcc m st p t
  pure (x.matrixFinish m st img p t accs stats)

/-- The address of the partial of tile `t` in the quarter of position `pos` (R211). -/
def Prog.partialAddr (g : Prog) (s pos t : Nat) : Nat :=
  g.scratchBase + pos * (g.scratchSize / 4) + (t / s % 4 * s + t % s) * 131072

/-- A split-K chunk: its partial as an ACC48 block in scratch (R211). -/
def Ctx.evalPartial (x : Ctx) (m : Macro) (st : Staged) (p : Plan) (pos t : Nat) : Except Bad TileOut := do
  let (accs, stats) ← x.matrixAcc m st p t
  let a0 := x.prog.partialAddr p.p0 pos t
  let ws := (List.range 128).flatMap fun i => (List.range 128).flatMap fun j =>
    wrBytes (a0 + (i * 128 + j) * 8) (leBytes 8 (toU 64 (nth (nth accs i []) j 0)))
  pure { TileOut.empty with lines := ws, stats }

/-- One level of the pairwise tree (R211), and whether a sum it forms is large. -/
def treeLevel : List Int → List Int × Bool
  | a :: b :: rest =>
    let (xs, h) := treeLevel rest
    let s := wrap48 (a + b)
    (s :: xs, h || big 46 s)
  | xs => (xs, false)

/-- The fixed pairwise tree (R211); at most 8 partials, so three levels. -/
def treeSum (xs : List Int) : Int × Bool :=
  let (a, h1) := treeLevel xs
  let (b, h2) := treeLevel a
  let (c, h3) := treeLevel b
  (c.headD 0, h1 || h2 || h3 || xs.any (big 46))

/-- The reduction of an output block whose partials all stand in scratch, and its single rescale (R181, R211). The
tile index the image sees is that of chunk 0 (DEDUCED). -/
def Ctx.evalReduce (x : Ctx) (m : Macro) (st : Staged) (img : FabImage) (p : Plan) (pos t : Nat) : TileOut :=
  let s := p.p0
  let t0 := t / s * s
  let parts := fun (i j : Nat) => (List.range s).map fun kc =>
    acc48Val (x.env.num (x.prog.partialAddr s pos (t0 + kc) + (i * 128 + j) * 8) 8)
  let tl := x.matrixTile m p t0
  let sums := tl.rows.mapIdx fun i _ => tl.cols.mapIdx fun j _ => treeSum (parts i j)
  x.matrixFinish m st img p t0 (sums.map fun r => r.map Prod.fst)
    { TileStats.zero with headroom := sums.any fun r => r.any Prod.snd }

end Sys2Proof.Machine
end

