-- ==== Sys2Proof/Config.lean ====
section
/-!
DEFINITION. What an implementation or one chip fixes, and the free values: opaque constants with no body, so that
no proof can see what they are.
-/

namespace Sys2Proof.Config

/-- Byte `i` of the per-device identity digest (1000.06, R7). Free: the spec gives it per device. -/
opaque deviceIdByte : Nat → Byte
/-- Byte `i` of the ROM digest (8000.02). -/
opaque romByte : Nat → Byte
/-- Byte `i` of the DeviceEnc public key (8000.03). -/
opaque deviceEncByte : Nat → Byte
/-- Byte `i` of the Alias public key of firmware set `g` (8000.04, R435). -/
opaque aliasByte : Nat → Nat → Byte
/-- Byte `i` of vendor root key hash `k` in fuses (8006). -/
opaque rootHashByte : Nat → Nat → Byte
/-- The power of two by which BASE_CLK divides AON_FAST_CLK, modulo 4 (Table 4.3). -/
opaque baseDivider : Nat
/-- The fuse trim code of the fast RC (2100.05). -/
opaque fuseTrim : Nat
/-- The trim code found against the reference (R96). -/
opaque refTrim : Nat
/-- The characterised NET1 PHY latencies (3020.1B, 3020.1C). -/
opaque net1PhyTxLatency : Nat
opaque net1PhyRxLatency : Nat

/-- The lowest core voltage in mV at which a die's critical-path monitors pass at a frequency in MHz (Table 5.10). -/
opaque criticalMv : Nat → Nat → Nat

/-- The exponent that the compiler gives dS by an ATTEND_BWD's dS entry (R268), by the entry's M and SHIFT. -/
opaque dsExponent : Nat → Nat → Int

/-- The free values of a state: the value drawn when `State.free` stands at `n`. -/
opaque free : Nat → Nat
/-- Byte `i` of the DRBG's draw `n` (R438). -/
opaque drbgByte : Nat → Nat → Byte

/-- Undefined contents of tenant memory: generation and tenant address (R295). -/
opaque memByte : Nat → Nat → Byte

/-- Byte `i` of an ECDSA signature by the Alias key of firmware set `g`, over a digest, with the nonce of DRBG draw `n`
(R435, R455). -/
opaque aliasSigByte : Nat → Nat → Nat → Nat → Byte
/-- Length and byte `i` of the Alias certificate of firmware set `g` (R435). -/
opaque aliasCertLen : Nat → Nat
opaque aliasCertByte : Nat → Nat → Byte
/-- Whether bytes are a certificate chain that R436 accepts for this device. -/
opaque certChainOk : List Byte → Bool
/-- Byte `i` of the x-coordinate of ECDH between DeviceEnc and a public key (R440). -/
opaque encSharedByte : Nat → Nat → Byte
/-- Whether the verify data of a FINISH agree with a session's keys, named by their DRBG draw (R455). -/
opaque finishOk : Nat → List Byte → Bool

/-- What the host holds in its memory, by function × 2^64 + address. -/
opaque hostByte : Nat → Byte

/-- The 48 bytes of 1000.06. -/
def deviceIdDigest : List Byte := (List.range 48).map deviceIdByte
/-- The 48 bytes of 8000.02. -/
def romDigest : List Byte := (List.range 48).map romByte
/-- The 97 bytes of 8000.03. -/
def deviceEncKey : List Byte := (List.range 97).map deviceEncByte
/-- The 97 bytes of 8000.04 for firmware set `g`. -/
def aliasKey (g : Nat) : List Byte := (List.range 97).map (aliasByte g)
/-- A signature of 96 bytes by the Alias key. -/
def aliasSig (g digest draw : Nat) : List Byte := (List.range 96).map (aliasSigByte g digest draw)
/-- The Alias certificate. -/
def aliasCert (g : Nat) : List Byte := (List.range (aliasCertLen g % 4096)).map (aliasCertByte g)
/-- Z of R440 for an ephemeral key. -/
def encShared (key : Nat) : List Byte := (List.range 48).map (encSharedByte key)
/-- The 48 bytes of 8006.0(k+1). -/
def rootHash (k : Nat) : List Byte := (List.range 48).map (rootHashByte k)

end Sys2Proof.Config
end

