-- ==== Sys2Proof/Machine/ObjectTable.lean ====
section
/-!
DEFINITION. The object dictionary's tables: one row per object of Tables 1.13, 1.15, 1.16, 3.8, 4.9, 5.13, 6.11,
7.13, 12.8, 13.4, 13.5, 14.10, 15.8, 16.4, 16.8, 17.10, 17.11, 18.14, 18.15 and 19.13 (R14, R15), and the key under
which `State.dict` holds each object.
-/

namespace Sys2Proof.Machine

/-- The type codes of Table 1.1; `dom lo hi` is a DOMAIN of `lo` to `hi` bytes. -/
inductive Ty where
  | bool | i8 | i16 | i32 | u8 | u16 | u32 | i64 | u64 | vstr | time96 | stime64 | bitmap64
  | dom (lo hi : Nat)
deriving DecidableEq, Repr

/-- The access codes of Table 1.2. -/
inductive Acc where
  | ro | rw | wo | rwi | wpu | ev
deriving DecidableEq, Repr

/-- The scopes of Table 1.3. -/
inductive Scope where
  | dev | ten | pat
deriving DecidableEq, Repr

/-- The unit an object belongs to (R24, R53): none, one unit, or one picked by index or subindex. -/
inductive UnitOf where
  | none
  | fixed (u : Nat)
  | byIdx (u idxLo : Nat)
  | bySub (u : Nat)
  | csi (idxLo : Nat)
  | rccSub
  | midCore
deriving DecidableEq, Repr

/-- How a row states its After power-up value. -/
inductive Dflt where
  | num (n : Nat)
  | grade (cb xb : Nat)
  | ordering
  | str (s : String)
  | zeros (len : Nat)
  | bytes (bs : List Byte)
  | rootHash
deriving DecidableEq, Repr

/-- One row of an object table (R14): the indices and subindices it covers, type, access, scope, After power-up
value, the values it takes as segments (low, high, step; none: every value of the type), owning unit, and whether
its chapter declares it writable in every power state (R24). -/
structure ObjRow where
  idxLo : Nat
  idxHi : Nat
  subLo : Nat
  subHi : Nat
  ty : Ty
  acc : Acc
  scope : Scope
  dflt : Dflt
  segs : List (Int × Int × Int)
  unit : UnitOf
  everyState : Bool
deriving Repr

/-- A table row, written in the order of the columns above. -/
def orow (idxLo idxHi subLo subHi : Nat) (ty : Ty) (acc : Acc) (scope : Scope) (dflt : Dflt)
    (segs : List (Int × Int × Int)) (unit : UnitOf) (everyState : Bool) : ObjRow :=
  { idxLo, idxHi, subLo, subHi, ty, acc, scope, dflt, segs, unit, everyState }

/-- Table 1.13, rows from 1. -/
def table_1_13_0 : List ObjRow := [
  orow 0x1000 0x1000 0x01 0x01 .vstr .ro .dev (.str "Uludom") [] (.none) true,
  orow 0x1000 0x1000 0x02 0x02 .vstr .ro .dev (.str "Midun MDN-1640") [] (.none) true,
  orow 0x1000 0x1000 0x03 0x03 .vstr .ro .dev (.ordering) [] (.none) true,
  orow 0x1000 0x1000 0x04 0x04 .u8 .ro .dev (.grade 0 1) [] (.none) true,
  orow 0x1000 0x1000 0x05 0x05 .u16 .ro .dev (.num 176) [] (.none) true,
  orow 0x1000 0x1000 0x06 0x06 (.dom 48 48) .ro .dev (.bytes Config.deviceIdDigest) [] (.none) true,
  orow 0x1000 0x1000 0x07 0x07 .u8 .ro .dev (.num 1) [] (.none) true,
  orow 0x1000 0x1000 0x08 0x08 .u16 .ro .dev (.num 256) [] (.none) true,
  orow 0x1000 0x1000 0x09 0x09 .u32 .ro .dev (.num 0) [] (.none) true,
  orow 0x1000 0x1000 0x0A 0x0A .u64 .ro .dev (.num 0) [] (.none) true,
  orow 0x1010 0x1010 0x01 0x01 .bitmap64 .ev .dev (.num 0) [] (.none) true,
  orow 0x1010 0x1010 0x02 0x02 .bitmap64 .ev .dev (.num 0) [] (.none) true,
  orow 0x1010 0x1010 0x03 0x03 .time96 .ro .dev (.num 0) [] (.none) true,
  orow 0x1018 0x1018 0x01 0x01 .u32 .ro .dev (.num 0) [] (.none) true,
  orow 0x1018 0x1018 0x02 0x02 .u8 .ev .dev (.num 0) [] (.none) true,
  orow 0x1018 0x1018 0x03 0x03 .u32 .wo .dev (.num 0) [] (.none) true,
  orow 0x1020 0x1020 0x01 0x01 .u32 .ev .dev (.num 0) [] (.none) true,
  orow 0x1020 0x1020 0x02 0x02 .u32 .ro .dev (.num 0) [] (.none) true,
  orow 0x1021 0x1021 0x01 0x40 (.dom 32 32) .ro .dev (.zeros 32) [] (.none) true]

/-- Table 1.15, rows from 1. -/
def table_1_15_0 : List ObjRow := [
  orow 0x1100 0x1100 0x01 0x01 .u16 .rw .dev (.num 100) [(10, 1000, 1)] (.none) true,
  orow 0x1100 0x1100 0x02 0x02 .u8 .rw .dev (.num 3) [(2, 8, 1)] (.none) true,
  orow 0x1100 0x1100 0x03 0x03 .u16 .rw .dev (.num 10000) [(1000, 60000, 1)] (.none) true,
  orow 0x1101 0x1101 0x01 0x01 .u8 .rw .dev (.num 0) [(0, 3, 1)] (.none) true,
  orow 0x1101 0x1101 0x02 0x02 .u16 .ro .dev (.num 51270) [] (.none) true,
  orow 0x1101 0x1101 0x03 0x03 .u32 .ro .dev (.num 0) [] (.none) true,
  orow 0x1101 0x1101 0x04 0x04 .u32 .ro .dev (.num 0) [] (.none) true,
  orow 0x1102 0x1102 0x01 0x01 .u8 .rw .dev (.num 0) [(0, 1, 1)] (.none) true,
  orow 0x1102 0x1102 0x02 0x02 .u32 .ro .dev (.num 0) [] (.none) true,
  orow 0x1103 0x1103 0x01 0x01 .u32 .ro .ten (.num 0) [] (.none) true,
  orow 0x1110 0x111F 0x01 0x01 .u8 .ev .dev (.num 0) [] (.none) true,
  orow 0x1110 0x111F 0x02 0x02 .u8 .rwi .dev (.num 0) [(0, 31, 1)] (.none) true,
  orow 0x1110 0x111F 0x03 0x03 .u8 .rwi .dev (.num 0) [(0, 3, 1)] (.none) true,
  orow 0x1110 0x111F 0x04 0x04 (.dom 18 18) .rwi .dev (.zeros 18) [] (.none) true,
  orow 0x1110 0x111F 0x05 0x05 (.dom 32 32) .wo .dev (.zeros 0) [] (.none) true,
  orow 0x1110 0x111F 0x06 0x06 .u64 .ro .dev (.num 0) [] (.none) true,
  orow 0x1110 0x111F 0x07 0x07 .u64 .ro .dev (.num 0) [] (.none) true,
  orow 0x1110 0x111F 0x08 0x08 .u8 .wo .dev (.num 0) [(1, 1, 1)] (.none) true]

/-- Table 1.16, rows from 1. -/
def table_1_16_0 : List ObjRow := [
  orow 0x1200 0x1200 0x01 0x04 .u8 .ev .dev (.num 255) [] (.none) true,
  orow 0x1201 0x1201 0x01 0x08 .u8 .ev .dev (.num 255) [] (.none) true,
  orow 0x1202 0x1202 0x01 0x08 .u8 .ev .dev (.num 255) [] (.none) true,
  orow 0x1203 0x1203 0x01 0x08 .u8 .ev .dev (.num 255) [] (.none) true,
  orow 0x1204 0x1204 0x01 0x01 .u8 .ev .dev (.num 255) [] (.none) true,
  orow 0x1205 0x1205 0x01 0x60 .u8 .ev .dev (.num 255) [] (.none) true,
  orow 0x12F0 0x12F0 0x01 0x01 .u32 .rw .dev (.num 1) [] (.none) true,
  orow 0x12F0 0x12F0 0x02 0x02 .u32 .rw .dev (.num 1) [] (.none) true,
  orow 0x12F0 0x12F0 0x03 0x03 .u32 .rw .dev (.num 1) [] (.none) true,
  orow 0x12F0 0x12F0 0x04 0x04 .u32 .rw .dev (.num 1) [] (.none) true,
  orow 0x12F0 0x12F0 0x05 0x05 .u32 .rw .dev (.num 1) [] (.none) true,
  orow 0x12F0 0x12F0 0x06 0x06 .u32 .rw .dev (.num 1) [] (.none) true]

/-- Table 3.8, rows from 1. -/
def table_3_8_0 : List ObjRow := [
  orow 0x2000 0x2000 0x01 0x09 .u16 .ro .dev (.num 0) [] (.fixed 0x33) true,
  orow 0x2001 0x2001 0x01 0x05 .u8 .ro .dev (.num 0) [] (.fixed 0x33) true,
  orow 0x2002 0x2002 0x01 0x09 .u8 .ev .dev (.num 0) [] (.fixed 0x33) true,
  orow 0x2010 0x2012 0x01 0x01 .u16 .ro .dev (.num 0) [] (.byIdx 0x30 0x2010) true,
  orow 0x2010 0x2012 0x02 0x02 .u32 .ro .dev (.num 0) [] (.byIdx 0x30 0x2010) true,
  orow 0x2010 0x2010 0x03 0x03 .u8 .ro .dev (.num 8) [] (.fixed 0x30) true,
  orow 0x2011 0x2011 0x03 0x03 .u8 .ro .dev (.num 8) [] (.fixed 0x31) true,
  orow 0x2012 0x2012 0x03 0x03 .u8 .ro .dev (.num 4) [] (.fixed 0x32) true,
  orow 0x2010 0x2010 0x04 0x04 .u16 .ev .dev (.num 255) [] (.fixed 0x30) true,
  orow 0x2011 0x2011 0x04 0x04 .u16 .ev .dev (.num 255) [] (.fixed 0x31) true,
  orow 0x2012 0x2012 0x04 0x04 .u16 .ev .dev (.num 15) [] (.fixed 0x32) true,
  orow 0x2010 0x2012 0x05 0x05 .u32 .ro .dev (.num 0) [] (.byIdx 0x30 0x2010) true,
  orow 0x2010 0x2010 0x08 0x08 .u32 .ro .dev (.num 26000) [] (.fixed 0x30) true,
  orow 0x2011 0x2011 0x08 0x08 .u32 .ro .dev (.num 26000) [] (.fixed 0x31) true,
  orow 0x2012 0x2012 0x08 0x08 .u32 .ro .dev (.num 7500) [] (.fixed 0x32) true,
  orow 0x2010 0x2010 0x09 0x09 .u16 .ro .dev (.num 1200) [] (.fixed 0x30) true,
  orow 0x2011 0x2011 0x09 0x09 .u16 .ro .dev (.num 1200) [] (.fixed 0x31) true,
  orow 0x2012 0x2012 0x09 0x09 .u16 .ro .dev (.num 0) [] (.fixed 0x32) true,
  orow 0x2010 0x2012 0x0A 0x0A .u32 .ro .dev (.num 0) [] (.byIdx 0x30 0x2010) true,
  orow 0x2010 0x2012 0x0B 0x0B .u8 .ev .dev (.num 0) [] (.byIdx 0x30 0x2010) true,
  orow 0x2020 0x2020 0x01 0x02 .u16 .rw .dev (.num 13500) [(4000, 13500, 1)] (.bySub 0x30) true,
  orow 0x2021 0x2021 0x01 0x03 .u32 .ro .dev (.num 0) [] (.none) false,
  orow 0x2022 0x2022 0x01 0x01 .u32 .ro .dev (.num 0) [] (.none) false,
  orow 0x2030 0x2030 0x01 0x01 .u16 .ro .dev (.num 500) [] (.none) false]

/-- Table 4.9, rows from 1. -/
def table_4_9_0 : List ObjRow := [
  orow 0x2100 0x2100 0x01 0x01 .u8 .ev .dev (.num 0) [] (.none) true,
  orow 0x2100 0x2100 0x03 0x03 .u8 .ev .dev (.num 0) [] (.none) true,
  orow 0x2100 0x2100 0x04 0x04 .u16 .ro .dev (.num 0) [] (.none) true,
  orow 0x2100 0x2100 0x05 0x05 .u16 .ro .dev (.num Config.fuseTrim) [] (.none) true,
  orow 0x2101 0x2101 0x01 0x3C .u32 .ro .dev (.num 0) [] (.none) true,
  orow 0x2102 0x2102 0x01 0x3C .u8 .ro .dev (.num 0) [] (.none) true,
  orow 0x2103 0x2103 0x01 0x01 .u16 .ev .dev (.num 0) [] (.none) true,
  orow 0x2103 0x2103 0x02 0x02 .u32 .ro .dev (.num 0) [] (.none) true,
  orow 0x2104 0x2104 0x01 0x04 .u16 .ro .dev (.num 0) [] (.none) true,
  orow 0x2110 0x2110 0x01 0x01 .u8 .ro .dev (.num 0) [] (.none) true,
  orow 0x2110 0x2110 0x02 0x02 .u8 .ro .dev (.num 0) [] (.none) true,
  orow 0x2110 0x2110 0x03 0x03 .u8 .wo .dev (.num 0) [(0, 19, 1), (24, 28, 1), (32, 40, 1), (47, 47, 1), (53, 53, 1)] (.none) true,
  orow 0x2111 0x2111 0x01 0x36 .u32 .ro .dev (.num 0) [] (.none) true]

/-- Table 5.13, rows from 1. -/
def table_5_13_0 : List ObjRow := [
  orow 0x2200 0x2200 0x01 0x01 .u8 .ev .dev (.num 4) [] (.none) true,
  orow 0x2200 0x2200 0x02 0x02 .u8 .rw .dev (.num 4) [(1, 4, 1)] (.none) true,
  orow 0x2200 0x2200 0x03 0x03 .u8 .ro .dev (.num 0) [] (.none) true,
  orow 0x2200 0x2200 0x04 0x04 .u8 .ro .dev (.num 0) [] (.none) true,
  orow 0x2200 0x2200 0x05 0x05 .u8 .ro .dev (.num 0) [] (.none) true,
  orow 0x2200 0x2200 0x06 0x06 .time96 .ro .dev (.num 0) [] (.none) true,
  orow 0x2200 0x2200 0x07 0x07 .u32 .ro .dev (.num 0) [] (.none) true,
  orow 0x2201 0x2201 0x01 0x01 .u8 .rwi .dev (.num 0) [(0, 3, 1)] (.none) true,
  orow 0x2201 0x2201 0x02 0x02 .u8 .rwi .dev (.num 0) [(0, 3, 1)] (.none) true,
  orow 0x2201 0x2201 0x03 0x03 .u16 .rw .dev (.num 400) [(200, 400, 25)] (.none) true,
  orow 0x2201 0x2201 0x04 0x04 .u8 .rwi .dev (.num 0) [(0, 2, 1)] (.none) true,
  orow 0x2201 0x2201 0x05 0x05 .u8 .rwi .dev (.num 0) [(0, 31, 1)] (.none) true,
  orow 0x2201 0x2201 0x06 0x06 .u16 .rw .dev (.num 40960) [] (.none) true,
  orow 0x2201 0x2201 0x07 0x07 .u16 .rw .dev (.num 57344) [] (.none) true,
  orow 0x2201 0x2201 0x08 0x08 .u16 .rw .dev (.num 400) [(50, 2000, 1)] (.none) true,
  orow 0x2201 0x2201 0x09 0x09 .u16 .rw .dev (.num 1500) [(200, 10000, 1)] (.none) true,
  orow 0x2201 0x2201 0x0A 0x0A .u16 .ro .dev (.num 0) [] (.none) true,
  orow 0x2202 0x2202 0x01 0x01 .u32 .rw .dev (.num 30000) [(0, 0, 1), (1000, 3600000, 1)] (.none) true,
  orow 0x2202 0x2202 0x02 0x02 .u32 .rw .dev (.num 5000) [(0, 0, 1), (100, 600000, 1)] (.none) true,
  orow 0x2202 0x2202 0x03 0x03 .u32 .rw .dev (.num 60000) [(0, 0, 1), (1000, 3600000, 1)] (.none) true,
  orow 0x2202 0x2202 0x04 0x04 .u8 .rw .dev (.num 2) [(1, 4, 1)] (.none) true,
  orow 0x2203 0x2203 0x01 0x01 .u16 .rw .dev (.num 100) [(10, 1000, 1)] (.none) true,
  orow 0x2203 0x2203 0x02 0x02 .u16 .rw .dev (.num 1000) [(100, 10000, 1)] (.none) true,
  orow 0x2204 0x2204 0x01 0x50 .u8 .ro .dev (.num 0) [] (.none) true,
  orow 0x2205 0x2205 0x01 0x01 .u8 .rwi .dev (.num 0) [(0, 31, 1)] (.fixed 0x2A) true,
  orow 0x2205 0x2205 0x02 0x02 .u32 .rw .ten (.num 4294967295) [(0, 983039, 64), (4294967295, 4294967295, 1)] (.fixed 0x2A) true,
  orow 0x2205 0x2205 0x03 0x03 .u32 .rw .ten (.num 0) [(0, 983031, 1)] (.fixed 0x2A) true,
  orow 0x2205 0x2205 0x04 0x04 (.dom 1 65536) .wo .ten (.zeros 0) [] (.fixed 0x2A) true,
  orow 0x2205 0x2205 0x05 0x05 .u32 .ro .dev (.num 0) [] (.fixed 0x2A) true,
  orow 0x2206 0x2206 0x01 0x01 .u32 .rw .ten (.num 4294967295) [(0, 2097151, 64), (4294967295, 4294967295, 1)] (.midCore) false,
  orow 0x2206 0x2206 0x02 0x02 .u32 .ro .dev (.num 0) [] (.midCore) false,
  orow 0x2210 0x2210 0x01 0x01 .u8 .ro .dev (.num 0) [] (.none) true,
  orow 0x2210 0x2210 0x02 0x02 .u8 .rw .dev (.num 4) [(0, 0, 1), (2, 4, 1)] (.none) true,
  orow 0x2210 0x2210 0x03 0x03 .u8 .rw .dev (.num 3) [(0, 0, 1), (2, 4, 1)] (.none) true,
  orow 0x2210 0x2210 0x04 0x04 .u8 .rw .dev (.num 0) [(0, 0, 1), (2, 4, 1)] (.none) true,
  orow 0x2210 0x2210 0x05 0x05 .u8 .rw .dev (.num 3) [(0, 0, 1), (2, 4, 1)] (.none) true,
  orow 0x2210 0x2210 0x06 0x06 .u8 .rw .dev (.num 2) [(0, 0, 1), (2, 4, 1)] (.none) true,
  orow 0x2210 0x2210 0x07 0x07 .u8 .rw .dev (.num 2) [(0, 0, 1), (2, 4, 1)] (.none) true,
  orow 0x2210 0x2210 0x08 0x08 .u8 .rw .dev (.num 0) [(0, 0, 1), (2, 4, 1)] (.none) true,
  orow 0x2210 0x2210 0x09 0x09 .u8 .ev .dev (.num 255) [] (.none) true]

/-- Table 5.13, rows from 41. -/
def table_5_13_1 : List ObjRow := [
  orow 0x2210 0x2210 0x0A 0x0A .time96 .ro .dev (.num 0) [] (.none) true,
  orow 0x2211 0x2211 0x01 0x10 .u32 .ro .dev (.num 0) [] (.none) false,
  orow 0x2220 0x2220 0x01 0x01 .u32 .ro .dev (.num 0) [] (.none) false,
  orow 0x2220 0x2220 0x02 0x02 .u32 .ro .dev (.num 0) [] (.none) false,
  orow 0x2220 0x2220 0x03 0x03 .u32 .ro .dev (.num 0) [] (.none) false,
  orow 0x2220 0x2220 0x04 0x04 .u32 .ro .dev (.num 0) [] (.none) false,
  orow 0x2220 0x2220 0x05 0x05 .u32 .ro .dev (.num 0) [] (.none) false,
  orow 0x2220 0x2220 0x06 0x06 .u32 .ro .dev (.num 0) [] (.none) false,
  orow 0x2220 0x2220 0x07 0x07 (.dom 24 24) .ev .dev (.zeros 24) [] (.none) false,
  orow 0x2221 0x2221 0x01 0x36 .u32 .ro .dev (.num 0) [] (.none) false,
  orow 0x2230 0x2230 0x01 0x04 .u16 .rw .dev (.num 200) [(200, 1200, 25)] (.none) false,
  orow 0x2231 0x2231 0x01 0x04 .u16 .rw .dev (.num 1200) [(200, 1200, 25)] (.none) false,
  orow 0x2232 0x2232 0x01 0x02 .u16 .rw .dev (.num 600) [(600, 850, 5)] (.none) false,
  orow 0x2233 0x2233 0x01 0x02 .u16 .rw .dev (.num 850) [(600, 850, 5)] (.none) false,
  orow 0x2234 0x2234 0x01 0x06 .u8 .ev .dev (.num 0) [] (.none) false,
  orow 0x2235 0x2235 0x01 0x01 .i16 .rw .dev (.grade 102 112) [(70, 115, 1)] (.fixed 0x33) true,
  orow 0x2235 0x2235 0x02 0x02 .i16 .ro .dev (.grade 113 123) [] (.fixed 0x33) true,
  orow 0x2236 0x2236 0x01 0x04 .i16 .ro .dev (.num 0) [] (.none) false]

/-- Table 6.11, rows from 1. -/
def table_6_11_0 : List ObjRow := [
  orow 0x6000 0x6000 0x01 0x10 .u8 .ro .dev (.num 0) [] (.bySub 0) false,
  orow 0x6001 0x6001 0x01 0x10 .u8 .ro .dev (.num 255) [] (.bySub 0) false,
  orow 0x6002 0x6002 0x01 0x10 .u8 .rwi .dev (.num 1) [(0, 1, 1)] (.bySub 0) false,
  orow 0x6003 0x6003 0x01 0x10 .u64 .ro .dev (.num 0) [] (.bySub 0) false,
  orow 0x6004 0x6004 0x01 0x10 .u64 .ro .dev (.num 0) [] (.bySub 0) false,
  orow 0x6005 0x6005 0x01 0x10 .u64 .ro .dev (.num 0) [] (.bySub 0) false,
  orow 0x6006 0x6006 0x01 0x10 .u64 .ro .dev (.num 0) [] (.bySub 0) false,
  orow 0x6007 0x6007 0x01 0x10 .u32 .ro .dev (.num 0) [] (.bySub 0) false,
  orow 0x6008 0x6008 0x01 0x10 .u32 .ro .dev (.num 0) [] (.bySub 0) false,
  orow 0x6010 0x6010 0x01 0x04 .u8 .ro .dev (.num 0) [] (.bySub 0x10) false,
  orow 0x6011 0x6011 0x01 0x04 .u8 .ro .dev (.num 0) [] (.bySub 0x10) false,
  orow 0x6020 0x6023 0x01 0x10 .u8 .ro .dev (.num 255) [] (.byIdx 0x10 0x6020) false,
  orow 0x6030 0x6033 0x01 0x04 .u8 .ro .dev (.num 255) [] (.byIdx 0x10 0x6030) false,
  orow 0x6030 0x6033 0x05 0x08 .u8 .ro .dev (.num 0) [] (.byIdx 0x10 0x6030) false,
  orow 0x6030 0x6033 0x09 0x0C .u32 .ro .dev (.num 0) [] (.byIdx 0x10 0x6030) false,
  orow 0x6040 0x6040 0x01 0x04 .u8 .ev .dev (.num 0) [] (.rccSub) false,
  orow 0x6040 0x6040 0x05 0x08 .u32 .ro .dev (.num 0) [] (.rccSub) false,
  orow 0x6050 0x6050 0x01 0x01 .u16 .ro .ten (.num 0) [] (.none) false,
  orow 0x6050 0x6050 0x02 0x02 .u8 .ev .ten (.num 0) [] (.none) false,
  orow 0x6050 0x6050 0x03 0x03 .u32 .ro .ten (.num 0) [] (.none) false,
  orow 0x6050 0x6050 0x04 0x04 .u64 .ro .dev (.num 0) [] (.none) false]

/-- Table 7.13, rows from 1. -/
def table_7_13_0 : List ObjRow := [
  orow 0x6100 0x6100 0x01 0x01 .bitmap64 .ro .dev (.num 510) [] (.none) false,
  orow 0x6100 0x6100 0x02 0x02 .u8 .ro .dev (.num 31) [] (.none) false,
  orow 0x6100 0x6100 0x03 0x03 .u16 .ro .dev (.num 255) [] (.none) false,
  orow 0x6100 0x6100 0x04 0x04 .u8 .ro .dev (.num 32) [] (.none) false,
  orow 0x6101 0x6101 0x01 0x01 .u64 .ro .ten (.num 0) [] (.none) false,
  orow 0x6101 0x6101 0x02 0x02 .u32 .ro .ten (.num 0) [] (.none) false,
  orow 0x6101 0x6101 0x03 0x03 .u32 .ro .ten (.num 0) [] (.none) false,
  orow 0x6101 0x6101 0x04 0x04 .u32 .ro .ten (.num 0) [] (.none) false,
  orow 0x6101 0x6101 0x05 0x05 .u64 .ro .ten (.num 0) [] (.none) false,
  orow 0x6101 0x6101 0x06 0x06 .u32 .ro .ten (.num 0) [] (.none) false,
  orow 0x6101 0x6101 0x07 0x07 .u8 .ev .ten (.num 0) [] (.none) false,
  orow 0x6102 0x6102 0x01 0x01 .u64 .rwi .ten (.num 0) [(0, 18446744073709551615, 4096)] (.none) false,
  orow 0x6102 0x6102 0x02 0x02 .u32 .rwi .ten (.num 0) [(0, 268435456, 4096)] (.none) false]

/-- Table 12.8, rows from 1. -/
def table_12_8_0 : List ObjRow := [
  orow 0x7000 0x7000 0x01 0x01 .u32 .ro .dev (.num 16384) [] (.none) false,
  orow 0x7000 0x7000 0x02 0x02 .u16 .ro .dev (.num 8533) [] (.none) false,
  orow 0x7000 0x7000 0x03 0x03 .u8 .ro .dev (.num 32) [] (.none) false,
  orow 0x7001 0x7001 0x01 0x10 .u8 .ro .dev (.num 0) [] (.none) false,
  orow 0x7002 0x7002 0x01 0x10 .u8 .ro .dev (.num 255) [] (.none) false,
  orow 0x7003 0x7003 0x01 0x02 .u8 .rwi .dev (.num 254) [(300, 300, 1)] (.fixed 0x18) false,
  orow 0x7003 0x7003 0x03 0x20 .u8 .rwi .dev (.num 255) [(0, 31, 1), (255, 255, 1)] (.fixed 0x18) false,
  orow 0x7004 0x7004 0x01 0x01 .u64 .ro .ten (.num 0) [] (.none) false,
  orow 0x7004 0x7004 0x02 0x02 .u32 .ro .ten (.num 0) [] (.none) false,
  orow 0x7004 0x7004 0x03 0x03 .u16 .ro .ten (.num 0) [] (.none) false,
  orow 0x7008 0x7008 0x01 0x01 .u8 .rw .dev (.num 0) [(0, 3, 1)] (.none) false,
  orow 0x7008 0x7008 0x02 0x02 .u8 .rw .dev (.num 3) [(0, 3, 1)] (.none) false,
  orow 0x7008 0x7008 0x03 0x03 .u8 .ev .dev (.num 0) [] (.none) false,
  orow 0x7009 0x7009 0x01 0x10 .u8 .ro .dev (.num 1) [] (.none) false,
  orow 0x700A 0x700A 0x01 0x04 .i16 .ro .dev (.num 0) [] (.none) false,
  orow 0x7010 0x7010 0x01 0x04 .u8 .rwi .ten (.num 0) [(0, 15, 1)] (.none) false,
  orow 0x7011 0x7011 0x01 0x01 .u8 .rw .ten (.num 2) [(0, 8, 1)] (.none) false,
  orow 0x7011 0x7011 0x02 0x02 .bool .rw .ten (.num 0) [] (.none) false,
  orow 0x7020 0x7020 0x01 0x01 .u64 .ro .ten (.num 0) [] (.none) false,
  orow 0x7020 0x7020 0x02 0x02 .u64 .ro .ten (.num 0) [] (.none) false,
  orow 0x7020 0x7020 0x03 0x03 .u32 .ro .ten (.num 0) [] (.none) false,
  orow 0x7020 0x7020 0x04 0x04 .u32 .ro .ten (.num 0) [] (.none) false,
  orow 0x7020 0x7020 0x05 0x05 .u32 .ro .ten (.num 0) [] (.none) false,
  orow 0x7020 0x7020 0x06 0x06 .u32 .ro .ten (.num 0) [] (.none) false,
  orow 0x7020 0x7020 0x07 0x07 .u32 .ro .ten (.num 0) [] (.none) false,
  orow 0x7021 0x7021 0x01 0x01 .u32 .ro .dev (.num 0) [] (.none) false,
  orow 0x7021 0x7021 0x02 0x02 .u32 .ro .dev (.num 0) [] (.none) false,
  orow 0x7021 0x7021 0x03 0x03 .u32 .ro .dev (.num 0) [] (.none) false,
  orow 0x7021 0x7021 0x04 0x04 .u32 .ro .dev (.num 0) [] (.none) false,
  orow 0x7030 0x7030 0x01 0x10 .u64 .ro .dev (.num 0) [] (.none) false,
  orow 0x7031 0x7031 0x01 0x10 .u64 .ro .dev (.num 0) [] (.none) false,
  orow 0x7040 0x704F 0x01 0x0C .u64 .ro .dev (.num 0) [] (.none) false,
  orow 0x7050 0x7050 0x01 0x0C .u64 .ro .ten (.num 0) [] (.none) false]

/-- Table 13.4, rows from 1. -/
def table_13_4_0 : List ObjRow := [
  orow 0x6200 0x6200 0x01 0x01 .u32 .rw .dev (.num 2000) [(100, 100000, 1)] (.none) false,
  orow 0x6201 0x6201 0x01 0x04 .u8 .rw .ten (.num 0) [(0, 15, 1)] (.none) false,
  orow 0x6202 0x6202 0x01 0x01 .bool .rw .ten (.num 0) [] (.none) false,
  orow 0x6202 0x6202 0x02 0x02 .u8 .rw .ten (.num 1) [(1, 255, 1)] (.none) false,
  orow 0x6202 0x6202 0x03 0x03 .u64 .rw .ten (.num 0) [(0, 18446744073709551615, 4096)] (.none) false,
  orow 0x6202 0x6202 0x04 0x04 .u32 .rw .ten (.num 0) [(0, 35651584, 4096)] (.none) false,
  orow 0x6203 0x6203 0x01 0x04 .u16 .rw .ten (.num 0) [] (.none) false,
  orow 0x6204 0x6204 0x01 0x01 .u16 .rwi .ten (.num 0) [] (.none) false,
  orow 0x6205 0x6205 0x01 0x01 .u32 .ro .ten (.num 0) [] (.none) false,
  orow 0x6205 0x6205 0x02 0x02 .u32 .ro .ten (.num 0) [] (.none) false,
  orow 0x6205 0x6205 0x03 0x03 .u32 .ro .ten (.num 0) [] (.none) false,
  orow 0x6206 0x6206 0x01 0x10 .u8 .ro .dev (.num 255) [] (.none) false,
  orow 0x6210 0x6210 0x01 0x10 .u8 .ro .dev (.num 255) [] (.none) false,
  orow 0x6211 0x6211 0x01 0x10 .u32 .ro .dev (.num 0) [] (.none) false,
  orow 0x6212 0x6212 0x01 0x10 .u32 .ro .dev (.num 0) [] (.none) false,
  orow 0x6213 0x6213 0x01 0x10 .u32 .ro .dev (.num 0) [] (.none) false]

/-- Table 13.5, rows from 1. -/
def table_13_5_0 : List ObjRow := [
  orow 0x6300 0x6300 0x01 0x01 .u16 .rw .dev (.num 1000) [(250, 10000, 1)] (.none) false,
  orow 0x6300 0x6300 0x02 0x02 .u64 .ro .dev (.num 0) [] (.none) false,
  orow 0x6310 0x6310 0x01 0x0D .u16 .rw .ten (.num 0) [(0, 1024, 1)] (.none) false,
  orow 0x6311 0x6311 0x01 0x0D .u16 .rw .ten (.num 1024) [(0, 1024, 1)] (.none) false,
  orow 0x6312 0x6312 0x01 0x0D .u16 .rw .ten (.num 1024) [(0, 1024, 1)] (.none) false,
  orow 0x6318 0x6318 0x01 0x0D .u64 .ro .ten (.num 0) [] (.none) false,
  orow 0x6319 0x6319 0x01 0x0D .u64 .ro .ten (.num 0) [] (.none) false,
  orow 0x631A 0x631A 0x01 0x0D .u64 .ro .ten (.num 0) [] (.none) false,
  orow 0x631B 0x631B 0x01 0x0D .u64 .ro .ten (.num 0) [] (.none) false,
  orow 0x631C 0x631C 0x01 0x0D .u32 .ro .ten (.num 0) [] (.none) false,
  orow 0x631D 0x631D 0x01 0x0D .u32 .ro .ten (.num 0) [] (.none) false,
  orow 0x6320 0x6320 0x01 0x0D .u16 .ro .dev (.num 0) [] (.none) false]

/-- Table 14.10, rows from 1. -/
def table_14_10_0 : List ObjRow := [
  orow 0x4000 0x4000 0x01 0x08 .u8 .rwi .dev (.num 0) [(0, 2, 1)] (.fixed 0x27) true,
  orow 0x4001 0x4001 0x01 0x08 .u8 .rwi .dev (.num 0) [(0, 2, 1)] (.fixed 0x27) true,
  orow 0x4002 0x4002 0x01 0x08 .u8 .rwi .dev (.num 0) [(0, 24, 6)] (.fixed 0x27) true,
  orow 0x4003 0x4003 0x01 0x08 .u32 .rw .dev (.num 4194304) [(0, 16777215, 1)] (.fixed 0x27) true,
  orow 0x4004 0x4004 0x01 0x08 .u16 .rw .dev (.num 0) [(0, 2047, 1)] (.fixed 0x27) true,
  orow 0x4005 0x4005 0x01 0x02 .u16 .rwi .dev (.num 1800) [(1600, 2800, 50)] (.fixed 0x27) true,
  orow 0x4005 0x4005 0x03 0x03 .u8 .ev .dev (.num 0) [] (.fixed 0x27) true,
  orow 0x4006 0x4006 0x01 0x01 .u8 .rwi .dev (.num 0) [(0, 2, 1)] (.fixed 0x27) true,
  orow 0x4007 0x4007 0x01 0x08 .u32 .ro .dev (.num 0) [] (.fixed 0x27) true,
  orow 0x4010 0x4010 0x01 0x01 .u8 .rw .dev (.num 0) [(0, 15, 1)] (.fixed 0x27) true,
  orow 0x4010 0x4010 0x02 0x02 .i16 .rw .dev (.num 65136) [(-1000, -200, 5)] (.fixed 0x27) true,
  orow 0x4010 0x4010 0x03 0x03 .u16 .rw .dev (.num 120) [(30, 300, 5)] (.fixed 0x27) true,
  orow 0x4010 0x4010 0x04 0x04 .i16 .rw .dev (.num 64536) [(-1000, -200, 5)] (.fixed 0x27) true,
  orow 0x4010 0x4010 0x05 0x05 .i16 .rw .dev (.num 65336) [(-1000, -200, 5)] (.fixed 0x27) true,
  orow 0x4010 0x4010 0x06 0x06 .u16 .rw .dev (.num 2000) [(100, 10000, 1)] (.fixed 0x27) true,
  orow 0x4011 0x4011 0x01 0x04 .i16 .ro .dev (.num 65136) [] (.fixed 0x27) true,
  orow 0x4011 0x4011 0x05 0x08 .i16 .ro .dev (.num 32768) [] (.fixed 0x27) true,
  orow 0x4012 0x4012 0x01 0x01 .u8 .ev .dev (.num 0) [] (.fixed 0x27) true,
  orow 0x4012 0x4012 0x02 0x02 .u16 .ro .dev (.num 1500) [] (.fixed 0x27) true,
  orow 0x4013 0x4013 0x01 0x01 .u32 .ev .dev (.num 0) [] (.fixed 0x27) true,
  orow 0x4013 0x4013 0x02 0x02 .u32 .ro .dev (.num 0) [] (.fixed 0x27) true,
  orow 0x4013 0x4013 0x03 0x03 .u32 .ro .dev (.num 0) [] (.fixed 0x27) true,
  orow 0x4020 0x4020 0x01 0x01 .u8 .rwi .dev (.num 15) [] (.fixed 0x29) true,
  orow 0x4020 0x4020 0x02 0x02 .u8 .rwi .dev (.num 20) [(16, 16, 1), (20, 20, 1)] (.fixed 0x29) true,
  orow 0x4020 0x4020 0x03 0x03 .u8 .ev .dev (.num 0) [] (.fixed 0x29) true,
  orow 0x4020 0x4020 0x04 0x04 .u32 .ro .dev (.num 0) [] (.fixed 0x29) true,
  orow 0x4020 0x4020 0x05 0x05 .time96 .ro .dev (.num 0) [] (.fixed 0x29) true,
  orow 0x4020 0x4020 0x06 0x06 .bool .ro .dev (.num 0) [] (.fixed 0x29) true,
  orow 0x4020 0x4020 0x07 0x07 .u16 .rw .dev (.num 0) [(0, 0, 1), (100, 16000, 1)] (.fixed 0x29) true,
  orow 0x4020 0x4020 0x08 0x08 .u16 .rw .dev (.num 5000) [(500, 30000, 1)] (.fixed 0x29) true,
  orow 0x4020 0x4020 0x09 0x09 .u8 .ro .dev (.num 16) [] (.fixed 0x29) true,
  orow 0x4021 0x4021 0x01 0x01 .u8 .rwi .ten (.num 255) [(0, 95, 1), (255, 255, 1)] (.fixed 0x29) true,
  orow 0x4021 0x4021 0x02 0x02 .u8 .wo .ten (.num 0) [(1, 2, 1)] (.fixed 0x29) true,
  orow 0x4022 0x4022 0x01 0x01 .u32 .ro .dev (.num 0) [] (.fixed 0x29) true,
  orow 0x4022 0x4022 0x02 0x02 .u32 .ro .dev (.num 0) [] (.fixed 0x29) true,
  orow 0x4022 0x4022 0x03 0x03 .u32 .ro .dev (.num 0) [] (.fixed 0x29) true,
  orow 0x4022 0x4022 0x04 0x04 .u32 .ro .dev (.num 0) [] (.fixed 0x29) true,
  orow 0x4022 0x4022 0x05 0x05 .u32 .ro .dev (.num 0) [] (.fixed 0x29) true,
  orow 0x4030 0x4030 0x01 0x02 .u8 .rwi .dev (.num 0) [(0, 2, 1)] (.fixed 0x28) false,
  orow 0x4030 0x4030 0x03 0x04 .u8 .rwi .dev (.num 0) [(0, 2, 1)] (.fixed 0x28) false]

/-- Table 14.10, rows from 41. -/
def table_14_10_1 : List ObjRow := [
  orow 0x4030 0x4030 0x05 0x06 .u8 .rwi .dev (.num 0) [(0, 7, 1)] (.fixed 0x28) false,
  orow 0x4031 0x4031 0x01 0x02 .u8 .rw .ten (.num 0) [] (.fixed 0x28) false,
  orow 0x4031 0x4031 0x03 0x04 .u8 .rw .ten (.num 0) [] (.fixed 0x28) false,
  orow 0x4032 0x4032 0x01 0x02 .u8 .ev .dev (.num 0) [] (.fixed 0x28) false,
  orow 0x4032 0x4032 0x03 0x04 .i32 .ro .dev (.num 0) [] (.fixed 0x28) false,
  orow 0x4032 0x4032 0x05 0x06 .u32 .ro .dev (.num 0) [] (.fixed 0x28) false,
  orow 0x4032 0x4032 0x07 0x08 .u32 .ro .dev (.num 0) [] (.fixed 0x28) false]

/-- Table 15.8, rows from 1. -/
def table_15_8_0 : List ObjRow := [
  orow 0x5000 0x5000 0x01 0x01 .u8 .ev .dev (.num 1) [] (.none) false,
  orow 0x5000 0x5000 0x02 0x02 .u32 .ro .dev (.num 0) [] (.none) false,
  orow 0x5000 0x5000 0x03 0x03 .u8 .rwi .dev (.num 255) [(0, 15, 1), (255, 255, 1)] (.fixed 0x25) false,
  orow 0x5000 0x5000 0x04 0x04 .u16 .ro .dev (.num 0) [] (.none) false,
  orow 0x5001 0x5002 0x01 0x01 .u8 .rwi .dev (.num 4) [(1, 2, 1), (4, 4, 1)] (.byIdx 0x23 0x5001) false,
  orow 0x5001 0x5002 0x02 0x02 .u16 .rwi .dev (.num 1500) [(80, 4500, 1)] (.byIdx 0x23 0x5001) false,
  orow 0x5001 0x5002 0x03 0x03 .u8 .rwi .dev (.num 0) [(0, 3, 1)] (.byIdx 0x23 0x5001) false,
  orow 0x5001 0x5002 0x04 0x04 .u8 .rwi .dev (.num 0) [(0, 2, 1)] (.byIdx 0x23 0x5001) false,
  orow 0x5001 0x5002 0x05 0x05 .u8 .ro .dev (.num 0) [] (.byIdx 0x23 0x5001) false,
  orow 0x5001 0x5002 0x06 0x06 .bool .ro .dev (.num 0) [] (.byIdx 0x23 0x5001) false,
  orow 0x5001 0x5002 0x07 0x07 .u32 .ro .dev (.num 0) [] (.byIdx 0x23 0x5001) false,
  orow 0x5001 0x5002 0x08 0x08 .u32 .ro .dev (.num 0) [] (.byIdx 0x23 0x5001) false,
  orow 0x5010 0x501F 0x01 0x01 .u8 .rwi .dev (.num 255) [(0, 31, 1), (255, 255, 1)] (.csi 0x5010) false,
  orow 0x5010 0x501F 0x02 0x02 .u8 .rwi .dev (.num 43) [(30, 30, 1), (36, 36, 1), (42, 46, 1)] (.csi 0x5010) false,
  orow 0x5010 0x501F 0x03 0x03 .u16 .rwi .dev (.num 1920) [(16, 8192, 1)] (.csi 0x5010) false,
  orow 0x5010 0x501F 0x04 0x04 .u16 .rwi .dev (.num 1080) [(16, 8192, 1)] (.csi 0x5010) false,
  orow 0x5010 0x501F 0x05 0x05 .u8 .rwi .dev (.num 0) [(0, 2, 1)] (.csi 0x5010) false,
  orow 0x5010 0x501F 0x06 0x06 .u8 .rwi .dev (.num 0) [(0, 127, 1)] (.csi 0x5010) false,
  orow 0x5010 0x501F 0x07 0x07 .u8 .rw .dev (.num 2) [(0, 7, 1)] (.csi 0x5010) false,
  orow 0x5010 0x501F 0x08 0x08 .u16 .rw .dev (.num 10000) [(500, 60000, 1)] (.csi 0x5010) false,
  orow 0x5010 0x501F 0x09 0x09 .u32 .rw .dev (.num 100000) [(1000, 1000000, 1)] (.csi 0x5010) false,
  orow 0x5010 0x501F 0x0A 0x0A .u16 .rw .dev (.num 64) [] (.csi 0x5010) false,
  orow 0x5010 0x501F 0x0B 0x0B .u16 .rw .dev (.num 4000) [(0, 4095, 1)] (.csi 0x5010) false,
  orow 0x5010 0x501F 0x0C 0x0C .u16 .rwi .dev (.num 0) [] (.csi 0x5010) false,
  orow 0x5010 0x501F 0x0D 0x0D .u32 .ro .dev (.num 0) [] (.csi 0x5010) false,
  orow 0x5010 0x501F 0x0E 0x0E .u32 .ro .dev (.num 0) [] (.csi 0x5010) false,
  orow 0x5010 0x501F 0x0F 0x0F .u32 .ev .dev (.num 4294967295) [] (.csi 0x5010) false,
  orow 0x5010 0x501F 0x10 0x10 .u8 .ro .dev (.num 0) [] (.csi 0x5010) false,
  orow 0x5010 0x501F 0x11 0x11 .bool .rwi .dev (.num 0) [] (.csi 0x5010) false,
  orow 0x5010 0x501F 0x12 0x12 .u16 .rw .dev (.num 512) [(16, 4000, 1)] (.csi 0x5010) false,
  orow 0x5010 0x501F 0x13 0x13 .u16 .rw .dev (.num 1) [(1, 65535, 1)] (.csi 0x5010) false,
  orow 0x5010 0x501F 0x14 0x14 .u16 .rw .dev (.num 1000) [(1, 65535, 1)] (.csi 0x5010) false,
  orow 0x5010 0x501F 0x15 0x15 .u16 .rw .dev (.num 256) [(256, 65535, 1)] (.csi 0x5010) false,
  orow 0x5010 0x501F 0x16 0x16 .u16 .rw .dev (.num 4096) [(256, 65535, 1)] (.csi 0x5010) false,
  orow 0x5010 0x501F 0x17 0x17 (.dom 8 8) .rwi .dev (.zeros 8) [] (.csi 0x5010) false,
  orow 0x5010 0x501F 0x18 0x18 .u16 .ro .dev (.num 0) [] (.csi 0x5010) false,
  orow 0x5010 0x501F 0x19 0x19 .u16 .ro .dev (.num 0) [] (.csi 0x5010) false,
  orow 0x5010 0x501F 0x1A 0x1A (.dom 1024 1024) .rw .dev (.zeros 1024) [] (.csi 0x5010) false,
  orow 0x5020 0x502F 0x01 0x01 .u8 .rw .ten (.num 0) [(0, 1, 1)] (.csi 0x5020) false,
  orow 0x5020 0x502F 0x02 0x02 .u64 .rw .ten (.num 0) [(0, 18446744073709551615, 64)] (.csi 0x5020) false]

/-- Table 15.8, rows from 41. -/
def table_15_8_1 : List ObjRow := [
  orow 0x5020 0x502F 0x03 0x03 .u8 .rw .ten (.num 2) [(1, 8, 1)] (.csi 0x5020) false,
  orow 0x5020 0x502F 0x04 0x04 .u32 .rw .ten (.num 0) [(0, 4294967295, 4096)] (.csi 0x5020) false,
  orow 0x5020 0x502F 0x05 0x05 .u32 .rw .ten (.num 0) [(0, 4294967295, 64)] (.csi 0x5020) false,
  orow 0x5020 0x502F 0x06 0x06 .u8 .rw .ten (.num 0) [(0, 4, 1)] (.csi 0x5020) false,
  orow 0x5020 0x502F 0x07 0x07 .u8 .rw .ten (.num 1) [(1, 2, 1), (4, 4, 1), (8, 8, 1)] (.csi 0x5020) false,
  orow 0x5020 0x502F 0x08 0x08 .u64 .rw .ten (.num 0) [(0, 18446744073709551615, 4096)] (.csi 0x5020) false,
  orow 0x5020 0x502F 0x09 0x09 .u64 .rw .ten (.num 0) [] (.csi 0x5020) false,
  orow 0x5020 0x502F 0x0A 0x0A .u8 .rw .ten (.num 2) [(2, 4, 1)] (.csi 0x5020) false,
  orow 0x5020 0x502F 0x0B 0x0B .u8 .wo .ten (.num 0) [(1, 1, 1)] (.csi 0x5020) false,
  orow 0x5020 0x502F 0x0C 0x0C .u32 .ev .ten (.num 4294967295) [] (.csi 0x5020) false,
  orow 0x5020 0x502F 0x0D 0x0D .bool .ro .ten (.num 0) [] (.csi 0x5020) false,
  orow 0x5020 0x502F 0x0E 0x0E (.dom 8 256) .wo .ten (.zeros 0) [] (.csi 0x5020) false,
  orow 0x5020 0x502F 0x0F 0x0F .u8 .ev .ten (.num 0) [] (.csi 0x5020) false,
  orow 0x5020 0x502F 0x10 0x10 .u32 .ro .ten (.num 0) [] (.csi 0x5020) false,
  orow 0x5030 0x503F 0x01 0x01 .u32 .ro .dev (.num 0) [] (.csi 0x5030) false,
  orow 0x5030 0x503F 0x02 0x02 .u32 .ro .dev (.num 0) [] (.csi 0x5030) false,
  orow 0x5030 0x503F 0x03 0x03 .u32 .ro .dev (.num 0) [] (.csi 0x5030) false,
  orow 0x5030 0x503F 0x04 0x04 .u32 .ro .dev (.num 0) [] (.csi 0x5030) false,
  orow 0x5030 0x503F 0x05 0x05 .u32 .ro .dev (.num 0) [] (.csi 0x5030) false,
  orow 0x5030 0x503F 0x06 0x06 .u32 .ro .dev (.num 0) [] (.csi 0x5030) false,
  orow 0x5030 0x503F 0x07 0x07 .u32 .ro .dev (.num 0) [] (.csi 0x5030) false,
  orow 0x5030 0x503F 0x08 0x08 .u32 .ro .dev (.num 0) [] (.csi 0x5030) false,
  orow 0x5030 0x503F 0x09 0x09 .u32 .ro .dev (.num 0) [] (.csi 0x5030) false,
  orow 0x5030 0x503F 0x0A 0x0A .u32 .ro .dev (.num 0) [] (.csi 0x5030) false,
  orow 0x5030 0x503F 0x0B 0x0B .u32 .ro .dev (.num 0) [] (.csi 0x5030) false,
  orow 0x5030 0x503F 0x0C 0x0C .u32 .ro .dev (.num 0) [] (.csi 0x5030) false]

/-- Table 16.4, rows from 1. -/
def table_16_4_0 : List ObjRow := [
  orow 0x3000 0x3000 0x01 0x01 .time96 .ro .dev (.num 0) [] (.fixed 0x2B) true,
  orow 0x3000 0x3000 0x02 0x02 .stime64 .ro .dev (.num 0) [] (.fixed 0x2B) true,
  orow 0x3000 0x3000 0x03 0x03 .time96 .wo .dev (.num 0) [] (.fixed 0x2B) true,
  orow 0x3000 0x3000 0x04 0x04 .i64 .wo .dev (.num 0) [] (.fixed 0x2B) true,
  orow 0x3000 0x3000 0x05 0x05 .i32 .rw .dev (.num 0) [] (.fixed 0x2B) true,
  orow 0x3001 0x3001 0x01 0x01 .u8 .rw .dev (.num 0) [(0, 2, 1)] (.fixed 0x2B) true,
  orow 0x3001 0x3001 0x02 0x02 .u8 .ev .dev (.num 0) [] (.fixed 0x2B) true,
  orow 0x3001 0x3001 0x03 0x03 .i64 .ro .dev (.num 0) [] (.fixed 0x2B) true,
  orow 0x3001 0x3001 0x04 0x04 .u64 .ro .dev (.num 18446744073709551615) [] (.fixed 0x2B) true,
  orow 0x3001 0x3001 0x05 0x05 .u32 .rw .dev (.num 1000) [(10, 100000, 1)] (.fixed 0x2B) true,
  orow 0x3001 0x3001 0x06 0x06 .time96 .ro .dev (.num 0) [] (.fixed 0x2B) true,
  orow 0x3001 0x3001 0x07 0x07 (.dom 8 8) .ro .dev (.zeros 8) [] (.fixed 0x2B) true,
  orow 0x3001 0x3001 0x08 0x08 .u32 .rw .dev (.num 1000) [(10, 1000000, 1)] (.fixed 0x2B) true,
  orow 0x3001 0x3001 0x09 0x09 .u32 .rw .dev (.num 100000) [(1000, 1000000000, 1)] (.fixed 0x2B) true,
  orow 0x3001 0x3001 0x0A 0x0A .u32 .rw .dev (.num 100000) [(1000, 500000, 1)] (.fixed 0x2B) true,
  orow 0x3001 0x3001 0x0B 0x0B .u32 .ro .dev (.num 0) [] (.fixed 0x2B) true,
  orow 0x3002 0x3002 0x01 0x01 .u32 .rw .dev (.num 2000) [(100, 1000000, 1)] (.fixed 0x2B) true,
  orow 0x3002 0x3002 0x02 0x02 .u32 .ro .dev (.num 2000000000) [] (.fixed 0x2B) true,
  orow 0x3002 0x3002 0x03 0x03 .u64 .ro .dev (.num 0) [] (.fixed 0x2B) true,
  orow 0x3010 0x3010 0x01 0x01 .u8 .rwi .dev (.num 0) [(0, 2, 1)] (.fixed 0x21) false,
  orow 0x3010 0x3010 0x02 0x02 .u8 .ev .dev (.num 0) [] (.fixed 0x21) false,
  orow 0x3010 0x3010 0x03 0x03 (.dom 6 6) .rwi .dev (.zeros 6) [] (.fixed 0x21) false,
  orow 0x3010 0x3010 0x04 0x04 .u32 .rwi .dev (.num 0) [] (.fixed 0x21) false,
  orow 0x3010 0x3010 0x05 0x05 .u8 .rwi .dev (.num 0) [(0, 32, 1)] (.fixed 0x21) false,
  orow 0x3010 0x3010 0x06 0x06 (.dom 16 16) .rwi .dev (.zeros 16) [] (.fixed 0x21) false,
  orow 0x3010 0x3010 0x07 0x07 .i32 .rw .dev (.num 0) [] (.fixed 0x21) false,
  orow 0x3010 0x3010 0x08 0x08 .i32 .rw .dev (.num 0) [] (.fixed 0x21) false,
  orow 0x3010 0x3010 0x09 0x09 .u32 .rw .dev (.num 0) [] (.fixed 0x21) false,
  orow 0x3010 0x3010 0x0A 0x0A (.dom 0 16) .ro .dev (.zeros 0) [] (.fixed 0x21) false,
  orow 0x3010 0x3010 0x0B 0x0B .u32 .ro .dev (.num 0) [] (.fixed 0x21) false,
  orow 0x3010 0x3010 0x0C 0x0C .bool .rw .dev (.num 0) [(0, 0, 1)] (.fixed 0x21) false,
  orow 0x3010 0x3010 0x0D 0x0D .bool .rwi .dev (.num 0) [] (.fixed 0x21) false,
  orow 0x3010 0x3010 0x0E 0x0E .u8 .rwi .dev (.num 0) [(0, 127, 1)] (.fixed 0x21) false,
  orow 0x3010 0x3010 0x0F 0x0F .u8 .rw .dev (.num 255) [] (.fixed 0x21) false,
  orow 0x3010 0x3010 0x10 0x10 .u8 .rw .dev (.num 248) [] (.fixed 0x21) false,
  orow 0x3010 0x3010 0x11 0x11 .i8 .rw .dev (.num 253) [(-7, 0, 1)] (.fixed 0x21) false,
  orow 0x3010 0x3010 0x12 0x12 .i8 .rw .dev (.num 0) [(-3, 3, 1)] (.fixed 0x21) false,
  orow 0x3010 0x3010 0x13 0x13 .bool .ev .dev (.num 0) [] (.fixed 0x21) false,
  orow 0x3010 0x3010 0x14 0x14 .u32 .ro .dev (.num 0) [] (.fixed 0x21) false,
  orow 0x3010 0x3010 0x15 0x15 .u32 .ro .dev (.num 0) [] (.fixed 0x21) false]

/-- Table 16.4, rows from 41. -/
def table_16_4_1 : List ObjRow := [
  orow 0x3020 0x3020 0x01 0x01 .bool .rwi .dev (.num 0) [] (.fixed 0x22) false,
  orow 0x3020 0x3020 0x02 0x02 .u8 .ev .dev (.num 0) [] (.fixed 0x22) false,
  orow 0x3020 0x3020 0x03 0x03 (.dom 6 6) .rwi .dev (.zeros 6) [] (.fixed 0x22) false,
  orow 0x3020 0x3020 0x04 0x04 .u32 .rwi .dev (.num 0) [] (.fixed 0x22) false,
  orow 0x3020 0x3020 0x05 0x05 .u8 .rwi .dev (.num 0) [(0, 32, 1)] (.fixed 0x22) false,
  orow 0x3020 0x3020 0x06 0x06 (.dom 16 16) .rwi .dev (.zeros 16) [] (.fixed 0x22) false,
  orow 0x3020 0x3020 0x07 0x07 .bool .rwi .dev (.num 0) [] (.fixed 0x22) false,
  orow 0x3020 0x3020 0x08 0x08 .u8 .rwi .dev (.num 255) [] (.fixed 0x22) false,
  orow 0x3020 0x3020 0x09 0x09 .u8 .rwi .dev (.num 8) [(1, 255, 1)] (.fixed 0x22) false,
  orow 0x3020 0x3020 0x0A 0x0A .u8 .rwi .dev (.num 32) [(1, 255, 1)] (.fixed 0x22) false,
  orow 0x3020 0x3020 0x0B 0x0B .u8 .rwi .dev (.num 0) [] (.fixed 0x22) false,
  orow 0x3020 0x3020 0x0C 0x0C .u8 .rwi .dev (.num 128) [(1, 255, 1)] (.fixed 0x22) false,
  orow 0x3020 0x3020 0x0D 0x0D .u8 .rwi .dev (.num 0) [(0, 2, 1)] (.fixed 0x22) false,
  orow 0x3020 0x3020 0x0E 0x0E .u8 .rwi .dev (.num 0) [(0, 127, 1)] (.fixed 0x22) false,
  orow 0x3020 0x3020 0x0F 0x0F .u8 .rwi .dev (.num 0) [(0, 1, 1)] (.fixed 0x22) false,
  orow 0x3020 0x3020 0x10 0x10 .i8 .rw .dev (.num 0) [(-4, 4, 1)] (.fixed 0x22) false,
  orow 0x3020 0x3020 0x11 0x11 .i8 .rw .dev (.num 0) [(-4, 5, 1)] (.fixed 0x22) false,
  orow 0x3020 0x3020 0x12 0x12 .i8 .rw .dev (.num 1) [(0, 4, 1)] (.fixed 0x22) false,
  orow 0x3020 0x3020 0x13 0x13 .u32 .ro .dev (.num 0) [] (.fixed 0x22) false,
  orow 0x3020 0x3020 0x14 0x14 (.dom 0 16) .ro .dev (.zeros 0) [] (.fixed 0x22) false,
  orow 0x3020 0x3020 0x15 0x15 .u32 .ro .dev (.num 0) [] (.fixed 0x22) false,
  orow 0x3020 0x3020 0x16 0x16 .bool .rw .dev (.num 0) [(0, 0, 1)] (.fixed 0x22) false,
  orow 0x3020 0x3020 0x17 0x17 .bool .rw .dev (.num 0) [] (.fixed 0x22) true,
  orow 0x3020 0x3020 0x18 0x18 .u16 .rw .dev (.num 34997) [] (.fixed 0x22) true,
  orow 0x3020 0x3020 0x19 0x19 (.dom 8 8) .rw .dev (.zeros 8) [] (.fixed 0x22) true,
  orow 0x3020 0x3020 0x1A 0x1A .u32 .ro .dev (.num 0) [] (.fixed 0x22) true,
  orow 0x3020 0x3020 0x1B 0x1B .i32 .ro .dev (.num Config.net1PhyTxLatency) [] (.fixed 0x22) false,
  orow 0x3020 0x3020 0x1C 0x1C .i32 .ro .dev (.num Config.net1PhyRxLatency) [] (.fixed 0x22) false,
  orow 0x3020 0x3020 0x1D 0x1D .u32 .ro .dev (.num 0) [] (.fixed 0x22) false,
  orow 0x3020 0x3020 0x1E 0x1E .u32 .ro .dev (.num 0) [] (.fixed 0x22) false,
  orow 0x3020 0x3020 0x1F 0x1F .u32 .ro .dev (.num 0) [] (.fixed 0x22) false]

/-- Table 16.8, rows from 1. -/
def table_16_8_0 : List ObjRow := [
  orow 0x3100 0x3103 0x01 0x01 .u8 .rw .ten (.num 0) [(0, 3, 1)] (.fixed 0x2B) true,
  orow 0x3100 0x3103 0x02 0x02 .u8 .rwi .ten (.num 1) [(0, 3, 1)] (.fixed 0x2B) true,
  orow 0x3100 0x3103 0x03 0x03 .stime64 .rwi .ten (.num 0) [] (.fixed 0x2B) true,
  orow 0x3100 0x3103 0x04 0x04 .u64 .rwi .ten (.num 0) [] (.fixed 0x2B) true,
  orow 0x3100 0x3103 0x05 0x05 .u64 .rwi .ten (.num 0) [] (.fixed 0x2B) true,
  orow 0x3100 0x3103 0x06 0x06 .u32 .rwi .ten (.num 0) [] (.fixed 0x2B) true,
  orow 0x3100 0x3103 0x07 0x07 .u8 .rwi .ten (.num 0) [(0, 1, 1)] (.fixed 0x2B) true,
  orow 0x3100 0x3103 0x08 0x08 (.dom 0 16) .ro .ten (.zeros 0) [] (.fixed 0x2B) true,
  orow 0x3100 0x3103 0x09 0x09 .u32 .ro .ten (.num 0) [] (.fixed 0x2B) true,
  orow 0x3100 0x3103 0x0A 0x0A .bool .rw .ten (.num 0) [(0, 0, 1)] (.fixed 0x2B) true,
  orow 0x3100 0x3103 0x0B 0x0B .u32 .ro .ten (.num 0) [] (.fixed 0x2B) true,
  orow 0x3100 0x3103 0x0C 0x0C .u32 .ro .ten (.num 0) [] (.fixed 0x2B) true,
  orow 0x3100 0x3103 0x0D 0x0D .u8 .ro .ten (.num 0) [] (.fixed 0x2B) true,
  orow 0x3110 0x3117 0x01 0x01 .u8 .rw .ten (.num 0) [(0, 15, 1)] (.fixed 0x2B) true,
  orow 0x3110 0x3117 0x02 0x02 .stime64 .rw .ten (.num 0) [] (.fixed 0x2B) true,
  orow 0x3110 0x3117 0x03 0x03 .u64 .rw .ten (.num 0) [] (.fixed 0x2B) true,
  orow 0x3110 0x3117 0x04 0x04 .u8 .rw .ten (.num 0) [(0, 3, 1)] (.fixed 0x2B) true,
  orow 0x3110 0x3117 0x05 0x05 .u8 .ev .ten (.num 0) [] (.fixed 0x2B) true,
  orow 0x3110 0x3117 0x06 0x06 .u32 .ro .ten (.num 0) [] (.fixed 0x2B) true,
  orow 0x3110 0x3117 0x07 0x07 .u32 .ro .ten (.num 0) [] (.fixed 0x2B) true,
  orow 0x3110 0x3117 0x08 0x08 .time96 .ro .ten (.num 0) [] (.fixed 0x2B) true,
  orow 0x3110 0x3117 0x09 0x09 .u32 .ro .ten (.num 0) [] (.fixed 0x2B) true]

/-- Table 17.10, rows from 1. -/
def table_17_10_0 : List ObjRow := [
  orow 0x7100 0x7100 0x01 0x01 .u8 .ev .dev (.num 0) [] (.fixed 0x20) false,
  orow 0x7100 0x7100 0x02 0x02 .u8 .ro .dev (.num 0) [] (.fixed 0x20) false,
  orow 0x7100 0x7100 0x03 0x03 .u8 .ro .dev (.num 0) [] (.fixed 0x20) false,
  orow 0x7100 0x7100 0x04 0x04 .u32 .ro .dev (.num 0) [] (.fixed 0x20) false,
  orow 0x7100 0x7100 0x05 0x05 .u32 .ro .dev (.num 0) [] (.fixed 0x20) false,
  orow 0x7100 0x7100 0x06 0x06 .u32 .ro .ten (.num 0) [] (.fixed 0x20) false,
  orow 0x7101 0x7101 0x01 0x01 .u8 .ev .dev (.num 0) [] (.fixed 0x20) false,
  orow 0x7102 0x7102 0x01 0x01 .u16 .rw .dev (.num 1090) [] (.fixed 0x20) false,
  orow 0x7102 0x7102 0x02 0x02 .u16 .rw .dev (.num 1000) [(100, 10000, 1)] (.fixed 0x20) false,
  orow 0x7102 0x7102 0x03 0x03 .u32 .ro .dev (.num 0) [] (.fixed 0x20) false,
  orow 0x7110 0x7117 0x01 0x01 .u8 .rw .ten (.num 0) [(0, 1, 1)] (.fixed 0x20) false,
  orow 0x7110 0x7117 0x02 0x02 .u8 .rwi .ten (.num 0) [(0, 1, 1)] (.fixed 0x20) false,
  orow 0x7110 0x7117 0x03 0x03 .u8 .ev .ten (.num 0) [] (.fixed 0x20) false,
  orow 0x7110 0x7117 0x04 0x04 .u8 .ro .ten (.num 0) [] (.fixed 0x20) false,
  orow 0x7110 0x7117 0x05 0x05 .u32 .ro .ten (.num 0) [] (.fixed 0x20) false,
  orow 0x7120 0x7120 0x01 0x01 .u8 .wo .ten (.num 0) [(1, 1, 1)] (.fixed 0x20) false]

/-- Table 17.11, rows from 1. -/
def table_17_11_0 : List ObjRow := [
  orow 0xA000 0xA05F 0x01 0x01 .u8 .rw .ten (.num 0) [(0, 1, 1)] (.fixed 0x2F) false,
  orow 0xA000 0xA05F 0x02 0x02 .u16 .rwi .ten (.num 0) [] (.fixed 0x2F) false,
  orow 0xA000 0xA05F 0x03 0x03 .u16 .rw .ten (.num 0) [] (.fixed 0x2F) false,
  orow 0xA000 0xA05F 0x04 0x04 .u8 .rwi .ten (.num 0) [(0, 1, 1)] (.fixed 0x2F) false,
  orow 0xA000 0xA05F 0x05 0x05 .u8 .rwi .ten (.num 4) [(1, 2, 1), (4, 4, 1), (8, 8, 1)] (.fixed 0x2F) false,
  orow 0xA000 0xA05F 0x06 0x06 .bool .rw .ten (.num 0) [] (.fixed 0x2F) false,
  orow 0xA000 0xA05F 0x07 0x07 .u64 .rw .ten (.num 0) [] (.fixed 0x2F) false,
  orow 0xA000 0xA05F 0x08 0x08 .u16 .rw .ten (.num 0) [] (.fixed 0x2F) false,
  orow 0xA000 0xA05F 0x09 0x09 .u64 .rw .ten (.num 0) [] (.fixed 0x2F) false,
  orow 0xA000 0xA05F 0x0A 0x0A .u16 .rw .ten (.num 0) [] (.fixed 0x2F) false,
  orow 0xA000 0xA05F 0x0B 0x0B (.dom 8 8) .rwi .ten (.zeros 8) [] (.fixed 0x2F) false,
  orow 0xA000 0xA05F 0x0C 0x0C .u8 .ev .ten (.num 0) [] (.fixed 0x2F) false,
  orow 0xA000 0xA05F 0x0D 0x0D .u8 .ro .ten (.num 0) [] (.fixed 0x2F) false,
  orow 0xA000 0xA05F 0x0E 0x0E .u32 .ro .ten (.num 0) [] (.fixed 0x2F) false,
  orow 0xA000 0xA05F 0x0F 0x0F .u32 .ev .ten (.num 4294967295) [] (.fixed 0x2F) false,
  orow 0xA000 0xA05F 0x10 0x10 .bool .ro .ten (.num 0) [] (.fixed 0x2F) false,
  orow 0xA000 0xA05F 0x11 0x11 .u32 .ro .ten (.num 0) [] (.fixed 0x2F) false,
  orow 0xA000 0xA05F 0x12 0x12 .u32 .ro .ten (.num 0) [] (.fixed 0x2F) false,
  orow 0xA000 0xA05F 0x13 0x13 .u32 .ro .ten (.num 0) [] (.fixed 0x2F) false]

/-- Table 18.14, rows from 1. -/
def table_18_14_0 : List ObjRow := [
  orow 0x8000 0x8000 0x01 0x01 .u8 .ev .dev (.num 0) [] (.fixed 0x2C) false,
  orow 0x8000 0x8000 0x02 0x02 (.dom 48 48) .ro .dev (.bytes Config.romDigest) [] (.fixed 0x2C) false,
  orow 0x8000 0x8000 0x03 0x03 (.dom 97 97) .ro .dev (.bytes Config.deviceEncKey) [] (.fixed 0x2C) false,
  orow 0x8000 0x8000 0x04 0x04 (.dom 97 97) .ro .dev (.bytes (Config.aliasKey 0)) [] (.fixed 0x2C) false,
  orow 0x8001 0x8001 0x01 0x01 .u8 .ev .dev (.num 0) [] (.fixed 0x2C) false,
  orow 0x8001 0x8001 0x02 0x02 .u32 .ro .dev (.num 0) [] (.fixed 0x2C) false,
  orow 0x8001 0x8001 0x03 0x03 .u32 .ro .dev (.num 0) [] (.fixed 0x2C) false,
  orow 0x8001 0x8001 0x04 0x04 .u32 .ro .dev (.num 0) [] (.fixed 0x2C) false,
  orow 0x8002 0x8002 0x01 0x01 (.dom 0 4096) .wpu .dev (.zeros 0) [] (.fixed 0x2C) false,
  orow 0x8003 0x8003 0x01 0x03 .u8 .ev .dev (.num 0) [] (.fixed 0x2C) false,
  orow 0x8003 0x8003 0x04 0x06 .u32 .ro .dev (.num 0) [] (.fixed 0x2C) false,
  orow 0x8003 0x8003 0x07 0x09 .u32 .ro .dev (.num 0) [] (.fixed 0x2C) false,
  orow 0x8004 0x8004 0x01 0x03 (.dom 48 48) .ro .dev (.zeros 48) [] (.fixed 0x2C) false,
  orow 0x8005 0x8005 0x01 0x01 .u8 .ev .dev (.num 0) [] (.fixed 0x2C) false,
  orow 0x8006 0x8006 0x01 0x03 (.dom 48 48) .ro .dev (.rootHash) [] (.fixed 0x2C) false,
  orow 0x8010 0x8010 0x01 0x01 .u8 .ev .dev (.num 0) [] (.fixed 0x2C) false,
  orow 0x8010 0x8010 0x02 0x02 (.dom 288 288) .wpu .dev (.zeros 288) [] (.fixed 0x2C) false,
  orow 0x8020 0x8020 0x01 0x01 .bool .rw .ten (.num 0) [] (.fixed 0x2C) false,
  orow 0x8020 0x8020 0x02 0x02 .bool .rw .ten (.num 0) [] (.fixed 0x2C) false,
  orow 0x8020 0x8020 0x03 0x03 .u32 .ro .ten (.num 0) [] (.fixed 0x2C) false,
  orow 0x8021 0x8021 0x01 0x01 (.dom 16 16) .wo .ten (.zeros 0) [] (.fixed 0x2C) false,
  orow 0x8021 0x8021 0x02 0x02 .u8 .ev .ten (.num 0) [] (.fixed 0x2C) false,
  orow 0x8021 0x8021 0x03 0x03 (.dom 48 48) .ro .ten (.zeros 48) [] (.fixed 0x2C) false,
  orow 0x8022 0x8022 0x01 0x01 (.dom 48 48) .ro .pat (.zeros 48) [] (.fixed 0x2C) false,
  orow 0x8022 0x8022 0x02 0x02 (.dom 48 48) .ro .pat (.zeros 48) [] (.fixed 0x2C) false,
  orow 0x8022 0x8022 0x03 0x03 .u16 .ro .ten (.num 0) [] (.fixed 0x2C) false,
  orow 0x8022 0x8022 0x04 0x04 .u16 .ro .ten (.num 0) [] (.fixed 0x2C) false,
  orow 0x8030 0x8030 0x01 0x01 .u8 .ro .dev (.num 0) [] (.fixed 0x2C) false,
  orow 0x8030 0x8030 0x02 0x02 .u32 .ro .dev (.num 0) [] (.fixed 0x2C) false,
  orow 0x8031 0x8031 0x01 0x01 .u8 .ev .dev (.num 0) [] (.fixed 0x2C) false,
  orow 0x8031 0x8031 0x02 0x02 .u8 .ro .dev (.num 0) [] (.fixed 0x2C) false,
  orow 0x8031 0x8031 0x03 0x03 .u32 .ro .dev (.num 0) [] (.fixed 0x2C) false,
  orow 0x8031 0x8031 0x04 0x04 .u32 .ro .dev (.num 0) [] (.fixed 0x2C) false,
  orow 0x8040 0x8040 0x01 0x01 .u32 .rw .dev (.num 0) [] (.fixed 0x2C) false,
  orow 0x8040 0x8040 0x02 0x02 (.dom 65536 65536) .ro .dev (.zeros 65536) [] (.fixed 0x2C) false]

/-- Table 18.15, rows from 1. -/
def table_18_15_0 : List ObjRow := [
  orow 0xB000 0xB01F 0x01 0x01 .u8 .ev .dev (.num 0) [] (.fixed 0x2C) false,
  orow 0xB000 0xB01F 0x02 0x02 .u8 .wo .dev (.num 0) [(1, 2, 1)] (.fixed 0x2C) false,
  orow 0xB000 0xB01F 0x03 0x03 .u32 .ro .dev (.num 0) [] (.fixed 0x2C) false,
  orow 0xB000 0xB01F 0x04 0x04 .u32 .ro .dev (.num 0) [] (.fixed 0x2C) false,
  orow 0xB000 0xB01F 0x05 0x05 .u8 .ev .dev (.num 0) [] (.fixed 0x2C) false,
  orow 0xB000 0xB01F 0x06 0x06 .time96 .ro .dev (.num 0) [] (.fixed 0x2C) false]

/-- Table 19.13, rows from 1. -/
def table_19_13_0 : List ObjRow := [
  orow 0x9000 0x9000 0x01 0x01 .u16 .rw .dev (.grade 33 16) [(8, 100, 1)] (.none) false,
  orow 0x9000 0x9000 0x02 0x02 .u64 .ro .dev (.num 0) [] (.none) false,
  orow 0x9000 0x9000 0x03 0x03 .u32 .ro .dev (.num 0) [] (.none) false,
  orow 0x9000 0x9000 0x04 0x04 .u64 .ro .dev (.num 0) [] (.none) false,
  orow 0x9001 0x9001 0x01 0x10 .u32 .ro .dev (.num 0) [] (.none) false,
  orow 0x9002 0x9002 0x01 0x04 .u32 .ro .dev (.num 0) [] (.none) false,
  orow 0x9002 0x9002 0x05 0x05 .u32 .ro .dev (.num 0) [] (.none) false,
  orow 0x9002 0x9002 0x06 0x06 .u32 .ro .dev (.num 0) [] (.none) false,
  orow 0x9003 0x9003 0x01 0x10 .u32 .ro .dev (.num 0) [] (.none) false,
  orow 0x9004 0x9004 0x01 0x10 .u8 .ro .dev (.num 0) [] (.none) false,
  orow 0x9005 0x9005 0x01 0x36 .u32 .ro .dev (.num 0) [] (.none) false,
  orow 0x9006 0x9006 0x01 0x36 .u32 .ro .dev (.num 0) [] (.none) false,
  orow 0x9007 0x9007 0x01 0x01 .u16 .rw .dev (.num 16) [(1, 600, 1)] (.none) false,
  orow 0x9007 0x9007 0x02 0x02 .u32 .ro .dev (.num 0) [] (.none) false,
  orow 0x9010 0x9010 0x01 0x36 .u8 .ro .dev (.num 0) [] (.none) false,
  orow 0x9011 0x9011 0x01 0x40 (.dom 16 16) .ro .dev (.zeros 16) [] (.none) false,
  orow 0x9012 0x9012 0x01 0x01 .u32 .ro .dev (.num 0) [] (.none) false,
  orow 0x9012 0x9012 0x02 0x02 .bool .rw .dev (.num 0) [(0, 0, 1)] (.none) false,
  orow 0x9013 0x9013 0x01 0x01 (.dom 8 1024) .wo .dev (.zeros 0) [] (.none) false,
  orow 0x9013 0x9013 0x02 0x02 .u16 .ro .dev (.num 0) [] (.none) false,
  orow 0x9013 0x9013 0x03 0x03 .u16 .ro .dev (.num 0) [] (.none) false,
  orow 0x9013 0x9013 0x04 0x04 .u16 .ro .dev (.num 0) [] (.none) false,
  orow 0x9014 0x9014 0x01 0x04 .u16 .ro .dev (.num 0) [] (.none) false,
  orow 0x9014 0x9014 0x05 0x05 .u32 .ro .dev (.num 0) [] (.none) false,
  orow 0x9020 0x9020 0x01 0x01 .bool .rw .dev (.num 0) [] (.none) false,
  orow 0x9020 0x9020 0x02 0x02 .u8 .rw .dev (.num 0) [(0, 15, 1)] (.none) false,
  orow 0x9020 0x9020 0x03 0x03 .bool .rw .dev (.num 0) [] (.none) false,
  orow 0x9020 0x9020 0x04 0x04 .u8 .ev .dev (.num 0) [] (.none) false,
  orow 0x9020 0x9020 0x05 0x05 .u32 .ro .dev (.num 0) [] (.none) false,
  orow 0x9020 0x9020 0x06 0x06 .u8 .ro .dev (.num 0) [] (.none) false,
  orow 0x9021 0x9021 0x01 0x01 .bool .ev .ten (.num 0) [] (.none) false,
  orow 0x9030 0x9030 0x01 0x02 .u8 .ev .dev (.num 0) [] (.none) false,
  orow 0x9030 0x9030 0x03 0x04 .u32 .ro .dev (.num 0) [] (.none) false,
  orow 0x9030 0x9030 0x05 0x06 .u8 .ro .dev (.num 0) [] (.none) false,
  orow 0x9030 0x9030 0x07 0x07 .u8 .wo .dev (.num 0) [(0, 1, 1)] (.none) false,
  orow 0x9040 0x9040 0x01 0x01 .bool .ev .dev (.num 0) [] (.none) false,
  orow 0x9040 0x9040 0x02 0x02 .u8 .ro .dev (.num 0) [] (.none) false]

/-- Every object of the dictionary. -/
def objTable : List ObjRow :=
  table_1_13_0 ++
  table_1_15_0 ++
  table_1_16_0 ++
  table_3_8_0 ++
  table_4_9_0 ++
  table_5_13_0 ++
  table_5_13_1 ++
  table_6_11_0 ++
  table_7_13_0 ++
  table_12_8_0 ++
  table_13_4_0 ++
  table_13_5_0 ++
  table_14_10_0 ++
  table_14_10_1 ++
  table_15_8_0 ++
  table_15_8_1 ++
  table_16_4_0 ++
  table_16_4_1 ++
  table_16_8_0 ++
  table_17_10_0 ++
  table_17_11_0 ++
  table_18_14_0 ++
  table_18_15_0 ++
  table_19_13_0

/-- The key of object `idx.sub` in the instance of tenant `t` (0 for DEV objects). -/
def okey (idx sub t : Nat) : Nat := (idx * 256 + sub) * 32 + t

/-! The objects by name. An argument `i` counts indices from the first, `n` subindices from the first, `t` is
the tenant instance; `WAKE_TARGET n` is source `n`. -/

namespace O

/-- 1000.01 VENDOR, VSTR, RO, DEV (spec/01_object_dictionary.md, Table 1.13). -/
def VENDOR : Nat := okey 0x1000 0x01 0
/-- 1000.02 PRODUCT, VSTR, RO, DEV (spec/01_object_dictionary.md, Table 1.13). -/
def PRODUCT : Nat := okey 0x1000 0x02 0
/-- 1000.03 ORDERING_CODE, VSTR, RO, DEV (spec/01_object_dictionary.md, Table 1.13). -/
def ORDERING_CODE : Nat := okey 0x1000 0x03 0
/-- 1000.04 GRADE, U8, RO, DEV (spec/01_object_dictionary.md, Table 1.13). -/
def GRADE : Nat := okey 0x1000 0x04 0
/-- 1000.05 STEPPING, U16, RO, DEV (spec/01_object_dictionary.md, Table 1.13). -/
def STEPPING : Nat := okey 0x1000 0x05 0
/-- 1000.06 DEVICE_ID_DIGEST, DOMAIN, 48 B, RO, DEV (spec/01_object_dictionary.md, Table 1.13). -/
def DEVICE_ID_DIGEST : Nat := okey 0x1000 0x06 0
/-- 1000.07 NYP_VERSION, U8, RO, DEV (spec/01_object_dictionary.md, Table 1.13). -/
def NYP_VERSION : Nat := okey 0x1000 0x07 0
/-- 1000.08 DICT_REVISION, U16, RO, DEV (spec/01_object_dictionary.md, Table 1.13). -/
def DICT_REVISION : Nat := okey 0x1000 0x08 0
/-- 1000.09 POWERUP_NONCE, U32, RO, DEV (spec/01_object_dictionary.md, Table 1.13). -/
def POWERUP_NONCE : Nat := okey 0x1000 0x09 0
/-- 1000.0A UPTIME, U64, RO, DEV (spec/01_object_dictionary.md, Table 1.13). -/
def UPTIME : Nat := okey 0x1000 0x0A 0
/-- 1010.01 READY, BITMAP64, EV, DEV (spec/01_object_dictionary.md, Table 1.13). -/
def READY : Nat := okey 0x1010 0x01 0
/-- 1010.02 HELD, BITMAP64, EV, DEV (spec/01_object_dictionary.md, Table 1.13). -/
def HELD : Nat := okey 0x1010 0x02 0
/-- 1010.03 READY_CHANGED, TIME96, RO, DEV (spec/01_object_dictionary.md, Table 1.13). -/
def READY_CHANGED : Nat := okey 0x1010 0x03 0
/-- 1018.01 CONFIG_GENERATION, U32, RO, DEV (spec/01_object_dictionary.md, Table 1.13). -/
def CONFIG_GENERATION : Nat := okey 0x1018 0x01 0
/-- 1018.02 CONFIG_STATE, U8, EV, DEV (spec/01_object_dictionary.md, Table 1.13). -/
def CONFIG_STATE : Nat := okey 0x1018 0x02 0
/-- 1018.03 CONFIG_DECLARE, U32, WO, DEV (spec/01_object_dictionary.md, Table 1.13). -/
def CONFIG_DECLARE : Nat := okey 0x1018 0x03 0
/-- 1020.01 ERRLOG_WRITTEN, U32, EV, DEV (spec/01_object_dictionary.md, Table 1.13). -/
def ERRLOG_WRITTEN : Nat := okey 0x1020 0x01 0
/-- 1020.02 ERRLOG_OVERWRITTEN, U32, RO, DEV (spec/01_object_dictionary.md, Table 1.13). -/
def ERRLOG_OVERWRITTEN : Nat := okey 0x1020 0x02 0
/-- 1021.01–40 ERRLOG_RECORD, DOMAIN, 32 B, RO, DEV (spec/01_object_dictionary.md, Table 1.13). -/
def ERRLOG_RECORD (n : Nat) : Nat := okey 0x1021 (0x01 + n) 0
/-- 1100.01 HEARTBEAT_PERIOD, U16, RW, DEV (spec/01_object_dictionary.md, Table 1.15). -/
def HEARTBEAT_PERIOD : Nat := okey 0x1100 0x01 0
/-- 1100.02 HEARTBEAT_MISS_LIMIT, U8, RW, DEV (spec/01_object_dictionary.md, Table 1.15). -/
def HEARTBEAT_MISS_LIMIT : Nat := okey 0x1100 0x02 0
/-- 1100.03 SESSION_IDLE_TIMEOUT, U16, RW, DEV (spec/01_object_dictionary.md, Table 1.15). -/
def SESSION_IDLE_TIMEOUT : Nat := okey 0x1100 0x03 0
/-- 1101.01 UDP_ENABLE, U8, RW, DEV (spec/01_object_dictionary.md, Table 1.15). -/
def UDP_ENABLE : Nat := okey 0x1101 0x01 0
/-- 1101.02 UDP_PORT, U16, RO, DEV (spec/01_object_dictionary.md, Table 1.15). -/
def UDP_PORT : Nat := okey 0x1101 0x02 0
/-- 1101.03 UDP_AUTH_FAILS, U32, RO, DEV (spec/01_object_dictionary.md, Table 1.15). -/
def UDP_AUTH_FAILS : Nat := okey 0x1101 0x03 0
/-- 1101.04 UDP_REPLAYS, U32, RO, DEV (spec/01_object_dictionary.md, Table 1.15). -/
def UDP_REPLAYS : Nat := okey 0x1101 0x04 0
/-- 1102.01 SPI_AUTHORITY, U8, RW, DEV (spec/01_object_dictionary.md, Table 1.15). -/
def SPI_AUTHORITY : Nat := okey 0x1102 0x01 0
/-- 1102.02 SPI_CRC_ERRORS, U32, RO, DEV (spec/01_object_dictionary.md, Table 1.15). -/
def SPI_CRC_ERRORS : Nat := okey 0x1102 0x02 0
/-- 1103.01 EVENT_DROPS, U32, RO, TEN (spec/01_object_dictionary.md, Table 1.15). -/
def EVENT_DROPS (t : Nat) : Nat := okey 0x1103 0x01 t
/-- 1110–111F.01 SESSION_STATE, U8, EV, DEV (spec/01_object_dictionary.md, Table 1.15). -/
def SESSION_STATE (i : Nat) : Nat := okey (0x1110 + i) 0x01 0
/-- 1110–111F.02 SESSION_TENANT, U8, RWI, DEV (spec/01_object_dictionary.md, Table 1.15). -/
def SESSION_TENANT (i : Nat) : Nat := okey (0x1110 + i) 0x02 0
/-- 1110–111F.03 SESSION_PORTS, U8, RWI, DEV (spec/01_object_dictionary.md, Table 1.15). -/
def SESSION_PORTS (i : Nat) : Nat := okey (0x1110 + i) 0x03 0
/-- 1110–111F.04 SESSION_PEER, DOMAIN, 18 B, RWI, DEV (spec/01_object_dictionary.md, Table 1.15). -/
def SESSION_PEER (i : Nat) : Nat := okey (0x1110 + i) 0x04 0
/-- 1110–111F.05 SESSION_KEY, DOMAIN, 32 B, WO, DEV (spec/01_object_dictionary.md, Table 1.15). -/
def SESSION_KEY (i : Nat) : Nat := okey (0x1110 + i) 0x05 0
/-- 1110–111F.06 SESSION_TX_COUNTER, U64, RO, DEV (spec/01_object_dictionary.md, Table 1.15). -/
def SESSION_TX_COUNTER (i : Nat) : Nat := okey (0x1110 + i) 0x06 0
/-- 1110–111F.07 SESSION_RX_COUNTER, U64, RO, DEV (spec/01_object_dictionary.md, Table 1.15). -/
def SESSION_RX_COUNTER (i : Nat) : Nat := okey (0x1110 + i) 0x07 0
/-- 1110–111F.08 SESSION_DISCARD, U8, WO, DEV (spec/01_object_dictionary.md, Table 1.15). -/
def SESSION_DISCARD (i : Nat) : Nat := okey (0x1110 + i) 0x08 0
/-- 1200.01–04 TIME_IO_CLAIM, U8, EV, DEV (spec/01_object_dictionary.md, Table 1.16). -/
def TIME_IO_CLAIM (n : Nat) : Nat := okey 0x1200 (0x01 + n) 0
/-- 1201.01–08 TRIG_CLAIM, U8, EV, DEV (spec/01_object_dictionary.md, Table 1.16). -/
def TRIG_CLAIM (n : Nat) : Nat := okey 0x1201 (0x01 + n) 0
/-- 1202.01–08 TDM_A_SLOT_CLAIM, U8, EV, DEV (spec/01_object_dictionary.md, Table 1.16). -/
def TDM_A_SLOT_CLAIM (n : Nat) : Nat := okey 0x1202 (0x01 + n) 0
/-- 1203.01–08 TDM_B_SLOT_CLAIM, U8, EV, DEV (spec/01_object_dictionary.md, Table 1.16). -/
def TDM_B_SLOT_CLAIM (n : Nat) : Nat := okey 0x1203 (0x01 + n) 0
/-- 1204.01 RING_CONSUMER_CLAIM, U8, EV, DEV (spec/01_object_dictionary.md, Table 1.16). -/
def RING_CONSUMER_CLAIM : Nat := okey 0x1204 0x01 0
/-- 1205.01–60 STREAM_CLAIM, U8, EV, DEV (spec/01_object_dictionary.md, Table 1.16). -/
def STREAM_CLAIM (n : Nat) : Nat := okey 0x1205 (0x01 + n) 0
/-- 12F0.01 GRANT_TIME_IO, U32, RW, DEV (spec/01_object_dictionary.md, Table 1.16). -/
def GRANT_TIME_IO : Nat := okey 0x12F0 0x01 0
/-- 12F0.02 GRANT_TRIG, U32, RW, DEV (spec/01_object_dictionary.md, Table 1.16). -/
def GRANT_TRIG : Nat := okey 0x12F0 0x02 0
/-- 12F0.03 GRANT_TDM_A, U32, RW, DEV (spec/01_object_dictionary.md, Table 1.16). -/
def GRANT_TDM_A : Nat := okey 0x12F0 0x03 0
/-- 12F0.04 GRANT_TDM_B, U32, RW, DEV (spec/01_object_dictionary.md, Table 1.16). -/
def GRANT_TDM_B : Nat := okey 0x12F0 0x04 0
/-- 12F0.05 GRANT_RING, U32, RW, DEV (spec/01_object_dictionary.md, Table 1.16). -/
def GRANT_RING : Nat := okey 0x12F0 0x05 0
/-- 12F0.06 GRANT_STREAM, U32, RW, DEV (spec/01_object_dictionary.md, Table 1.16). -/
def GRANT_STREAM : Nat := okey 0x12F0 0x06 0
/-- 2000.01–09 RAIL_MV, U16, RO, DEV (spec/03_supplies_and_regulation.md, Table 3.8). -/
def RAIL_MV (n : Nat) : Nat := okey 0x2000 (0x01 + n) 0
/-- 2001.01–05 BANK_LEVEL, U8, RO, DEV (spec/03_supplies_and_regulation.md, Table 3.8). -/
def BANK_LEVEL (n : Nat) : Nat := okey 0x2001 (0x01 + n) 0
/-- 2002.01–09 RAIL_STATUS, U8, EV, DEV (spec/03_supplies_and_regulation.md, Table 3.8). -/
def RAIL_STATUS (n : Nat) : Nat := okey 0x2002 (0x01 + n) 0
/-- 2010–2012.01 REG_VOUT_MV, U16, RO, DEV (spec/03_supplies_and_regulation.md, Table 3.8). -/
def REG_VOUT_MV (i : Nat) : Nat := okey (0x2010 + i) 0x01 0
/-- 2010–2012.02 REG_IOUT_MA, U32, RO, DEV (spec/03_supplies_and_regulation.md, Table 3.8). -/
def REG_IOUT_MA (i : Nat) : Nat := okey (0x2010 + i) 0x02 0
/-- 2010–2012.03 REG_PHASES_ACTIVE, U8, RO, DEV (spec/03_supplies_and_regulation.md, Table 3.8). -/
def REG_PHASES_ACTIVE (i : Nat) : Nat := okey (0x2010 + i) 0x03 0
/-- 2010–2012.04 REG_PHASE_MAP, U16, EV, DEV (spec/03_supplies_and_regulation.md, Table 3.8). -/
def REG_PHASE_MAP (i : Nat) : Nat := okey (0x2010 + i) 0x04 0
/-- 2010–2012.05 REG_PHASE_CAUSE, U32, RO, DEV (spec/03_supplies_and_regulation.md, Table 3.8). -/
def REG_PHASE_CAUSE (i : Nat) : Nat := okey (0x2010 + i) 0x05 0
/-- 2010–2012.08 REG_ILIMIT_MA, U32, RO, DEV (spec/03_supplies_and_regulation.md, Table 3.8). -/
def REG_ILIMIT_MA (i : Nat) : Nat := okey (0x2010 + i) 0x08 0
/-- 2010–2012.09 REG_FREQ_CEILING, U16, RO, DEV (spec/03_supplies_and_regulation.md, Table 3.8). -/
def REG_FREQ_CEILING (i : Nat) : Nat := okey (0x2010 + i) 0x09 0
/-- 2010–2012.0A REG_DERATE_COUNT, U32, RO, DEV (spec/03_supplies_and_regulation.md, Table 3.8). -/
def REG_DERATE_COUNT (i : Nat) : Nat := okey (0x2010 + i) 0x0A 0
/-- 2010–2012.0B REG_STATE, U8, EV, DEV (spec/03_supplies_and_regulation.md, Table 3.8). -/
def REG_STATE (i : Nat) : Nat := okey (0x2010 + i) 0x0B 0
/-- 2020.01–02 DIE_POWER_LIMIT_MW, U16, RW, DEV (spec/03_supplies_and_regulation.md, Table 3.8). -/
def DIE_POWER_LIMIT_MW (n : Nat) : Nat := okey 0x2020 (0x01 + n) 0
/-- 2021.01–03 DIE_POWER_MW, U32, RO, DEV (spec/03_supplies_and_regulation.md, Table 3.8). -/
def DIE_POWER_MW (n : Nat) : Nat := okey 0x2021 (0x01 + n) 0
/-- 2022.01 PKG_POWER_MW, U32, RO, DEV (spec/03_supplies_and_regulation.md, Table 3.8). -/
def PKG_POWER_MW : Nat := okey 0x2022 0x01 0
/-- 2030.01 RETENTION_MV, U16, RO, DEV (spec/03_supplies_and_regulation.md, Table 3.8). -/
def RETENTION_MV : Nat := okey 0x2030 0x01 0
/-- 2100.01 REF38_STATE, U8, EV, DEV (spec/04_clocks_reset_bringup.md, Table 4.9). -/
def REF38_STATE : Nat := okey 0x2100 0x01 0
/-- 2100.03 XTAL32K_STATE, U8, EV, DEV (spec/04_clocks_reset_bringup.md, Table 4.9). -/
def XTAL32K_STATE : Nat := okey 0x2100 0x03 0
/-- 2100.04 XTAL32K_START, U16, RO, DEV (spec/04_clocks_reset_bringup.md, Table 4.9). -/
def XTAL32K_START : Nat := okey 0x2100 0x04 0
/-- 2100.05 AON_FAST_TRIM, U16, RO, DEV (spec/04_clocks_reset_bringup.md, Table 4.9). -/
def AON_FAST_TRIM : Nat := okey 0x2100 0x05 0
/-- 2101.01–3C DOMAIN_FREQ, U32, RO, DEV (spec/04_clocks_reset_bringup.md, Table 4.9). -/
def DOMAIN_FREQ (n : Nat) : Nat := okey 0x2101 (0x01 + n) 0
/-- 2102.01–3C DOMAIN_STATE, U8, RO, DEV (spec/04_clocks_reset_bringup.md, Table 4.9). -/
def DOMAIN_STATE (n : Nat) : Nat := okey 0x2102 (0x01 + n) 0
/-- 2103.01 PLL_LOCKED, U16, EV, DEV (spec/04_clocks_reset_bringup.md, Table 4.9). -/
def PLL_LOCKED : Nat := okey 0x2103 0x01 0
/-- 2103.02 PLL_UNLOCKS, U32, RO, DEV (spec/04_clocks_reset_bringup.md, Table 4.9). -/
def PLL_UNLOCKS : Nat := okey 0x2103 0x02 0
/-- 2104.01–04 RINK_FREQ, U16, RO, DEV (spec/04_clocks_reset_bringup.md, Table 4.9). -/
def RINK_FREQ (n : Nat) : Nat := okey 0x2104 (0x01 + n) 0
/-- 2110.01 RESET_CAUSE, U8, RO, DEV (spec/04_clocks_reset_bringup.md, Table 4.9). -/
def RESET_CAUSE : Nat := okey 0x2110 0x01 0
/-- 2110.02 WDOG_RESETS, U8, RO, DEV (spec/04_clocks_reset_bringup.md, Table 4.9). -/
def WDOG_RESETS : Nat := okey 0x2110 0x02 0
/-- 2110.03 UNIT_RESET, U8, WO, DEV (spec/04_clocks_reset_bringup.md, Table 4.9). -/
def UNIT_RESET : Nat := okey 0x2110 0x03 0
/-- 2111.01–36 READY_TIME, U32, RO, DEV (spec/04_clocks_reset_bringup.md, Table 4.9). -/
def READY_TIME (n : Nat) : Nat := okey 0x2111 (0x01 + n) 0
/-- 2200.01 POWER_STATE, U8, EV, DEV (spec/05_lift_cascade.md, Table 5.13). -/
def POWER_STATE : Nat := okey 0x2200 0x01 0
/-- 2200.02 TARGET_STATE, U8, RW, DEV (spec/05_lift_cascade.md, Table 5.13). -/
def TARGET_STATE : Nat := okey 0x2200 0x02 0
/-- 2200.03 STATE_FLAGS, U8, RO, DEV (spec/05_lift_cascade.md, Table 5.13). -/
def STATE_FLAGS : Nat := okey 0x2200 0x03 0
/-- 2200.04 TRANSITION_STEP, U8, RO, DEV (spec/05_lift_cascade.md, Table 5.13). -/
def TRANSITION_STEP : Nat := okey 0x2200 0x04 0
/-- 2200.05 TRANSITION_ORIGIN, U8, RO, DEV (spec/05_lift_cascade.md, Table 5.13). -/
def TRANSITION_ORIGIN : Nat := okey 0x2200 0x05 0
/-- 2200.06 STATE_SINCE, TIME96, RO, DEV (spec/05_lift_cascade.md, Table 5.13). -/
def STATE_SINCE : Nat := okey 0x2200 0x06 0
/-- 2200.07 LAST_TRANSITION_US, U32, RO, DEV (spec/05_lift_cascade.md, Table 5.13). -/
def LAST_TRANSITION_US : Nat := okey 0x2200 0x07 0
/-- 2201.01 MID_RINK, U8, RWI, DEV (spec/05_lift_cascade.md, Table 5.13). -/
def MID_RINK : Nat := okey 0x2201 0x01 0
/-- 2201.02 MID_CORE, U8, RWI, DEV (spec/05_lift_cascade.md, Table 5.13). -/
def MID_CORE : Nat := okey 0x2201 0x02 0
/-- 2201.03 MID_FREQ_MHZ, U16, RW, DEV (spec/05_lift_cascade.md, Table 5.13). -/
def MID_FREQ_MHZ : Nat := okey 0x2201 0x03 0
/-- 2201.04 MID_CAMERA, U8, RWI, DEV (spec/05_lift_cascade.md, Table 5.13). -/
def MID_CAMERA : Nat := okey 0x2201 0x04 0
/-- 2201.05 MID_TENANT, U8, RWI, DEV (spec/05_lift_cascade.md, Table 5.13). -/
def MID_TENANT : Nat := okey 0x2201 0x05 0
/-- 2201.06 PREWAKE_THRESHOLD, U16, RW, DEV (spec/05_lift_cascade.md, Table 5.13). -/
def PREWAKE_THRESHOLD : Nat := okey 0x2201 0x06 0
/-- 2201.07 WAKE_THRESHOLD, U16, RW, DEV (spec/05_lift_cascade.md, Table 5.13). -/
def WAKE_THRESHOLD : Nat := okey 0x2201 0x07 0
/-- 2201.08 PREWAKE_WINDOW_MS, U16, RW, DEV (spec/05_lift_cascade.md, Table 5.13). -/
def PREWAKE_WINDOW_MS : Nat := okey 0x2201 0x08 0
/-- 2201.09 MID_DECISION_MS, U16, RW, DEV (spec/05_lift_cascade.md, Table 5.13). -/
def MID_DECISION_MS : Nat := okey 0x2201 0x09 0
/-- 2201.0A BASE_CONFIDENCE, U16, RO, DEV (spec/05_lift_cascade.md, Table 5.13). -/
def BASE_CONFIDENCE : Nat := okey 0x2201 0x0A 0
/-- 2202.01 SUMMIT_IDLE_MS, U32, RW, DEV (spec/05_lift_cascade.md, Table 5.13). -/
def SUMMIT_IDLE_MS : Nat := okey 0x2202 0x01 0
/-- 2202.02 MID_IDLE_MS, U32, RW, DEV (spec/05_lift_cascade.md, Table 5.13). -/
def MID_IDLE_MS : Nat := okey 0x2202 0x02 0
/-- 2202.03 BASE_IDLE_MS, U32, RW, DEV (spec/05_lift_cascade.md, Table 5.13). -/
def BASE_IDLE_MS : Nat := okey 0x2202 0x03 0
/-- 2202.04 IDLE_FLOOR, U8, RW, DEV (spec/05_lift_cascade.md, Table 5.13). -/
def IDLE_FLOOR : Nat := okey 0x2202 0x04 0
/-- 2203.01 LINK_QUIESCE_MS, U16, RW, DEV (spec/05_lift_cascade.md, Table 5.13). -/
def LINK_QUIESCE_MS : Nat := okey 0x2203 0x01 0
/-- 2203.02 DRAIN_LIMIT_US, U16, RW, DEV (spec/05_lift_cascade.md, Table 5.13). -/
def DRAIN_LIMIT_US : Nat := okey 0x2203 0x02 0
/-- 2204.01–50 DOMAIN_POWER, U8, RO, DEV (spec/05_lift_cascade.md, Table 5.13). -/
def DOMAIN_POWER (n : Nat) : Nat := okey 0x2204 (0x01 + n) 0
/-- 2205.01 BASE_TENANT, U8, RWI, DEV (spec/05_lift_cascade.md, Table 5.13). -/
def BASE_TENANT : Nat := okey 0x2205 0x01 0
/-- 2205.02 BASE_PROGRAM, U32, RW, TEN (spec/05_lift_cascade.md, Table 5.13). -/
def BASE_PROGRAM (t : Nat) : Nat := okey 0x2205 0x02 t
/-- 2205.03 BASE_LOAD_OFFSET, U32, RW, TEN (spec/05_lift_cascade.md, Table 5.13). -/
def BASE_LOAD_OFFSET (t : Nat) : Nat := okey 0x2205 0x03 t
/-- 2205.04 BASE_LOAD_WINDOW, DOMAIN, 1–65,536 B, WO, TEN (spec/05_lift_cascade.md, Table 5.13). -/
def BASE_LOAD_WINDOW (t : Nat) : Nat := okey 0x2205 0x04 t
/-- 2205.05 BASE_DECISION_FAULTS, U32, RO, DEV (spec/05_lift_cascade.md, Table 5.13). -/
def BASE_DECISION_FAULTS : Nat := okey 0x2205 0x05 0
/-- 2206.01 MID_PROGRAM, U32, RW, TEN (spec/05_lift_cascade.md, Table 5.13). -/
def MID_PROGRAM (t : Nat) : Nat := okey 0x2206 0x01 t
/-- 2206.02 MID_DECISION_FAULTS, U32, RO, DEV (spec/05_lift_cascade.md, Table 5.13). -/
def MID_DECISION_FAULTS : Nat := okey 0x2206 0x02 0
/-- 2210.01 WAKE_TARGET0, U8, RO, DEV (spec/05_lift_cascade.md, Table 5.13). -/
def WAKE_TARGET0 : Nat := okey 0x2210 0x01 0
/-- 2210.02–08 WAKE_TARGET, U8, RW, DEV (spec/05_lift_cascade.md, Table 5.13). -/
def WAKE_TARGET (n : Nat) : Nat := okey 0x2210 (1 + n) 0
/-- 2210.09 LAST_REQUEST_SOURCE, U8, EV, DEV (spec/05_lift_cascade.md, Table 5.13). -/
def LAST_REQUEST_SOURCE : Nat := okey 0x2210 0x09 0
/-- 2210.0A LAST_REQUEST_TIME, TIME96, RO, DEV (spec/05_lift_cascade.md, Table 5.13). -/
def LAST_REQUEST_TIME : Nat := okey 0x2210 0x0A 0
/-- 2211.01–10 REQUEST_COUNT, U32, RO, DEV (spec/05_lift_cascade.md, Table 5.13). -/
def REQUEST_COUNT (n : Nat) : Nat := okey 0x2211 (0x01 + n) 0
/-- 2220.01 ENTRY_REFUSALS, U32, RO, DEV (spec/05_lift_cascade.md, Table 5.13). -/
def ENTRY_REFUSALS : Nat := okey 0x2220 0x01 0
/-- 2220.02 ENTRY_ABORTS, U32, RO, DEV (spec/05_lift_cascade.md, Table 5.13). -/
def ENTRY_ABORTS : Nat := okey 0x2220 0x02 0
/-- 2220.03 EXIT_ABORTS, U32, RO, DEV (spec/05_lift_cascade.md, Table 5.13). -/
def EXIT_ABORTS : Nat := okey 0x2220 0x03 0
/-- 2220.04 PREWAKE_CANCELS, U32, RO, DEV (spec/05_lift_cascade.md, Table 5.13). -/
def PREWAKE_CANCELS : Nat := okey 0x2220 0x04 0
/-- 2220.05 MID_REJECTS, U32, RO, DEV (spec/05_lift_cascade.md, Table 5.13). -/
def MID_REJECTS : Nat := okey 0x2220 0x05 0
/-- 2220.06 MID_TIMEOUTS, U32, RO, DEV (spec/05_lift_cascade.md, Table 5.13). -/
def MID_TIMEOUTS : Nat := okey 0x2220 0x06 0
/-- 2220.07 LAST_REFUSAL, DOMAIN, 24 B, EV, DEV (spec/05_lift_cascade.md, Table 5.13). -/
def LAST_REFUSAL : Nat := okey 0x2220 0x07 0
/-- 2221.01–36 REFUSED_BY_UNIT, U32, RO, DEV (spec/05_lift_cascade.md, Table 5.13). -/
def REFUSED_BY_UNIT (n : Nat) : Nat := okey 0x2221 (0x01 + n) 0
/-- 2230.01–04 FREQ_MIN_MHZ, U16, RW, DEV (spec/05_lift_cascade.md, Table 5.13). -/
def FREQ_MIN_MHZ (n : Nat) : Nat := okey 0x2230 (0x01 + n) 0
/-- 2231.01–04 FREQ_MAX_MHZ, U16, RW, DEV (spec/05_lift_cascade.md, Table 5.13). -/
def FREQ_MAX_MHZ (n : Nat) : Nat := okey 0x2231 (0x01 + n) 0
/-- 2232.01–02 VCORE_MIN_MV, U16, RW, DEV (spec/05_lift_cascade.md, Table 5.13). -/
def VCORE_MIN_MV (n : Nat) : Nat := okey 0x2232 (0x01 + n) 0
/-- 2233.01–02 VCORE_MAX_MV, U16, RW, DEV (spec/05_lift_cascade.md, Table 5.13). -/
def VCORE_MAX_MV (n : Nat) : Nat := okey 0x2233 (0x01 + n) 0
/-- 2234.01–06 BREACH_CAUSE, U8, EV, DEV (spec/05_lift_cascade.md, Table 5.13). -/
def BREACH_CAUSE (n : Nat) : Nat := okey 0x2234 (0x01 + n) 0
/-- 2235.01 THERMAL_THROTTLE_C, I16, RW, DEV (spec/05_lift_cascade.md, Table 5.13). -/
def THERMAL_THROTTLE_C : Nat := okey 0x2235 0x01 0
/-- 2235.02 THERMAL_CRITICAL_C, I16, RO, DEV (spec/05_lift_cascade.md, Table 5.13). -/
def THERMAL_CRITICAL_C : Nat := okey 0x2235 0x02 0
/-- 2236.01–04 TJ_C, I16, RO, DEV (spec/05_lift_cascade.md, Table 5.13). -/
def TJ_C (n : Nat) : Nat := okey 0x2236 (0x01 + n) 0
/-- 6000.01–10 CORE_STATE, U8, RO, DEV (spec/06_compute_hierarchy.md, Table 6.11). -/
def CORE_STATE (n : Nat) : Nat := okey 0x6000 (0x01 + n) 0
/-- 6001.01–10 CORE_TENANT, U8, RO, DEV (spec/06_compute_hierarchy.md, Table 6.11). -/
def CORE_TENANT (n : Nat) : Nat := okey 0x6001 (0x01 + n) 0
/-- 6002.01–10 CORE_SERVICE, U8, RWI, DEV (spec/06_compute_hierarchy.md, Table 6.11). -/
def CORE_SERVICE (n : Nat) : Nat := okey 0x6002 (0x01 + n) 0
/-- 6003.01–10 CORE_TILES, U64, RO, DEV (spec/06_compute_hierarchy.md, Table 6.11). -/
def CORE_TILES (n : Nat) : Nat := okey 0x6003 (0x01 + n) 0
/-- 6004.01–10 CORE_BUSY_CYCLES, U64, RO, DEV (spec/06_compute_hierarchy.md, Table 6.11). -/
def CORE_BUSY_CYCLES (n : Nat) : Nat := okey 0x6004 (0x01 + n) 0
/-- 6005.01–10 CORE_STALL_CYCLES, U64, RO, DEV (spec/06_compute_hierarchy.md, Table 6.11). -/
def CORE_STALL_CYCLES (n : Nat) : Nat := okey 0x6005 (0x01 + n) 0
/-- 6006.01–10 CLM_CONFLICT_CYCLES, U64, RO, DEV (spec/06_compute_hierarchy.md, Table 6.11). -/
def CLM_CONFLICT_CYCLES (n : Nat) : Nat := okey 0x6006 (0x01 + n) 0
/-- 6007.01–10 FABRIC_LOADS, U32, RO, DEV (spec/06_compute_hierarchy.md, Table 6.11). -/
def FABRIC_LOADS (n : Nat) : Nat := okey 0x6007 (0x01 + n) 0
/-- 6008.01–10 FABRIC_REJECTS, U32, RO, DEV (spec/06_compute_hierarchy.md, Table 6.11). -/
def FABRIC_REJECTS (n : Nat) : Nat := okey 0x6008 (0x01 + n) 0
/-- 6010.01–04 RINK_STATE, U8, RO, DEV (spec/06_compute_hierarchy.md, Table 6.11). -/
def RINK_STATE (n : Nat) : Nat := okey 0x6010 (0x01 + n) 0
/-- 6011.01–04 RINK_CONTEXTS, U8, RO, DEV (spec/06_compute_hierarchy.md, Table 6.11). -/
def RINK_CONTEXTS (n : Nat) : Nat := okey 0x6011 (0x01 + n) 0
/-- 6020–6023.01–10 WAY_OWNER, U8, RO, DEV (spec/06_compute_hierarchy.md, Table 6.11). -/
def WAY_OWNER (i n : Nat) : Nat := okey (0x6020 + i) (0x01 + n) 0
/-- 6030–6033.01–04 CTX_TENANT, U8, RO, DEV (spec/06_compute_hierarchy.md, Table 6.11). -/
def CTX_TENANT (i n : Nat) : Nat := okey (0x6030 + i) (0x01 + n) 0
/-- 6030–6033.05–08 CTX_CORES, U8, RO, DEV (spec/06_compute_hierarchy.md, Table 6.11). -/
def CTX_CORES (i n : Nat) : Nat := okey (0x6030 + i) (0x05 + n) 0
/-- 6030–6033.09–0C CTX_INSTRUCTIONS, U32, RO, DEV (spec/06_compute_hierarchy.md, Table 6.11). -/
def CTX_INSTRUCTIONS (i n : Nat) : Nat := okey (0x6030 + i) (0x09 + n) 0
/-- 6040.01–04 RCC_STATE, U8, EV, DEV (spec/06_compute_hierarchy.md, Table 6.11). -/
def RCC_STATE (n : Nat) : Nat := okey 0x6040 (0x01 + n) 0
/-- 6040.05–08 RCC_FW_VERSION, U32, RO, DEV (spec/06_compute_hierarchy.md, Table 6.11). -/
def RCC_FW_VERSION (n : Nat) : Nat := okey 0x6040 (0x05 + n) 0
/-- 6050.01 TEN_CORES, U16, RO, TEN (spec/06_compute_hierarchy.md, Table 6.11). -/
def TEN_CORES (t : Nat) : Nat := okey 0x6050 0x01 t
/-- 6050.02 TEN_RINKS, U8, EV, TEN (spec/06_compute_hierarchy.md, Table 6.11). -/
def TEN_RINKS (t : Nat) : Nat := okey 0x6050 0x02 t
/-- 6050.03 TEN_RESPLITS, U32, RO, TEN (spec/06_compute_hierarchy.md, Table 6.11). -/
def TEN_RESPLITS (t : Nat) : Nat := okey 0x6050 0x03 t
/-- 6050.04 RESULT_BASIS, U64, RO, DEV (spec/06_compute_hierarchy.md, Table 6.11). -/
def RESULT_BASIS : Nat := okey 0x6050 0x04 0
/-- 6100.01 FORMATS_SUPPORTED, BITMAP64, RO, DEV (spec/07_number_formats.md, Table 7.13). -/
def FORMATS_SUPPORTED : Nat := okey 0x6100 0x01 0
/-- 6100.02 MODES_SUPPORTED, U8, RO, DEV (spec/07_number_formats.md, Table 7.13). -/
def MODES_SUPPORTED : Nat := okey 0x6100 0x02 0
/-- 6100.03 ESC_CAPACITY, U16, RO, DEV (spec/07_number_formats.md, Table 7.13). -/
def ESC_CAPACITY : Nat := okey 0x6100 0x03 0
/-- 6100.04 BF_BLOCK, U8, RO, DEV (spec/07_number_formats.md, Table 7.13). -/
def BF_BLOCK : Nat := okey 0x6100 0x04 0
/-- 6101.01 ESC_CORRECTIONS, U64, RO, TEN (spec/07_number_formats.md, Table 7.13). -/
def ESC_CORRECTIONS (t : Nat) : Nat := okey 0x6101 0x01 t
/-- 6101.02 ESC_OVERFLOW_TILES, U32, RO, TEN (spec/07_number_formats.md, Table 7.13). -/
def ESC_OVERFLOW_TILES (t : Nat) : Nat := okey 0x6101 0x02 t
/-- 6101.03 NONFINITE_TILES, U32, RO, TEN (spec/07_number_formats.md, Table 7.13). -/
def NONFINITE_TILES (t : Nat) : Nat := okey 0x6101 0x03 t
/-- 6101.04 HEADROOM_TILES, U32, RO, TEN (spec/07_number_formats.md, Table 7.13). -/
def HEADROOM_TILES (t : Nat) : Nat := okey 0x6101 0x04 t
/-- 6101.05 FLOAT_SATURATIONS, U64, RO, TEN (spec/07_number_formats.md, Table 7.13). -/
def FLOAT_SATURATIONS (t : Nat) : Nat := okey 0x6101 0x05 t
/-- 6101.06 FORMAT_REJECTS, U32, RO, TEN (spec/07_number_formats.md, Table 7.13). -/
def FORMAT_REJECTS (t : Nat) : Nat := okey 0x6101 0x06 t
/-- 6101.07 LAST_REJECT_CAUSE, U8, EV, TEN (spec/07_number_formats.md, Table 7.13). -/
def LAST_REJECT_CAUSE (t : Nat) : Nat := okey 0x6101 0x07 t
/-- 6102.01 TABLE_BASE, U64, RWI, TEN (spec/07_number_formats.md, Table 7.13). -/
def TABLE_BASE (t : Nat) : Nat := okey 0x6102 0x01 t
/-- 6102.02 TABLE_SIZE, U32, RWI, TEN (spec/07_number_formats.md, Table 7.13). -/
def TABLE_SIZE (t : Nat) : Nat := okey 0x6102 0x02 t
/-- 7000.01 DRAM_SIZE, U32, RO, DEV (spec/12_memory_tiers.md, Table 12.8). -/
def DRAM_SIZE : Nat := okey 0x7000 0x01 0
/-- 7000.02 DRAM_RATE, U16, RO, DEV (spec/12_memory_tiers.md, Table 12.8). -/
def DRAM_RATE : Nat := okey 0x7000 0x02 0
/-- 7000.03 LODGE_SEGMENTS, U8, RO, DEV (spec/12_memory_tiers.md, Table 12.8). -/
def LODGE_SEGMENTS : Nat := okey 0x7000 0x03 0
/-- 7001.01–10 CHANNEL_STATE, U8, RO, DEV (spec/12_memory_tiers.md, Table 12.8). -/
def CHANNEL_STATE (n : Nat) : Nat := okey 0x7001 (0x01 + n) 0
/-- 7002.01–10 CHANNEL_OWNER, U8, RO, DEV (spec/12_memory_tiers.md, Table 12.8). -/
def CHANNEL_OWNER (n : Nat) : Nat := okey 0x7002 (0x01 + n) 0
/-- 7003.01–20 LODGE_SEG_OWNER, U8, RWI, DEV (spec/12_memory_tiers.md, Table 12.8). -/
def LODGE_SEG_OWNER (n : Nat) : Nat := okey 0x7003 (0x01 + n) 0
/-- 7004.01 TEN_DRAM_BYTES, U64, RO, TEN (spec/12_memory_tiers.md, Table 12.8). -/
def TEN_DRAM_BYTES (t : Nat) : Nat := okey 0x7004 0x01 t
/-- 7004.02 TEN_LODGE_BYTES, U32, RO, TEN (spec/12_memory_tiers.md, Table 12.8). -/
def TEN_LODGE_BYTES (t : Nat) : Nat := okey 0x7004 0x02 t
/-- 7004.03 TEN_CHANNELS, U16, RO, TEN (spec/12_memory_tiers.md, Table 12.8). -/
def TEN_CHANNELS (t : Nat) : Nat := okey 0x7004 0x03 t
/-- 7008.01 REFRESH_MIN, U8, RW, DEV (spec/12_memory_tiers.md, Table 12.8). -/
def REFRESH_MIN : Nat := okey 0x7008 0x01 0
/-- 7008.02 REFRESH_MAX, U8, RW, DEV (spec/12_memory_tiers.md, Table 12.8). -/
def REFRESH_MAX : Nat := okey 0x7008 0x02 0
/-- 7008.03 REFRESH_BREACH, U8, EV, DEV (spec/12_memory_tiers.md, Table 12.8). -/
def REFRESH_BREACH : Nat := okey 0x7008 0x03 0
/-- 7009.01–10 REFRESH_CODE, U8, RO, DEV (spec/12_memory_tiers.md, Table 12.8). -/
def REFRESH_CODE (n : Nat) : Nat := okey 0x7009 (0x01 + n) 0
/-- 700A.01–04 DRAM_TEMP_C, I16, RO, DEV (spec/12_memory_tiers.md, Table 12.8). -/
def DRAM_TEMP_C (n : Nat) : Nat := okey 0x700A (0x01 + n) 0
/-- 7010.01–04 WINDOW_WAYS, U8, RWI, TEN (spec/12_memory_tiers.md, Table 12.8). -/
def WINDOW_WAYS (n t : Nat) : Nat := okey 0x7010 (0x01 + n) t
/-- 7011.01 STREAM_LOOKAHEAD, U8, RW, TEN (spec/12_memory_tiers.md, Table 12.8). -/
def STREAM_LOOKAHEAD (t : Nat) : Nat := okey 0x7011 0x01 t
/-- 7011.02 SPECULATE, BOOL, RW, TEN (spec/12_memory_tiers.md, Table 12.8). -/
def SPECULATE (t : Nat) : Nat := okey 0x7011 0x02 t
/-- 7020.01 STREAM_TILES, U64, RO, TEN (spec/12_memory_tiers.md, Table 12.8). -/
def STREAM_TILES (t : Nat) : Nat := okey 0x7020 0x01 t
/-- 7020.02 STREAM_BYTES, U64, RO, TEN (spec/12_memory_tiers.md, Table 12.8). -/
def STREAM_BYTES (t : Nat) : Nat := okey 0x7020 0x02 t
/-- 7020.03 PASS_THROUGH, U32, RO, TEN (spec/12_memory_tiers.md, Table 12.8). -/
def PASS_THROUGH (t : Nat) : Nat := okey 0x7020 0x03 t
/-- 7020.04 SPEC_FETCHED, U32, RO, TEN (spec/12_memory_tiers.md, Table 12.8). -/
def SPEC_FETCHED (t : Nat) : Nat := okey 0x7020 0x04 t
/-- 7020.05 SPEC_DROPPED, U32, RO, TEN (spec/12_memory_tiers.md, Table 12.8). -/
def SPEC_DROPPED (t : Nat) : Nat := okey 0x7020 0x05 t
/-- 7020.06 TAG_FAULTS, U32, RO, TEN (spec/12_memory_tiers.md, Table 12.8). -/
def TAG_FAULTS (t : Nat) : Nat := okey 0x7020 0x06 t
/-- 7020.07 TRANSPOSED_TILES, U32, RO, TEN (spec/12_memory_tiers.md, Table 12.8). -/
def TRANSPOSED_TILES (t : Nat) : Nat := okey 0x7020 0x07 t
/-- 7021.01 TAG_FAULTS_ALL, U32, RO, DEV (spec/12_memory_tiers.md, Table 12.8). -/
def TAG_FAULTS_ALL : Nat := okey 0x7021 0x01 0
/-- 7021.02 LINK_ECC_CORRECTED, U32, RO, DEV (spec/12_memory_tiers.md, Table 12.8). -/
def LINK_ECC_CORRECTED : Nat := okey 0x7021 0x02 0
/-- 7021.03 LINK_ECC_RETRIED, U32, RO, DEV (spec/12_memory_tiers.md, Table 12.8). -/
def LINK_ECC_RETRIED : Nat := okey 0x7021 0x03 0
/-- 7021.04 REFRESH_BREACHES, U32, RO, DEV (spec/12_memory_tiers.md, Table 12.8). -/
def REFRESH_BREACHES : Nat := okey 0x7021 0x04 0
/-- 7030.01–10 CH_READ_BYTES, U64, RO, DEV (spec/12_memory_tiers.md, Table 12.8). -/
def CH_READ_BYTES (n : Nat) : Nat := okey 0x7030 (0x01 + n) 0
/-- 7031.01–10 CH_WRITE_BYTES, U64, RO, DEV (spec/12_memory_tiers.md, Table 12.8). -/
def CH_WRITE_BYTES (n : Nat) : Nat := okey 0x7031 (0x01 + n) 0
/-- 7040–704F.01–0C CORE_STALL_CAUSE, U64, RO, DEV (spec/12_memory_tiers.md, Table 12.8). -/
def CORE_STALL_CAUSE (i n : Nat) : Nat := okey (0x7040 + i) (0x01 + n) 0
/-- 7050.01–0C TEN_STALL_CAUSE, U64, RO, TEN (spec/12_memory_tiers.md, Table 12.8). -/
def TEN_STALL_CAUSE (n t : Nat) : Nat := okey 0x7050 (0x01 + n) t
/-- 6200.01 BE_QUANTUM_US, U32, RW, DEV (spec/13_scheduling_budgets.md, Table 13.4). -/
def BE_QUANTUM_US : Nat := okey 0x6200 0x01 0
/-- 6201.01–04 CORE_GRANT, U8, RW, TEN (spec/13_scheduling_budgets.md, Table 13.4). -/
def CORE_GRANT (n t : Nat) : Nat := okey 0x6201 (0x01 + n) t
/-- 6202.01 LC_PERMITTED, BOOL, RW, TEN (spec/13_scheduling_budgets.md, Table 13.4). -/
def LC_PERMITTED (t : Nat) : Nat := okey 0x6202 0x01 t
/-- 6202.02 BE_WEIGHT, U8, RW, TEN (spec/13_scheduling_budgets.md, Table 13.4). -/
def BE_WEIGHT (t : Nat) : Nat := okey 0x6202 0x02 t
/-- 6202.03 SAVE_BASE, U64, RW, TEN (spec/13_scheduling_budgets.md, Table 13.4). -/
def SAVE_BASE (t : Nat) : Nat := okey 0x6202 0x03 t
/-- 6202.04 SAVE_SIZE, U32, RW, TEN (spec/13_scheduling_budgets.md, Table 13.4). -/
def SAVE_SIZE (t : Nat) : Nat := okey 0x6202 0x04 t
/-- 6203.01–04 WAY_GRANT, U16, RW, TEN (spec/13_scheduling_budgets.md, Table 13.4). -/
def WAY_GRANT (n t : Nat) : Nat := okey 0x6203 (0x01 + n) t
/-- 6204.01 CHANNEL_GRANT, U16, RWI, TEN (spec/13_scheduling_budgets.md, Table 13.4). -/
def CHANNEL_GRANT (t : Nat) : Nat := okey 0x6204 0x01 t
/-- 6205.01 PREEMPTIONS, U32, RO, TEN (spec/13_scheduling_budgets.md, Table 13.4). -/
def PREEMPTIONS (t : Nat) : Nat := okey 0x6205 0x01 t
/-- 6205.02 LC_WAIT_MAX_NS, U32, RO, TEN (spec/13_scheduling_budgets.md, Table 13.4). -/
def LC_WAIT_MAX_NS (t : Nat) : Nat := okey 0x6205 0x02 t
/-- 6205.03 SWITCH_INS, U32, RO, TEN (spec/13_scheduling_budgets.md, Table 13.4). -/
def SWITCH_INS (t : Nat) : Nat := okey 0x6205 0x03 t
/-- 6206.01–10 CORE_LC_TENANT, U8, RO, DEV (spec/13_scheduling_budgets.md, Table 13.4). -/
def CORE_LC_TENANT (n : Nat) : Nat := okey 0x6206 (0x01 + n) 0
/-- 6210.01–10 CORE_ACTIVITY, U8, RO, DEV (spec/13_scheduling_budgets.md, Table 13.4). -/
def CORE_ACTIVITY (n : Nat) : Nat := okey 0x6210 (0x01 + n) 0
/-- 6211.01–10 CORE_SWITCHES, U32, RO, DEV (spec/13_scheduling_budgets.md, Table 13.4). -/
def CORE_SWITCHES (n : Nat) : Nat := okey 0x6211 (0x01 + n) 0
/-- 6212.01–10 SWITCH_LAST_NS, U32, RO, DEV (spec/13_scheduling_budgets.md, Table 13.4). -/
def SWITCH_LAST_NS (n : Nat) : Nat := okey 0x6212 (0x01 + n) 0
/-- 6213.01–10 SWITCH_OVERRUNS, U32, RO, DEV (spec/13_scheduling_budgets.md, Table 13.4). -/
def SWITCH_OVERRUNS (n : Nat) : Nat := okey 0x6213 (0x01 + n) 0
/-- 6300.01 BUDGET_PERIOD_US, U16, RW, DEV (spec/13_scheduling_budgets.md, Table 13.5). -/
def BUDGET_PERIOD_US : Nat := okey 0x6300 0x01 0
/-- 6300.02 PERIOD_COUNT, U64, RO, DEV (spec/13_scheduling_budgets.md, Table 13.5). -/
def PERIOD_COUNT : Nat := okey 0x6300 0x02 0
/-- 6310.01–0D LC_RESERVE, U16, RW, TEN (spec/13_scheduling_budgets.md, Table 13.5). -/
def LC_RESERVE (n t : Nat) : Nat := okey 0x6310 (0x01 + n) t
/-- 6311.01–0D LC_LIMIT, U16, RW, TEN (spec/13_scheduling_budgets.md, Table 13.5). -/
def LC_LIMIT (n t : Nat) : Nat := okey 0x6311 (0x01 + n) t
/-- 6312.01–0D BE_LIMIT, U16, RW, TEN (spec/13_scheduling_budgets.md, Table 13.5). -/
def BE_LIMIT (n t : Nat) : Nat := okey 0x6312 (0x01 + n) t
/-- 6318.01–0D PASS_LC, U64, RO, TEN (spec/13_scheduling_budgets.md, Table 13.5). -/
def PASS_LC (n t : Nat) : Nat := okey 0x6318 (0x01 + n) t
/-- 6319.01–0D PASS_BE, U64, RO, TEN (spec/13_scheduling_budgets.md, Table 13.5). -/
def PASS_BE (n t : Nat) : Nat := okey 0x6319 (0x01 + n) t
/-- 631A.01–0D USED_LC, U64, RO, TEN (spec/13_scheduling_budgets.md, Table 13.5). -/
def USED_LC (n t : Nat) : Nat := okey 0x631A (0x01 + n) t
/-- 631B.01–0D USED_BE, U64, RO, TEN (spec/13_scheduling_budgets.md, Table 13.5). -/
def USED_BE (n t : Nat) : Nat := okey 0x631B (0x01 + n) t
/-- 631C.01–0D THROTTLED_LC, U32, RO, TEN (spec/13_scheduling_budgets.md, Table 13.5). -/
def THROTTLED_LC (n t : Nat) : Nat := okey 0x631C (0x01 + n) t
/-- 631D.01–0D THROTTLED_BE, U32, RO, TEN (spec/13_scheduling_budgets.md, Table 13.5). -/
def THROTTLED_BE (n t : Nat) : Nat := okey 0x631D (0x01 + n) t
/-- 6320.01–0D RESERVE_TOTAL, U16, RO, DEV (spec/13_scheduling_budgets.md, Table 13.5). -/
def RESERVE_TOTAL (n : Nat) : Nat := okey 0x6320 (0x01 + n) 0
/-- 4000.01–08 CH_MODE, U8, RWI, DEV (spec/14_audio_front_end.md, Table 14.10). -/
def CH_MODE (n : Nat) : Nat := okey 0x4000 (0x01 + n) 0
/-- 4001.01–08 CH_BIAS, U8, RWI, DEV (spec/14_audio_front_end.md, Table 14.10). -/
def CH_BIAS (n : Nat) : Nat := okey 0x4001 (0x01 + n) 0
/-- 4002.01–08 CH_PGA_DB, U8, RWI, DEV (spec/14_audio_front_end.md, Table 14.10). -/
def CH_PGA_DB (n : Nat) : Nat := okey 0x4002 (0x01 + n) 0
/-- 4003.01–08 CH_GAIN, U32, RW, DEV (spec/14_audio_front_end.md, Table 14.10). -/
def CH_GAIN (n : Nat) : Nat := okey 0x4003 (0x01 + n) 0
/-- 4004.01–08 CH_DELAY, U16, RW, DEV (spec/14_audio_front_end.md, Table 14.10). -/
def CH_DELAY (n : Nat) : Nat := okey 0x4004 (0x01 + n) 0
/-- 4005.01–02 MICBIAS_MV, U16, RWI, DEV (spec/14_audio_front_end.md, Table 14.10). -/
def MICBIAS_MV (n : Nat) : Nat := okey 0x4005 (0x01 + n) 0
/-- 4005.03 MICBIAS_STATE, U8, EV, DEV (spec/14_audio_front_end.md, Table 14.10). -/
def MICBIAS_STATE : Nat := okey 0x4005 0x03 0
/-- 4006.01 SAMPLE_RATE, U8, RWI, DEV (spec/14_audio_front_end.md, Table 14.10). -/
def SAMPLE_RATE : Nat := okey 0x4006 0x01 0
/-- 4007.01–08 CH_CLIPS, U32, RO, DEV (spec/14_audio_front_end.md, Table 14.10). -/
def CH_CLIPS (n : Nat) : Nat := okey 0x4007 (0x01 + n) 0
/-- 4010.01 COMP_ENABLE, U8, RW, DEV (spec/14_audio_front_end.md, Table 14.10). -/
def COMP_ENABLE : Nat := okey 0x4010 0x01 0
/-- 4010.02 COMP_FIXED, I16, RW, DEV (spec/14_audio_front_end.md, Table 14.10). -/
def COMP_FIXED : Nat := okey 0x4010 0x02 0
/-- 4010.03 COMP_MARGIN, U16, RW, DEV (spec/14_audio_front_end.md, Table 14.10). -/
def COMP_MARGIN : Nat := okey 0x4010 0x03 0
/-- 4010.04 THRESH_MIN, I16, RW, DEV (spec/14_audio_front_end.md, Table 14.10). -/
def THRESH_MIN : Nat := okey 0x4010 0x04 0
/-- 4010.05 THRESH_MAX, I16, RW, DEV (spec/14_audio_front_end.md, Table 14.10). -/
def THRESH_MAX : Nat := okey 0x4010 0x05 0
/-- 4010.06 BASE_HOLD_MS, U16, RW, DEV (spec/14_audio_front_end.md, Table 14.10). -/
def BASE_HOLD_MS : Nat := okey 0x4010 0x06 0
/-- 4011.01–04 COMP_THRESH, I16, RO, DEV (spec/14_audio_front_end.md, Table 14.10). -/
def COMP_THRESH (n : Nat) : Nat := okey 0x4011 (0x01 + n) 0
/-- 4011.05–08 NOISE_FLOOR, I16, RO, DEV (spec/14_audio_front_end.md, Table 14.10). -/
def NOISE_FLOOR (n : Nat) : Nat := okey 0x4011 (0x05 + n) 0
/-- 4012.01 ESTIMATOR_STATE, U8, EV, DEV (spec/14_audio_front_end.md, Table 14.10). -/
def ESTIMATOR_STATE : Nat := okey 0x4012 0x01 0
/-- 4012.02 SETTLE_REMAINING_MS, U16, RO, DEV (spec/14_audio_front_end.md, Table 14.10). -/
def SETTLE_REMAINING_MS : Nat := okey 0x4012 0x02 0
/-- 4013.01 COMP_TRIGGERS, U32, EV, DEV (spec/14_audio_front_end.md, Table 14.10). -/
def COMP_TRIGGERS : Nat := okey 0x4013 0x01 0
/-- 4013.02 EARLY_DECISIONS, U32, RO, DEV (spec/14_audio_front_end.md, Table 14.10). -/
def EARLY_DECISIONS : Nat := okey 0x4013 0x02 0
/-- 4013.03 BASE_RUNS, U32, RO, DEV (spec/14_audio_front_end.md, Table 14.10). -/
def BASE_RUNS : Nat := okey 0x4013 0x03 0
/-- 4020.01 RING_CHANNELS, U8, RWI, DEV (spec/14_audio_front_end.md, Table 14.10). -/
def RING_CHANNELS : Nat := okey 0x4020 0x01 0
/-- 4020.02 RING_BITS, U8, RWI, DEV (spec/14_audio_front_end.md, Table 14.10). -/
def RING_BITS : Nat := okey 0x4020 0x02 0
/-- 4020.03 RING_STATE, U8, EV, DEV (spec/14_audio_front_end.md, Table 14.10). -/
def RING_STATE : Nat := okey 0x4020 0x03 0
/-- 4020.04 RING_SPAN_MS, U32, RO, DEV (spec/14_audio_front_end.md, Table 14.10). -/
def RING_SPAN_MS : Nat := okey 0x4020 0x04 0
/-- 4020.05 RING_OLDEST, TIME96, RO, DEV (spec/14_audio_front_end.md, Table 14.10). -/
def RING_OLDEST : Nat := okey 0x4020 0x05 0
/-- 4020.06 RING_WRAPPED, BOOL, RO, DEV (spec/14_audio_front_end.md, Table 14.10). -/
def RING_WRAPPED : Nat := okey 0x4020 0x06 0
/-- 4020.07 HANDOVER_PREROLL_MS, U16, RW, DEV (spec/14_audio_front_end.md, Table 14.10). -/
def HANDOVER_PREROLL_MS : Nat := okey 0x4020 0x07 0
/-- 4020.08 HANDOVER_OPEN_MS, U16, RW, DEV (spec/14_audio_front_end.md, Table 14.10). -/
def HANDOVER_OPEN_MS : Nat := okey 0x4020 0x08 0
/-- 4020.09 CATCHUP_FACTOR, U8, RO, DEV (spec/14_audio_front_end.md, Table 14.10). -/
def CATCHUP_FACTOR : Nat := okey 0x4020 0x09 0
/-- 4021.01 HANDOVER_STREAM, U8, RWI, TEN (spec/14_audio_front_end.md, Table 14.10). -/
def HANDOVER_STREAM (t : Nat) : Nat := okey 0x4021 0x01 t
/-- 4021.02 HANDOVER_CONTROL, U8, WO, TEN (spec/14_audio_front_end.md, Table 14.10). -/
def HANDOVER_CONTROL (t : Nat) : Nat := okey 0x4021 0x02 t
/-- 4022.01 WAKES_LATCHED, U32, RO, DEV (spec/14_audio_front_end.md, Table 14.10). -/
def WAKES_LATCHED : Nat := okey 0x4022 0x01 0
/-- 4022.02 LATCHES_EXPIRED, U32, RO, DEV (spec/14_audio_front_end.md, Table 14.10). -/
def LATCHES_EXPIRED : Nat := okey 0x4022 0x02 0
/-- 4022.03 HANDOVERS, U32, RO, DEV (spec/14_audio_front_end.md, Table 14.10). -/
def HANDOVERS : Nat := okey 0x4022 0x03 0
/-- 4022.04 MARKERS, U32, RO, DEV (spec/14_audio_front_end.md, Table 14.10). -/
def MARKERS : Nat := okey 0x4022 0x04 0
/-- 4022.05 RING_RESETS, U32, RO, DEV (spec/14_audio_front_end.md, Table 14.10). -/
def RING_RESETS : Nat := okey 0x4022 0x05 0
/-- 4030.01–02 TDM_ROLE, U8, RWI, DEV (spec/14_audio_front_end.md, Table 14.10). -/
def TDM_ROLE (n : Nat) : Nat := okey 0x4030 (0x01 + n) 0
/-- 4030.03–04 TDM_RATE, U8, RWI, DEV (spec/14_audio_front_end.md, Table 14.10). -/
def TDM_RATE (n : Nat) : Nat := okey 0x4030 (0x03 + n) 0
/-- 4030.05–06 TDM_FORMAT, U8, RWI, DEV (spec/14_audio_front_end.md, Table 14.10). -/
def TDM_FORMAT (n : Nat) : Nat := okey 0x4030 (0x05 + n) 0
/-- 4031.01–02 TDM_RX_SLOTS, U8, RW, TEN (spec/14_audio_front_end.md, Table 14.10). -/
def TDM_RX_SLOTS (n t : Nat) : Nat := okey 0x4031 (0x01 + n) t
/-- 4031.03–04 TDM_TX_SLOTS, U8, RW, TEN (spec/14_audio_front_end.md, Table 14.10). -/
def TDM_TX_SLOTS (n t : Nat) : Nat := okey 0x4031 (0x03 + n) t
/-- 4032.01–02 TDM_LOCKED, U8, EV, DEV (spec/14_audio_front_end.md, Table 14.10). -/
def TDM_LOCKED (n : Nat) : Nat := okey 0x4032 (0x01 + n) 0
/-- 4032.03–04 TDM_RATE_PPM, I32, RO, DEV (spec/14_audio_front_end.md, Table 14.10). -/
def TDM_RATE_PPM (n : Nat) : Nat := okey 0x4032 (0x03 + n) 0
/-- 4032.05–06 TDM_UNDERRUNS, U32, RO, DEV (spec/14_audio_front_end.md, Table 14.10). -/
def TDM_UNDERRUNS (n : Nat) : Nat := okey 0x4032 (0x05 + n) 0
/-- 4032.07–08 TDM_CLOCK_LOSSES, U32, RO, DEV (spec/14_audio_front_end.md, Table 14.10). -/
def TDM_CLOCK_LOSSES (n : Nat) : Nat := okey 0x4032 (0x07 + n) 0
/-- 5000.01 PRIVACY, U8, EV, DEV (spec/15_camera_pipeline.md, Table 15.8). -/
def PRIVACY : Nat := okey 0x5000 0x01 0
/-- 5000.02 PRIVACY_CHANGES, U32, RO, DEV (spec/15_camera_pipeline.md, Table 15.8). -/
def PRIVACY_CHANGES : Nat := okey 0x5000 0x02 0
/-- 5000.03 INLINE_INPUT, U8, RWI, DEV (spec/15_camera_pipeline.md, Table 15.8). -/
def INLINE_INPUT : Nat := okey 0x5000 0x03 0
/-- 5000.04 MP_LOAD, U16, RO, DEV (spec/15_camera_pipeline.md, Table 15.8). -/
def MP_LOAD : Nat := okey 0x5000 0x04 0
/-- 5001–5002.01 LANES, U8, RWI, DEV (spec/15_camera_pipeline.md, Table 15.8). -/
def LANES (i : Nat) : Nat := okey (0x5001 + i) 0x01 0
/-- 5001–5002.02 LANE_RATE_MBPS, U16, RWI, DEV (spec/15_camera_pipeline.md, Table 15.8). -/
def LANE_RATE_MBPS (i : Nat) : Nat := okey (0x5001 + i) 0x02 0
/-- 5001–5002.03 CAM_CLK, U8, RWI, DEV (spec/15_camera_pipeline.md, Table 15.8). -/
def CAM_CLK (i : Nat) : Nat := okey (0x5001 + i) 0x03 0
/-- 5001–5002.04 BUS_MODE, U8, RWI, DEV (spec/15_camera_pipeline.md, Table 15.8). -/
def BUS_MODE (i : Nat) : Nat := okey (0x5001 + i) 0x04 0
/-- 5001–5002.05 RX_STATE, U8, RO, DEV (spec/15_camera_pipeline.md, Table 15.8). -/
def RX_STATE (i : Nat) : Nat := okey (0x5001 + i) 0x05 0
/-- 5001–5002.06 DESKEW_DONE, BOOL, RO, DEV (spec/15_camera_pipeline.md, Table 15.8). -/
def DESKEW_DONE (i : Nat) : Nat := okey (0x5001 + i) 0x06 0
/-- 5001–5002.07 ECC_CORRECTED, U32, RO, DEV (spec/15_camera_pipeline.md, Table 15.8). -/
def CSI_ECC_CORRECTED (i : Nat) : Nat := okey (0x5001 + i) 0x07 0
/-- 5001–5002.08 PKT_DISCARDED, U32, RO, DEV (spec/15_camera_pipeline.md, Table 15.8). -/
def PKT_DISCARDED (i : Nat) : Nat := okey (0x5001 + i) 0x08 0
/-- 5010–501F.01 OWNER, U8, RWI, DEV (spec/15_camera_pipeline.md, Table 15.8). -/
def CAM_OWNER (i : Nat) : Nat := okey (0x5010 + i) 0x01 0
/-- 5010–501F.02 DATA_TYPE, U8, RWI, DEV (spec/15_camera_pipeline.md, Table 15.8). -/
def DATA_TYPE (i : Nat) : Nat := okey (0x5010 + i) 0x02 0
/-- 5010–501F.03 WIDTH, U16, RWI, DEV (spec/15_camera_pipeline.md, Table 15.8). -/
def WIDTH (i : Nat) : Nat := okey (0x5010 + i) 0x03 0
/-- 5010–501F.04 HEIGHT, U16, RWI, DEV (spec/15_camera_pipeline.md, Table 15.8). -/
def HEIGHT (i : Nat) : Nat := okey (0x5010 + i) 0x04 0
/-- 5010–501F.05 ISP, U8, RWI, DEV (spec/15_camera_pipeline.md, Table 15.8). -/
def ISP (i : Nat) : Nat := okey (0x5010 + i) 0x05 0
/-- 5010–501F.06 SENSOR_ADDR, U8, RWI, DEV (spec/15_camera_pipeline.md, Table 15.8). -/
def SENSOR_ADDR (i : Nat) : Nat := okey (0x5010 + i) 0x06 0
/-- 5010–501F.07 LATENCY, U8, RW, DEV (spec/15_camera_pipeline.md, Table 15.8). -/
def LATENCY (i : Nat) : Nat := okey (0x5010 + i) 0x07 0
/-- 5010–501F.08 WINDOW_US, U16, RW, DEV (spec/15_camera_pipeline.md, Table 15.8). -/
def WINDOW_US (i : Nat) : Nat := okey (0x5010 + i) 0x08 0
/-- 5010–501F.09 TIMEOUT_US, U32, RW, DEV (spec/15_camera_pipeline.md, Table 15.8). -/
def TIMEOUT_US (i : Nat) : Nat := okey (0x5010 + i) 0x09 0
/-- 5010–501F.0A BLACK_LEVEL, U16, RW, DEV (spec/15_camera_pipeline.md, Table 15.8). -/
def BLACK_LEVEL (i : Nat) : Nat := okey (0x5010 + i) 0x0A 0
/-- 5010–501F.0B SAT_LEVEL, U16, RW, DEV (spec/15_camera_pipeline.md, Table 15.8). -/
def SAT_LEVEL (i : Nat) : Nat := okey (0x5010 + i) 0x0B 0
/-- 5010–501F.0C MAX_MPIXS, U16, RWI, DEV (spec/15_camera_pipeline.md, Table 15.8). -/
def MAX_MPIXS (i : Nat) : Nat := okey (0x5010 + i) 0x0C 0
/-- 5010–501F.0D FRAME_COUNT, U32, RO, DEV (spec/15_camera_pipeline.md, Table 15.8). -/
def FRAME_COUNT (i : Nat) : Nat := okey (0x5010 + i) 0x0D 0
/-- 5010–501F.0E GEN_IN_FORCE, U32, RO, DEV (spec/15_camera_pipeline.md, Table 15.8). -/
def GEN_IN_FORCE (i : Nat) : Nat := okey (0x5010 + i) 0x0E 0
/-- 5010–501F.0F FRAME_DONE, U32, EV, DEV (spec/15_camera_pipeline.md, Table 15.8). -/
def FRAME_DONE (i : Nat) : Nat := okey (0x5010 + i) 0x0F 0
/-- 5010–501F.10 INPUT_STATE, U8, RO, DEV (spec/15_camera_pipeline.md, Table 15.8). -/
def INPUT_STATE (i : Nat) : Nat := okey (0x5010 + i) 0x10 0
/-- 5010–501F.11 AE_ENABLE, BOOL, RWI, DEV (spec/15_camera_pipeline.md, Table 15.8). -/
def AE_ENABLE (i : Nat) : Nat := okey (0x5010 + i) 0x11 0
/-- 5010–501F.12 AE_TARGET, U16, RW, DEV (spec/15_camera_pipeline.md, Table 15.8). -/
def AE_TARGET (i : Nat) : Nat := okey (0x5010 + i) 0x12 0
/-- 5010–501F.13 EXP_MIN, U16, RW, DEV (spec/15_camera_pipeline.md, Table 15.8). -/
def EXP_MIN (i : Nat) : Nat := okey (0x5010 + i) 0x13 0
/-- 5010–501F.14 EXP_MAX, U16, RW, DEV (spec/15_camera_pipeline.md, Table 15.8). -/
def EXP_MAX (i : Nat) : Nat := okey (0x5010 + i) 0x14 0
/-- 5010–501F.15 GAIN_MIN, U16, RW, DEV (spec/15_camera_pipeline.md, Table 15.8). -/
def GAIN_MIN (i : Nat) : Nat := okey (0x5010 + i) 0x15 0
/-- 5010–501F.16 GAIN_MAX, U16, RW, DEV (spec/15_camera_pipeline.md, Table 15.8). -/
def GAIN_MAX (i : Nat) : Nat := okey (0x5010 + i) 0x16 0
/-- 5010–501F.17 AE_REGS, DOMAIN, 8 B, RWI, DEV (spec/15_camera_pipeline.md, Table 15.8). -/
def AE_REGS (i : Nat) : Nat := okey (0x5010 + i) 0x17 0
/-- 5010–501F.18 AE_EXPOSURE, U16, RO, DEV (spec/15_camera_pipeline.md, Table 15.8). -/
def AE_EXPOSURE (i : Nat) : Nat := okey (0x5010 + i) 0x18 0
/-- 5010–501F.19 AE_GAIN, U16, RO, DEV (spec/15_camera_pipeline.md, Table 15.8). -/
def AE_GAIN (i : Nat) : Nat := okey (0x5010 + i) 0x19 0
/-- 5010–501F.1A ISP_PARAMS, DOMAIN, 1,024 B, RW, DEV (spec/15_camera_pipeline.md, Table 15.8). -/
def ISP_PARAMS (i : Nat) : Nat := okey (0x5010 + i) 0x1A 0
/-- 5020–502F.01 ENABLE, U8, RW, TEN (spec/15_camera_pipeline.md, Table 15.8). -/
def CAM_ENABLE (i t : Nat) : Nat := okey (0x5020 + i) 0x01 t
/-- 5020–502F.02 FRAME_BASE, U64, RW, TEN (spec/15_camera_pipeline.md, Table 15.8). -/
def FRAME_BASE (i t : Nat) : Nat := okey (0x5020 + i) 0x02 t
/-- 5020–502F.03 BUFFERS, U8, RW, TEN (spec/15_camera_pipeline.md, Table 15.8). -/
def BUFFERS (i t : Nat) : Nat := okey (0x5020 + i) 0x03 t
/-- 5020–502F.04 BUF_STRIDE, U32, RW, TEN (spec/15_camera_pipeline.md, Table 15.8). -/
def BUF_STRIDE (i t : Nat) : Nat := okey (0x5020 + i) 0x04 t
/-- 5020–502F.05 LINE_STRIDE, U32, RW, TEN (spec/15_camera_pipeline.md, Table 15.8). -/
def LINE_STRIDE (i t : Nat) : Nat := okey (0x5020 + i) 0x05 t
/-- 5020–502F.06 OUT_FORMAT, U8, RW, TEN (spec/15_camera_pipeline.md, Table 15.8). -/
def OUT_FORMAT (i t : Nat) : Nat := okey (0x5020 + i) 0x06 t
/-- 5020–502F.07 SCALE, U8, RW, TEN (spec/15_camera_pipeline.md, Table 15.8). -/
def SCALE (i t : Nat) : Nat := okey (0x5020 + i) 0x07 t
/-- 5020–502F.08 STATS_BASE, U64, RW, TEN (spec/15_camera_pipeline.md, Table 15.8). -/
def STATS_BASE (i t : Nat) : Nat := okey (0x5020 + i) 0x08 t
/-- 5020–502F.09 RAW_BASE, U64, RW, TEN (spec/15_camera_pipeline.md, Table 15.8). -/
def RAW_BASE (i t : Nat) : Nat := okey (0x5020 + i) 0x09 t
/-- 5020–502F.0A RAW_BUFFERS, U8, RW, TEN (spec/15_camera_pipeline.md, Table 15.8). -/
def RAW_BUFFERS (i t : Nat) : Nat := okey (0x5020 + i) 0x0A t
/-- 5020–502F.0B COMMIT, U8, WO, TEN (spec/15_camera_pipeline.md, Table 15.8). -/
def COMMIT (i t : Nat) : Nat := okey (0x5020 + i) 0x0B t
/-- 5020–502F.0C COMMIT_FRAME, U32, EV, TEN (spec/15_camera_pipeline.md, Table 15.8). -/
def COMMIT_FRAME (i t : Nat) : Nat := okey (0x5020 + i) 0x0C t
/-- 5020–502F.0D COMMIT_PENDING, BOOL, RO, TEN (spec/15_camera_pipeline.md, Table 15.8). -/
def CAM_COMMIT_PENDING (i t : Nat) : Nat := okey (0x5020 + i) 0x0D t
/-- 5020–502F.0E QUEUE_PUSH, DOMAIN, 8–256 B, WO, TEN (spec/15_camera_pipeline.md, Table 15.8). -/
def QUEUE_PUSH (i t : Nat) : Nat := okey (0x5020 + i) 0x0E t
/-- 5020–502F.0F QUEUE_STATE, U8, EV, TEN (spec/15_camera_pipeline.md, Table 15.8). -/
def QUEUE_STATE (i t : Nat) : Nat := okey (0x5020 + i) 0x0F t
/-- 5020–502F.10 QUEUE_LAST_ERROR, U32, RO, TEN (spec/15_camera_pipeline.md, Table 15.8). -/
def QUEUE_LAST_ERROR (i t : Nat) : Nat := okey (0x5020 + i) 0x10 t
/-- 5030–503F.01 FRAMES_DONE, U32, RO, DEV (spec/15_camera_pipeline.md, Table 15.8). -/
def FRAMES_DONE (i : Nat) : Nat := okey (0x5030 + i) 0x01 0
/-- 5030–503F.02 FRAMES_SHORT, U32, RO, DEV (spec/15_camera_pipeline.md, Table 15.8). -/
def FRAMES_SHORT (i : Nat) : Nat := okey (0x5030 + i) 0x02 0
/-- 5030–503F.03 FRAMES_LONG, U32, RO, DEV (spec/15_camera_pipeline.md, Table 15.8). -/
def FRAMES_LONG (i : Nat) : Nat := okey (0x5030 + i) 0x03 0
/-- 5030–503F.04 FRAMES_NO_END, U32, RO, DEV (spec/15_camera_pipeline.md, Table 15.8). -/
def FRAMES_NO_END (i : Nat) : Nat := okey (0x5030 + i) 0x04 0
/-- 5030–503F.05 LINES_CRC, U32, RO, DEV (spec/15_camera_pipeline.md, Table 15.8). -/
def LINES_CRC (i : Nat) : Nat := okey (0x5030 + i) 0x05 0
/-- 5030–503F.06 FRAMES_DROPPED, U32, RO, DEV (spec/15_camera_pipeline.md, Table 15.8). -/
def FRAMES_DROPPED (i : Nat) : Nat := okey (0x5030 + i) 0x06 0
/-- 5030–503F.07 FRAMES_SUSPENDED, U32, RO, DEV (spec/15_camera_pipeline.md, Table 15.8). -/
def FRAMES_SUSPENDED (i : Nat) : Nat := okey (0x5030 + i) 0x07 0
/-- 5030–503F.08 APPLIED_LATE, U32, RO, DEV (spec/15_camera_pipeline.md, Table 15.8). -/
def APPLIED_LATE (i : Nat) : Nat := okey (0x5030 + i) 0x08 0
/-- 5030–503F.09 COMMITS_SUPERSEDED, U32, RO, DEV (spec/15_camera_pipeline.md, Table 15.8). -/
def COMMITS_SUPERSEDED (i : Nat) : Nat := okey (0x5030 + i) 0x09 0
/-- 5030–503F.0A QUEUE_ABORTS, U32, RO, DEV (spec/15_camera_pipeline.md, Table 15.8). -/
def QUEUE_ABORTS (i : Nat) : Nat := okey (0x5030 + i) 0x0A 0
/-- 5030–503F.0B LINES_SHORT, U32, RO, DEV (spec/15_camera_pipeline.md, Table 15.8). -/
def LINES_SHORT (i : Nat) : Nat := okey (0x5030 + i) 0x0B 0
/-- 5030–503F.0C LINES_LONG, U32, RO, DEV (spec/15_camera_pipeline.md, Table 15.8). -/
def LINES_LONG (i : Nat) : Nat := okey (0x5030 + i) 0x0C 0
/-- 3000.01 TIME_NOW, TIME96, RO, DEV (spec/16_time_field_network.md, Table 16.4). -/
def TIME_NOW : Nat := okey 0x3000 0x01 0
/-- 3000.02 STIME_NOW, STIME64, RO, DEV (spec/16_time_field_network.md, Table 16.4). -/
def STIME_NOW : Nat := okey 0x3000 0x02 0
/-- 3000.03 TIME_SET, TIME96, WO, DEV (spec/16_time_field_network.md, Table 16.4). -/
def TIME_SET : Nat := okey 0x3000 0x03 0
/-- 3000.04 TIME_ADJUST, I64, WO, DEV (spec/16_time_field_network.md, Table 16.4). -/
def TIME_ADJUST : Nat := okey 0x3000 0x04 0
/-- 3000.05 RATE_ADJ, I32, RW, DEV (spec/16_time_field_network.md, Table 16.4). -/
def RATE_ADJ : Nat := okey 0x3000 0x05 0
/-- 3001.01 SYNC_SOURCE, U8, RW, DEV (spec/16_time_field_network.md, Table 16.4). -/
def SYNC_SOURCE : Nat := okey 0x3001 0x01 0
/-- 3001.02 TIME_QUALITY, U8, EV, DEV (spec/16_time_field_network.md, Table 16.4). -/
def TIME_QUALITY : Nat := okey 0x3001 0x02 0
/-- 3001.03 OFFSET, I64, RO, DEV (spec/16_time_field_network.md, Table 16.4). -/
def OFFSET : Nat := okey 0x3001 0x03 0
/-- 3001.04 ERROR_BOUND_NS, U64, RO, DEV (spec/16_time_field_network.md, Table 16.4). -/
def ERROR_BOUND_NS : Nat := okey 0x3001 0x04 0
/-- 3001.05 HOLDOVER_PPB, U32, RW, DEV (spec/16_time_field_network.md, Table 16.4). -/
def HOLDOVER_PPB : Nat := okey 0x3001 0x05 0
/-- 3001.06 HOLDOVER_SINCE, TIME96, RO, DEV (spec/16_time_field_network.md, Table 16.4). -/
def HOLDOVER_SINCE : Nat := okey 0x3001 0x06 0
/-- 3001.07 MASTER_ID, DOMAIN, 8 B, RO, DEV (spec/16_time_field_network.md, Table 16.4). -/
def MASTER_ID : Nat := okey 0x3001 0x07 0
/-- 3001.08 LOCK_THRESHOLD_NS, U32, RW, DEV (spec/16_time_field_network.md, Table 16.4). -/
def LOCK_THRESHOLD_NS : Nat := okey 0x3001 0x08 0
/-- 3001.09 STEP_THRESHOLD_NS, U32, RW, DEV (spec/16_time_field_network.md, Table 16.4). -/
def STEP_THRESHOLD_NS : Nat := okey 0x3001 0x09 0
/-- 3001.0A SLEW_MAX_PPB, U32, RW, DEV (spec/16_time_field_network.md, Table 16.4). -/
def SLEW_MAX_PPB : Nat := okey 0x3001 0x0A 0
/-- 3001.0B STEPS, U32, RO, DEV (spec/16_time_field_network.md, Table 16.4). -/
def STEPS : Nat := okey 0x3001 0x0B 0
/-- 3002.01 SLEEP_TOLERANCE_PPB, U32, RW, DEV (spec/16_time_field_network.md, Table 16.4). -/
def SLEEP_TOLERANCE_PPB : Nat := okey 0x3002 0x01 0
/-- 3002.02 SLOW_PERIOD, U32, RO, DEV (spec/16_time_field_network.md, Table 16.4). -/
def SLOW_PERIOD : Nat := okey 0x3002 0x02 0
/-- 3002.03 LAST_SLEEP_NS, U64, RO, DEV (spec/16_time_field_network.md, Table 16.4). -/
def LAST_SLEEP_NS : Nat := okey 0x3002 0x03 0
/-- 3010.01 NET0_MODE, U8, RWI, DEV (spec/16_time_field_network.md, Table 16.4). -/
def NET0_MODE : Nat := okey 0x3010 0x01 0
/-- 3010.02 NET0_LINK, U8, EV, DEV (spec/16_time_field_network.md, Table 16.4). -/
def NET0_LINK : Nat := okey 0x3010 0x02 0
/-- 3010.03 NET0_MAC, DOMAIN, 6 B, RWI, DEV (spec/16_time_field_network.md, Table 16.4). -/
def NET0_MAC : Nat := okey 0x3010 0x03 0
/-- 3010.04 NET0_IPV4, U32, RWI, DEV (spec/16_time_field_network.md, Table 16.4). -/
def NET0_IPV4 : Nat := okey 0x3010 0x04 0
/-- 3010.05 NET0_IPV4_PREFIX, U8, RWI, DEV (spec/16_time_field_network.md, Table 16.4). -/
def NET0_IPV4_PREFIX : Nat := okey 0x3010 0x05 0
/-- 3010.06 NET0_IPV6, DOMAIN, 16 B, RWI, DEV (spec/16_time_field_network.md, Table 16.4). -/
def NET0_IPV6 : Nat := okey 0x3010 0x06 0
/-- 3010.07 NET0_TX_LATENCY, I32, RW, DEV (spec/16_time_field_network.md, Table 16.4). -/
def NET0_TX_LATENCY : Nat := okey 0x3010 0x07 0
/-- 3010.08 NET0_RX_LATENCY, I32, RW, DEV (spec/16_time_field_network.md, Table 16.4). -/
def NET0_RX_LATENCY : Nat := okey 0x3010 0x08 0
/-- 3010.09 MDIO_ACCESS, U32, RW, DEV (spec/16_time_field_network.md, Table 16.4). -/
def MDIO_ACCESS : Nat := okey 0x3010 0x09 0
/-- 3010.0A NET0_TXTS_QUEUE, DOMAIN, 0 or 16 B, RO, DEV (spec/16_time_field_network.md, Table 16.4). -/
def NET0_TXTS_QUEUE : Nat := okey 0x3010 0x0A 0
/-- 3010.0B NET0_TXTS_DROPS, U32, RO, DEV (spec/16_time_field_network.md, Table 16.4). -/
def NET0_TXTS_DROPS : Nat := okey 0x3010 0x0B 0
/-- 3010.0C NET0_TXTS_OVERFLOW, BOOL, RW, DEV (spec/16_time_field_network.md, Table 16.4). -/
def NET0_TXTS_OVERFLOW : Nat := okey 0x3010 0x0C 0
/-- 3010.0D NET0_PTP, BOOL, RWI, DEV (spec/16_time_field_network.md, Table 16.4). -/
def NET0_PTP : Nat := okey 0x3010 0x0D 0
/-- 3010.0E GPTP_DOMAIN, U8, RWI, DEV (spec/16_time_field_network.md, Table 16.4). -/
def GPTP_DOMAIN : Nat := okey 0x3010 0x0E 0
/-- 3010.0F PRIORITY1, U8, RW, DEV (spec/16_time_field_network.md, Table 16.4). -/
def PRIORITY1 : Nat := okey 0x3010 0x0F 0
/-- 3010.10 PRIORITY2, U8, RW, DEV (spec/16_time_field_network.md, Table 16.4). -/
def PRIORITY2 : Nat := okey 0x3010 0x10 0
/-- 3010.11 NET0_SYNC_LOG_INTERVAL, I8, RW, DEV (spec/16_time_field_network.md, Table 16.4). -/
def NET0_SYNC_LOG_INTERVAL : Nat := okey 0x3010 0x11 0
/-- 3010.12 NET0_PDELAY_LOG_INTERVAL, I8, RW, DEV (spec/16_time_field_network.md, Table 16.4). -/
def NET0_PDELAY_LOG_INTERVAL : Nat := okey 0x3010 0x12 0
/-- 3010.13 AS_CAPABLE, BOOL, EV, DEV (spec/16_time_field_network.md, Table 16.4). -/
def AS_CAPABLE : Nat := okey 0x3010 0x13 0
/-- 3010.14 NEIGHBOR_DELAY_NS, U32, RO, DEV (spec/16_time_field_network.md, Table 16.4). -/
def NEIGHBOR_DELAY_NS : Nat := okey 0x3010 0x14 0
/-- 3010.15 NET0_PTP_ERRORS, U32, RO, DEV (spec/16_time_field_network.md, Table 16.4). -/
def NET0_PTP_ERRORS : Nat := okey 0x3010 0x15 0
/-- 3020.01 NET1_ENABLE, BOOL, RWI, DEV (spec/16_time_field_network.md, Table 16.4). -/
def NET1_ENABLE : Nat := okey 0x3020 0x01 0
/-- 3020.02 PLCA_STATUS, U8, EV, DEV (spec/16_time_field_network.md, Table 16.4). -/
def PLCA_STATUS : Nat := okey 0x3020 0x02 0
/-- 3020.03 NET1_MAC, DOMAIN, 6 B, RWI, DEV (spec/16_time_field_network.md, Table 16.4). -/
def NET1_MAC : Nat := okey 0x3020 0x03 0
/-- 3020.04 NET1_IPV4, U32, RWI, DEV (spec/16_time_field_network.md, Table 16.4). -/
def NET1_IPV4 : Nat := okey 0x3020 0x04 0
/-- 3020.05 NET1_IPV4_PREFIX, U8, RWI, DEV (spec/16_time_field_network.md, Table 16.4). -/
def NET1_IPV4_PREFIX : Nat := okey 0x3020 0x05 0
/-- 3020.06 NET1_IPV6, DOMAIN, 16 B, RWI, DEV (spec/16_time_field_network.md, Table 16.4). -/
def NET1_IPV6 : Nat := okey 0x3020 0x06 0
/-- 3020.07 PLCA_ENABLE, BOOL, RWI, DEV (spec/16_time_field_network.md, Table 16.4). -/
def PLCA_ENABLE : Nat := okey 0x3020 0x07 0
/-- 3020.08 PLCA_NODE_ID, U8, RWI, DEV (spec/16_time_field_network.md, Table 16.4). -/
def PLCA_NODE_ID : Nat := okey 0x3020 0x08 0
/-- 3020.09 PLCA_NODE_COUNT, U8, RWI, DEV (spec/16_time_field_network.md, Table 16.4). -/
def PLCA_NODE_COUNT : Nat := okey 0x3020 0x09 0
/-- 3020.0A PLCA_TO_TIMER, U8, RWI, DEV (spec/16_time_field_network.md, Table 16.4). -/
def PLCA_TO_TIMER : Nat := okey 0x3020 0x0A 0
/-- 3020.0B PLCA_BURST_COUNT, U8, RWI, DEV (spec/16_time_field_network.md, Table 16.4). -/
def PLCA_BURST_COUNT : Nat := okey 0x3020 0x0B 0
/-- 3020.0C PLCA_BURST_TIMER, U8, RWI, DEV (spec/16_time_field_network.md, Table 16.4). -/
def PLCA_BURST_TIMER : Nat := okey 0x3020 0x0C 0
/-- 3020.0D NET1_PTP_ROLE, U8, RWI, DEV (spec/16_time_field_network.md, Table 16.4). -/
def NET1_PTP_ROLE : Nat := okey 0x3020 0x0D 0
/-- 3020.0E NET1_PTP_DOMAIN, U8, RWI, DEV (spec/16_time_field_network.md, Table 16.4). -/
def NET1_PTP_DOMAIN : Nat := okey 0x3020 0x0E 0
/-- 3020.0F NET1_PTP_TRANSPORT, U8, RWI, DEV (spec/16_time_field_network.md, Table 16.4). -/
def NET1_PTP_TRANSPORT : Nat := okey 0x3020 0x0F 0
/-- 3020.10 NET1_SYNC_LOG_INTERVAL, I8, RW, DEV (spec/16_time_field_network.md, Table 16.4). -/
def NET1_SYNC_LOG_INTERVAL : Nat := okey 0x3020 0x10 0
/-- 3020.11 NET1_DELAY_LOG_INTERVAL, I8, RW, DEV (spec/16_time_field_network.md, Table 16.4). -/
def NET1_DELAY_LOG_INTERVAL : Nat := okey 0x3020 0x11 0
/-- 3020.12 NET1_ANNOUNCE_LOG_INTERVAL, I8, RW, DEV (spec/16_time_field_network.md, Table 16.4). -/
def NET1_ANNOUNCE_LOG_INTERVAL : Nat := okey 0x3020 0x12 0
/-- 3020.13 MEAN_PATH_DELAY_NS, U32, RO, DEV (spec/16_time_field_network.md, Table 16.4). -/
def MEAN_PATH_DELAY_NS : Nat := okey 0x3020 0x13 0
/-- 3020.14 NET1_TXTS_QUEUE, DOMAIN, 0 or 16 B, RO, DEV (spec/16_time_field_network.md, Table 16.4). -/
def NET1_TXTS_QUEUE : Nat := okey 0x3020 0x14 0
/-- 3020.15 NET1_TXTS_DROPS, U32, RO, DEV (spec/16_time_field_network.md, Table 16.4). -/
def NET1_TXTS_DROPS : Nat := okey 0x3020 0x15 0
/-- 3020.16 NET1_TXTS_OVERFLOW, BOOL, RW, DEV (spec/16_time_field_network.md, Table 16.4). -/
def NET1_TXTS_OVERFLOW : Nat := okey 0x3020 0x16 0
/-- 3020.17 NET1_WAKE_ENABLE, BOOL, RW, DEV (spec/16_time_field_network.md, Table 16.4). -/
def NET1_WAKE_ENABLE : Nat := okey 0x3020 0x17 0
/-- 3020.18 WAKE_ETHERTYPE, U16, RW, DEV (spec/16_time_field_network.md, Table 16.4). -/
def WAKE_ETHERTYPE : Nat := okey 0x3020 0x18 0
/-- 3020.19 WAKE_PATTERN, DOMAIN, 8 B, RW, DEV (spec/16_time_field_network.md, Table 16.4). -/
def WAKE_PATTERN : Nat := okey 0x3020 0x19 0
/-- 3020.1A WAKE_FRAMES, U32, RO, DEV (spec/16_time_field_network.md, Table 16.4). -/
def WAKE_FRAMES : Nat := okey 0x3020 0x1A 0
/-- 3020.1B NET1_PHY_TX_LATENCY, I32, RO, DEV (spec/16_time_field_network.md, Table 16.4). -/
def NET1_PHY_TX_LATENCY : Nat := okey 0x3020 0x1B 0
/-- 3020.1C NET1_PHY_RX_LATENCY, I32, RO, DEV (spec/16_time_field_network.md, Table 16.4). -/
def NET1_PHY_RX_LATENCY : Nat := okey 0x3020 0x1C 0
/-- 3020.1D BEACON_LOSSES, U32, RO, DEV (spec/16_time_field_network.md, Table 16.4). -/
def BEACON_LOSSES : Nat := okey 0x3020 0x1D 0
/-- 3020.1E NET1_FOREIGN_ANNOUNCE, U32, RO, DEV (spec/16_time_field_network.md, Table 16.4). -/
def NET1_FOREIGN_ANNOUNCE : Nat := okey 0x3020 0x1E 0
/-- 3020.1F NET1_PTP_ERRORS, U32, RO, DEV (spec/16_time_field_network.md, Table 16.4). -/
def NET1_PTP_ERRORS : Nat := okey 0x3020 0x1F 0
/-- 3100–3103.01 TIO_MODE, U8, RW, TEN (spec/16_time_field_network.md, Table 16.8). -/
def TIO_MODE (i t : Nat) : Nat := okey (0x3100 + i) 0x01 t
/-- 3100–3103.02 TIO_EDGE, U8, RWI, TEN (spec/16_time_field_network.md, Table 16.8). -/
def TIO_EDGE (i t : Nat) : Nat := okey (0x3100 + i) 0x02 t
/-- 3100–3103.03 PULSE_START, STIME64, RWI, TEN (spec/16_time_field_network.md, Table 16.8). -/
def PULSE_START (i t : Nat) : Nat := okey (0x3100 + i) 0x03 t
/-- 3100–3103.04 PULSE_PERIOD, U64, RWI, TEN (spec/16_time_field_network.md, Table 16.8). -/
def PULSE_PERIOD (i t : Nat) : Nat := okey (0x3100 + i) 0x04 t
/-- 3100–3103.05 PULSE_WIDTH, U64, RWI, TEN (spec/16_time_field_network.md, Table 16.8). -/
def PULSE_WIDTH (i t : Nat) : Nat := okey (0x3100 + i) 0x05 t
/-- 3100–3103.06 PULSE_COUNT, U32, RWI, TEN (spec/16_time_field_network.md, Table 16.8). -/
def PULSE_COUNT (i t : Nat) : Nat := okey (0x3100 + i) 0x06 t
/-- 3100–3103.07 PULSE_POLARITY, U8, RWI, TEN (spec/16_time_field_network.md, Table 16.8). -/
def PULSE_POLARITY (i t : Nat) : Nat := okey (0x3100 + i) 0x07 t
/-- 3100–3103.08 CAPTURE_QUEUE, DOMAIN, 0 or 16 B, RO, TEN (spec/16_time_field_network.md, Table 16.8). -/
def CAPTURE_QUEUE (i t : Nat) : Nat := okey (0x3100 + i) 0x08 t
/-- 3100–3103.09 CAPTURE_DROPS, U32, RO, TEN (spec/16_time_field_network.md, Table 16.8). -/
def CAPTURE_DROPS (i t : Nat) : Nat := okey (0x3100 + i) 0x09 t
/-- 3100–3103.0A CAPTURE_OVERFLOW, BOOL, RW, TEN (spec/16_time_field_network.md, Table 16.8). -/
def CAPTURE_OVERFLOW (i t : Nat) : Nat := okey (0x3100 + i) 0x0A t
/-- 3100–3103.0B PULSES_EMITTED, U32, RO, TEN (spec/16_time_field_network.md, Table 16.8). -/
def PULSES_EMITTED (i t : Nat) : Nat := okey (0x3100 + i) 0x0B t
/-- 3100–3103.0C PULSES_MISSED, U32, RO, TEN (spec/16_time_field_network.md, Table 16.8). -/
def PULSES_MISSED (i t : Nat) : Nat := okey (0x3100 + i) 0x0C t
/-- 3100–3103.0D TIO_STATE, U8, RO, TEN (spec/16_time_field_network.md, Table 16.8). -/
def TIO_STATE (i t : Nat) : Nat := okey (0x3100 + i) 0x0D t
/-- 3110–3117.01 TRIG_ACTIONS, U8, RW, TEN (spec/16_time_field_network.md, Table 16.8). -/
def TRIG_ACTIONS (i t : Nat) : Nat := okey (0x3110 + i) 0x01 t
/-- 3110–3117.02 TRIG_TARGET, STIME64, RW, TEN (spec/16_time_field_network.md, Table 16.8). -/
def TRIG_TARGET (i t : Nat) : Nat := okey (0x3110 + i) 0x02 t
/-- 3110–3117.03 TRIG_PERIOD, U64, RW, TEN (spec/16_time_field_network.md, Table 16.8). -/
def TRIG_PERIOD (i t : Nat) : Nat := okey (0x3110 + i) 0x03 t
/-- 3110–3117.04 TRIG_IO, U8, RW, TEN (spec/16_time_field_network.md, Table 16.8). -/
def TRIG_IO (i t : Nat) : Nat := okey (0x3110 + i) 0x04 t
/-- 3110–3117.05 TRIG_STATE, U8, EV, TEN (spec/16_time_field_network.md, Table 16.8). -/
def TRIG_STATE (i t : Nat) : Nat := okey (0x3110 + i) 0x05 t
/-- 3110–3117.06 TRIG_LATE, U32, RO, TEN (spec/16_time_field_network.md, Table 16.8). -/
def TRIG_LATE (i t : Nat) : Nat := okey (0x3110 + i) 0x06 t
/-- 3110–3117.07 TRIG_MISSED, U32, RO, TEN (spec/16_time_field_network.md, Table 16.8). -/
def TRIG_MISSED (i t : Nat) : Nat := okey (0x3110 + i) 0x07 t
/-- 3110–3117.08 TRIG_LAST, TIME96, RO, TEN (spec/16_time_field_network.md, Table 16.8). -/
def TRIG_LAST (i t : Nat) : Nat := okey (0x3110 + i) 0x08 t
/-- 3110–3117.09 ALIGN_SKIPS, U32, RO, TEN (spec/16_time_field_network.md, Table 16.8). -/
def ALIGN_SKIPS (i t : Nat) : Nat := okey (0x3110 + i) 0x09 t
/-- 7100.01 LINK_STATE, U8, EV, DEV (spec/17_host_link_streams.md, Table 17.10). -/
def LINK_STATE : Nat := okey 0x7100 0x01 0
/-- 7100.02 LINK_SPEED, U8, RO, DEV (spec/17_host_link_streams.md, Table 17.10). -/
def LINK_SPEED : Nat := okey 0x7100 0x02 0
/-- 7100.03 LINK_WIDTH, U8, RO, DEV (spec/17_host_link_streams.md, Table 17.10). -/
def LINK_WIDTH : Nat := okey 0x7100 0x03 0
/-- 7100.04 LINK_DOWNS, U32, RO, DEV (spec/17_host_link_streams.md, Table 17.10). -/
def LINK_DOWNS : Nat := okey 0x7100 0x04 0
/-- 7100.05 FLR_COUNT, U32, RO, DEV (spec/17_host_link_streams.md, Table 17.10). -/
def FLR_COUNT : Nat := okey 0x7100 0x05 0
/-- 7100.06 MB_IGNORED, U32, RO, TEN (spec/17_host_link_streams.md, Table 17.10). -/
def MB_IGNORED (t : Nat) : Nat := okey 0x7100 0x06 t
/-- 7101.01 QUIESCE_STATE, U8, EV, DEV (spec/17_host_link_streams.md, Table 17.10). -/
def QUIESCE_STATE : Nat := okey 0x7101 0x01 0
/-- 7102.01 WAKE_HOST_MASK, U16, RW, DEV (spec/17_host_link_streams.md, Table 17.10). -/
def WAKE_HOST_MASK : Nat := okey 0x7102 0x01 0
/-- 7102.02 WAKE_HOLD_MS, U16, RW, DEV (spec/17_host_link_streams.md, Table 17.10). -/
def WAKE_HOLD_MS : Nat := okey 0x7102 0x02 0
/-- 7102.03 WAKE_ASSERTS, U32, RO, DEV (spec/17_host_link_streams.md, Table 17.10). -/
def WAKE_ASSERTS : Nat := okey 0x7102 0x03 0
/-- 7110–7117.01 Q_ENABLE, U8, RW, TEN (spec/17_host_link_streams.md, Table 17.10). -/
def Q_ENABLE (i t : Nat) : Nat := okey (0x7110 + i) 0x01 t
/-- 7110–7117.02 Q_CLASS, U8, RWI, TEN (spec/17_host_link_streams.md, Table 17.10). -/
def Q_CLASS (i t : Nat) : Nat := okey (0x7110 + i) 0x02 t
/-- 7110–7117.03 Q_STATE, U8, EV, TEN (spec/17_host_link_streams.md, Table 17.10). -/
def Q_STATE (i t : Nat) : Nat := okey (0x7110 + i) 0x03 t
/-- 7110–7117.04 Q_FAULT_CAUSE, U8, RO, TEN (spec/17_host_link_streams.md, Table 17.10). -/
def Q_FAULT_CAUSE (i t : Nat) : Nat := okey (0x7110 + i) 0x04 t
/-- 7110–7117.05 Q_COMPLETED, U32, RO, TEN (spec/17_host_link_streams.md, Table 17.10). -/
def Q_COMPLETED (i t : Nat) : Nat := okey (0x7110 + i) 0x05 t
/-- 7120.01 STREAM_COMMIT, U8, WO, TEN (spec/17_host_link_streams.md, Table 17.10). -/
def STREAM_COMMIT (t : Nat) : Nat := okey 0x7120 0x01 t
/-- A000–A05F.01 ENABLE, U8, RW, TEN (spec/17_host_link_streams.md, Table 17.11). -/
def STR_ENABLE (i t : Nat) : Nat := okey (0xA000 + i) 0x01 t
/-- A000–A05F.02 SOURCE, U16, RWI, TEN (spec/17_host_link_streams.md, Table 17.11). -/
def STR_SOURCE (i t : Nat) : Nat := okey (0xA000 + i) 0x02 t
/-- A000–A05F.03 SINK, U16, RW, TEN (spec/17_host_link_streams.md, Table 17.11). -/
def STR_SINK (i t : Nat) : Nat := okey (0xA000 + i) 0x03 t
/-- A000–A05F.04 CLASS, U8, RWI, TEN (spec/17_host_link_streams.md, Table 17.11). -/
def STR_CLASS (i t : Nat) : Nat := okey (0xA000 + i) 0x04 t
/-- A000–A05F.05 BLOCK_MS, U8, RWI, TEN (spec/17_host_link_streams.md, Table 17.11). -/
def STR_BLOCK_MS (i t : Nat) : Nat := okey (0xA000 + i) 0x05 t
/-- A000–A05F.06 SMOOTH, BOOL, RW, TEN (spec/17_host_link_streams.md, Table 17.11). -/
def STR_SMOOTH (i t : Nat) : Nat := okey (0xA000 + i) 0x06 t
/-- A000–A05F.07 SRC_RING_BASE, U64, RW, TEN (spec/17_host_link_streams.md, Table 17.11). -/
def STR_SRC_RING_BASE (i t : Nat) : Nat := okey (0xA000 + i) 0x07 t
/-- A000–A05F.08 SRC_RING_ENTRIES, U16, RW, TEN (spec/17_host_link_streams.md, Table 17.11). -/
def STR_SRC_RING_ENTRIES (i t : Nat) : Nat := okey (0xA000 + i) 0x08 t
/-- A000–A05F.09 SNK_RING_BASE, U64, RW, TEN (spec/17_host_link_streams.md, Table 17.11). -/
def STR_SNK_RING_BASE (i t : Nat) : Nat := okey (0xA000 + i) 0x09 t
/-- A000–A05F.0A SNK_RING_ENTRIES, U16, RW, TEN (spec/17_host_link_streams.md, Table 17.11). -/
def STR_SNK_RING_ENTRIES (i t : Nat) : Nat := okey (0xA000 + i) 0x0A t
/-- A000–A05F.0B NET_FILTER, DOMAIN, 8 B, RWI, TEN (spec/17_host_link_streams.md, Table 17.11). -/
def STR_NET_FILTER (i t : Nat) : Nat := okey (0xA000 + i) 0x0B t
/-- A000–A05F.0C STATE, U8, EV, TEN (spec/17_host_link_streams.md, Table 17.11). -/
def STR_STATE (i t : Nat) : Nat := okey (0xA000 + i) 0x0C t
/-- A000–A05F.0D FAULT_CAUSE, U8, RO, TEN (spec/17_host_link_streams.md, Table 17.11). -/
def STR_FAULT_CAUSE (i t : Nat) : Nat := okey (0xA000 + i) 0x0D t
/-- A000–A05F.0E BLOCK_SEQ, U32, RO, TEN (spec/17_host_link_streams.md, Table 17.11). -/
def STR_BLOCK_SEQ (i t : Nat) : Nat := okey (0xA000 + i) 0x0E t
/-- A000–A05F.0F APPLIED_SEQ, U32, EV, TEN (spec/17_host_link_streams.md, Table 17.11). -/
def STR_APPLIED_SEQ (i t : Nat) : Nat := okey (0xA000 + i) 0x0F t
/-- A000–A05F.10 COMMIT_PENDING, BOOL, RO, TEN (spec/17_host_link_streams.md, Table 17.11). -/
def STR_COMMIT_PENDING (i t : Nat) : Nat := okey (0xA000 + i) 0x10 t
/-- A000–A05F.11 DROPS, U32, RO, TEN (spec/17_host_link_streams.md, Table 17.11). -/
def STR_DROPS (i t : Nat) : Nat := okey (0xA000 + i) 0x11 t
/-- A000–A05F.12 UNDERRUNS, U32, RO, TEN (spec/17_host_link_streams.md, Table 17.11). -/
def STR_UNDERRUNS (i t : Nat) : Nat := okey (0xA000 + i) 0x12 t
/-- A000–A05F.13 SUPERSEDED, U32, RO, TEN (spec/17_host_link_streams.md, Table 17.11). -/
def STR_SUPERSEDED (i t : Nat) : Nat := okey (0xA000 + i) 0x13 t
/-- 8000.01 PATROL_STATE, U8, EV, DEV (spec/18_security.md, Table 18.14). -/
def PATROL_STATE : Nat := okey 0x8000 0x01 0
/-- 8000.02 ROM_DIGEST, DOMAIN, 48 B, RO, DEV (spec/18_security.md, Table 18.14). -/
def ROM_DIGEST : Nat := okey 0x8000 0x02 0
/-- 8000.03 DEVICE_ENC_KEY, DOMAIN, 97 B, RO, DEV (spec/18_security.md, Table 18.14). -/
def DEVICE_ENC_KEY : Nat := okey 0x8000 0x03 0
/-- 8000.04 ALIAS_KEY, DOMAIN, 97 B, RO, DEV (spec/18_security.md, Table 18.14). -/
def ALIAS_KEY : Nat := okey 0x8000 0x04 0
/-- 8001.01 ENTROPY_STATE, U8, EV, DEV (spec/18_security.md, Table 18.14). -/
def ENTROPY_STATE : Nat := okey 0x8001 0x01 0
/-- 8001.02 ENTROPY_READY_US, U32, RO, DEV (spec/18_security.md, Table 18.14). -/
def ENTROPY_READY_US : Nat := okey 0x8001 0x02 0
/-- 8001.03 HEALTH_FAILURES, U32, RO, DEV (spec/18_security.md, Table 18.14). -/
def HEALTH_FAILURES : Nat := okey 0x8001 0x03 0
/-- 8001.04 KEY_REQUESTS_FAILED, U32, RO, DEV (spec/18_security.md, Table 18.14). -/
def KEY_REQUESTS_FAILED : Nat := okey 0x8001 0x04 0
/-- 8002.01 CERT_CHAIN, DOMAIN, ≤ 4,096 B, WPU, DEV (spec/18_security.md, Table 18.14). -/
def CERT_CHAIN : Nat := okey 0x8002 0x01 0
/-- 8003.01–03 FW_STATE, U8, EV, DEV (spec/18_security.md, Table 18.14). -/
def FW_STATE (n : Nat) : Nat := okey 0x8003 (0x01 + n) 0
/-- 8003.04–06 FW_VERSION, U32, RO, DEV (spec/18_security.md, Table 18.14). -/
def FW_VERSION (n : Nat) : Nat := okey 0x8003 (0x04 + n) 0
/-- 8003.07–09 FW_SVN, U32, RO, DEV (spec/18_security.md, Table 18.14). -/
def FW_SVN (n : Nat) : Nat := okey 0x8003 (0x07 + n) 0
/-- 8004.01–03 FW_DIGEST, DOMAIN, 48 B, RO, DEV (spec/18_security.md, Table 18.14). -/
def FW_DIGEST (n : Nat) : Nat := okey 0x8004 (0x01 + n) 0
/-- 8005.01 FW_LAST_REJECT, U8, EV, DEV (spec/18_security.md, Table 18.14). -/
def FW_LAST_REJECT : Nat := okey 0x8005 0x01 0
/-- 8006.01–03 ROOT_HASH, DOMAIN, 48 B, RO, DEV (spec/18_security.md, Table 18.14). -/
def ROOT_HASH (n : Nat) : Nat := okey 0x8006 (0x01 + n) 0
/-- 8010.01 DEBUG_LEVEL, U8, EV, DEV (spec/18_security.md, Table 18.14). -/
def DEBUG_LEVEL : Nat := okey 0x8010 0x01 0
/-- 8010.02 DEBUG_TOKEN, DOMAIN, 288 B, WPU, DEV (spec/18_security.md, Table 18.14). -/
def DEBUG_TOKEN : Nat := okey 0x8010 0x02 0
/-- 8020.01 DEBUG_CONSENT, BOOL, RW, TEN (spec/18_security.md, Table 18.14). -/
def DEBUG_CONSENT (t : Nat) : Nat := okey 0x8020 0x01 t
/-- 8020.02 PROFILE_CONSENT, BOOL, RW, TEN (spec/18_security.md, Table 18.14). -/
def PROFILE_CONSENT (t : Nat) : Nat := okey 0x8020 0x02 t
/-- 8020.03 CONSENT_CHANGES, U32, RO, TEN (spec/18_security.md, Table 18.14). -/
def CONSENT_CHANGES (t : Nat) : Nat := okey 0x8020 0x03 t
/-- 8021.01 MEASURE_REQUEST, DOMAIN, 16 B, WO, TEN (spec/18_security.md, Table 18.14). -/
def MEASURE_REQUEST (t : Nat) : Nat := okey 0x8021 0x01 t
/-- 8021.02 MEASURE_STATE, U8, EV, TEN (spec/18_security.md, Table 18.14). -/
def MEASURE_STATE (t : Nat) : Nat := okey 0x8021 0x02 t
/-- 8021.03 MEASURE_LAST, DOMAIN, 48 B, RO, TEN (spec/18_security.md, Table 18.14). -/
def MEASURE_LAST (t : Nat) : Nat := okey 0x8021 0x03 t
/-- 8022.01 PROG_DIGEST, DOMAIN, 48 B, RO, PAT (spec/18_security.md, Table 18.14). -/
def PROG_DIGEST (t : Nat) : Nat := okey 0x8022 0x01 t
/-- 8022.02 WEIGHT_DIGEST, DOMAIN, 48 B, RO, PAT (spec/18_security.md, Table 18.14). -/
def WEIGHT_DIGEST (t : Nat) : Nat := okey 0x8022 0x02 t
/-- 8022.03 PROG_COUNT, U16, RO, TEN (spec/18_security.md, Table 18.14). -/
def PROG_COUNT (t : Nat) : Nat := okey 0x8022 0x03 t
/-- 8022.04 WEIGHT_COUNT, U16, RO, TEN (spec/18_security.md, Table 18.14). -/
def WEIGHT_COUNT (t : Nat) : Nat := okey 0x8022 0x04 t
/-- 8030.01 SPDM_SESSIONS, U8, RO, DEV (spec/18_security.md, Table 18.14). -/
def SPDM_SESSIONS : Nat := okey 0x8030 0x01 0
/-- 8030.02 SPDM_ERRORS, U32, RO, DEV (spec/18_security.md, Table 18.14). -/
def SPDM_ERRORS : Nat := okey 0x8030 0x02 0
/-- 8031.01 IDE_LINK_STATE, U8, EV, DEV (spec/18_security.md, Table 18.14). -/
def IDE_LINK_STATE : Nat := okey 0x8031 0x01 0
/-- 8031.02 IDE_SEL_STREAMS, U8, RO, DEV (spec/18_security.md, Table 18.14). -/
def IDE_SEL_STREAMS : Nat := okey 0x8031 0x02 0
/-- 8031.03 IDE_INTEGRITY_ERRORS, U32, RO, DEV (spec/18_security.md, Table 18.14). -/
def IDE_INTEGRITY_ERRORS : Nat := okey 0x8031 0x03 0
/-- 8031.04 TDI_REJECTED_TLPS, U32, RO, DEV (spec/18_security.md, Table 18.14). -/
def TDI_REJECTED_TLPS : Nat := okey 0x8031 0x04 0
/-- 8040.01 TRACE_TENANTS, U32, RW, DEV (spec/18_security.md, Table 18.14). -/
def TRACE_TENANTS : Nat := okey 0x8040 0x01 0
/-- 8040.02 TRACE_BUFFER, DOMAIN, 65,536 B, RO, DEV (spec/18_security.md, Table 18.14). -/
def TRACE_BUFFER : Nat := okey 0x8040 0x02 0
/-- B000–B01F.01 SLOT_STATE, U8, EV, DEV (spec/18_security.md, Table 18.15). -/
def SLOT_STATE (i : Nat) : Nat := okey (0xB000 + i) 0x01 0
/-- B000–B01F.02 SLOT_CONTROL, U8, WO, DEV (spec/18_security.md, Table 18.15). -/
def SLOT_CONTROL (i : Nat) : Nat := okey (0xB000 + i) 0x02 0
/-- B000–B01F.03 SLOT_EPOCH, U32, RO, DEV (spec/18_security.md, Table 18.15). -/
def SLOT_EPOCH (i : Nat) : Nat := okey (0xB000 + i) 0x03 0
/-- B000–B01F.04 SLOT_LAST_ABORT, U32, RO, DEV (spec/18_security.md, Table 18.15). -/
def SLOT_LAST_ABORT (i : Nat) : Nat := okey (0xB000 + i) 0x04 0
/-- B000–B01F.05 TDI_STATE, U8, EV, DEV (spec/18_security.md, Table 18.15). -/
def TDI_STATE (i : Nat) : Nat := okey (0xB000 + i) 0x05 0
/-- B000–B01F.06 ADMITTED_AT, TIME96, RO, DEV (spec/18_security.md, Table 18.15). -/
def ADMITTED_AT (i : Nat) : Nat := okey (0xB000 + i) 0x06 0
/-- 9000.01 FTI_MS, U16, RW, DEV (spec/19_integrity_recovery.md, Table 19.13). -/
def FTI_MS : Nat := okey 0x9000 0x01 0
/-- 9000.02 KAT_ROUNDS, U64, RO, DEV (spec/19_integrity_recovery.md, Table 19.13). -/
def KAT_ROUNDS : Nat := okey 0x9000 0x02 0
/-- 9000.03 KAT_LATE, U32, RO, DEV (spec/19_integrity_recovery.md, Table 19.13). -/
def KAT_LATE : Nat := okey 0x9000 0x03 0
/-- 9000.04 KAT_CYCLES, U64, RO, DEV (spec/19_integrity_recovery.md, Table 19.13). -/
def KAT_CYCLES : Nat := okey 0x9000 0x04 0
/-- 9001.01–10 CORE_KAT_FAILS, U32, RO, DEV (spec/19_integrity_recovery.md, Table 19.13). -/
def CORE_KAT_FAILS (n : Nat) : Nat := okey 0x9001 (0x01 + n) 0
/-- 9002.01–04 RINK_KAT_FAILS, U32, RO, DEV (spec/19_integrity_recovery.md, Table 19.13). -/
def RINK_KAT_FAILS (n : Nat) : Nat := okey 0x9002 (0x01 + n) 0
/-- 9002.05 BASE_KAT_FAILS, U32, RO, DEV (spec/19_integrity_recovery.md, Table 19.13). -/
def BASE_KAT_FAILS : Nat := okey 0x9002 0x05 0
/-- 9002.06 CRYPTO_KAT_FAILS, U32, RO, DEV (spec/19_integrity_recovery.md, Table 19.13). -/
def CRYPTO_KAT_FAILS : Nat := okey 0x9002 0x06 0
/-- 9003.01–10 CHECKSUM_RETRIES, U32, RO, DEV (spec/19_integrity_recovery.md, Table 19.13). -/
def CHECKSUM_RETRIES (n : Nat) : Nat := okey 0x9003 (0x01 + n) 0
/-- 9004.01–10 CORE_LOST_CAUSE, U8, RO, DEV (spec/19_integrity_recovery.md, Table 19.13). -/
def CORE_LOST_CAUSE (n : Nat) : Nat := okey 0x9004 (0x01 + n) 0
/-- 9005.01–36 ECC_CORRECTED, U32, RO, DEV (spec/19_integrity_recovery.md, Table 19.13). -/
def ECC_CORRECTED (n : Nat) : Nat := okey 0x9005 (0x01 + n) 0
/-- 9006.01–36 ECC_UNCORRECTABLE, U32, RO, DEV (spec/19_integrity_recovery.md, Table 19.13). -/
def ECC_UNCORRECTABLE (n : Nat) : Nat := okey 0x9006 (0x01 + n) 0
/-- 9007.01 SCRUB_PERIOD_S, U16, RW, DEV (spec/19_integrity_recovery.md, Table 19.13). -/
def SCRUB_PERIOD_S : Nat := okey 0x9007 0x01 0
/-- 9007.02 SCRUB_PASSES, U32, RO, DEV (spec/19_integrity_recovery.md, Table 19.13). -/
def SCRUB_PASSES : Nat := okey 0x9007 0x02 0
/-- 9010.01–36 BIST_RESULT, U8, RO, DEV (spec/19_integrity_recovery.md, Table 19.13). -/
def BIST_RESULT (n : Nat) : Nat := okey 0x9010 (0x01 + n) 0
/-- 9011.01–40 BIST_FAIL_LOG, DOMAIN, 16 B, RO, DEV (spec/19_integrity_recovery.md, Table 19.13). -/
def BIST_FAIL_LOG (n : Nat) : Nat := okey 0x9011 (0x01 + n) 0
/-- 9012.01 BIST_FAILS, U32, RO, DEV (spec/19_integrity_recovery.md, Table 19.13). -/
def BIST_FAILS : Nat := okey 0x9012 0x01 0
/-- 9012.02 BIST_LOG_OVERFLOW, BOOL, RW, DEV (spec/19_integrity_recovery.md, Table 19.13). -/
def BIST_LOG_OVERFLOW : Nat := okey 0x9012 0x02 0
/-- 9013.01 SOFT_REPAIR_ADD, DOMAIN, 8–1,024 B, WO, DEV (spec/19_integrity_recovery.md, Table 19.13). -/
def SOFT_REPAIR_ADD : Nat := okey 0x9013 0x01 0
/-- 9013.02 SOFT_REPAIR_ENTRIES, U16, RO, DEV (spec/19_integrity_recovery.md, Table 19.13). -/
def SOFT_REPAIR_ENTRIES : Nat := okey 0x9013 0x02 0
/-- 9013.03 SOFT_REPAIR_APPLIED, U16, RO, DEV (spec/19_integrity_recovery.md, Table 19.13). -/
def SOFT_REPAIR_APPLIED : Nat := okey 0x9013 0x03 0
/-- 9013.04 SOFT_REPAIR_REJECTED, U16, RO, DEV (spec/19_integrity_recovery.md, Table 19.13). -/
def SOFT_REPAIR_REJECTED : Nat := okey 0x9013 0x04 0
/-- 9014.01–04 HELD_WAYS, U16, RO, DEV (spec/19_integrity_recovery.md, Table 19.13). -/
def HELD_WAYS (n : Nat) : Nat := okey 0x9014 (0x01 + n) 0
/-- 9014.05 HELD_SEGMENTS, U32, RO, DEV (spec/19_integrity_recovery.md, Table 19.13). -/
def HELD_SEGMENTS : Nat := okey 0x9014 0x05 0
/-- 9020.01 PICTURE_ENABLE, BOOL, RW, DEV (spec/19_integrity_recovery.md, Table 19.13). -/
def PICTURE_ENABLE : Nat := okey 0x9020 0x01 0
/-- 9020.02 PICTURE_RINKS, U8, RW, DEV (spec/19_integrity_recovery.md, Table 19.13). -/
def PICTURE_RINKS : Nat := okey 0x9020 0x02 0
/-- 9020.03 PICTURE_HOLD, BOOL, RW, DEV (spec/19_integrity_recovery.md, Table 19.13). -/
def PICTURE_HOLD : Nat := okey 0x9020 0x03 0
/-- 9020.04 PICTURE_STATE, U8, EV, DEV (spec/19_integrity_recovery.md, Table 19.13). -/
def PICTURE_STATE : Nat := okey 0x9020 0x04 0
/-- 9020.05 PICTURE_DROPS, U32, RO, DEV (spec/19_integrity_recovery.md, Table 19.13). -/
def PICTURE_DROPS : Nat := okey 0x9020 0x05 0
/-- 9020.06 PICTURE_LAST_CAUSE, U8, RO, DEV (spec/19_integrity_recovery.md, Table 19.13). -/
def PICTURE_LAST_CAUSE : Nat := okey 0x9020 0x06 0
/-- 9021.01 OUTPUT_INVALID, BOOL, EV, TEN (spec/19_integrity_recovery.md, Table 19.13). -/
def OUTPUT_INVALID (t : Nat) : Nat := okey 0x9021 0x01 t
/-- 9030.01–02 DIE_STATE, U8, EV, DEV (spec/19_integrity_recovery.md, Table 19.13). -/
def DIE_STATE (n : Nat) : Nat := okey 0x9030 (0x01 + n) 0
/-- 9030.03–04 DIE_RESTARTS, U32, RO, DEV (spec/19_integrity_recovery.md, Table 19.13). -/
def DIE_RESTARTS (n : Nat) : Nat := okey 0x9030 (0x03 + n) 0
/-- 9030.05–06 DIE_LAST_CAUSE, U8, RO, DEV (spec/19_integrity_recovery.md, Table 19.13). -/
def DIE_LAST_CAUSE (n : Nat) : Nat := okey 0x9030 (0x05 + n) 0
/-- 9030.07 DIE_RESTART_REQUEST, U8, WO, DEV (spec/19_integrity_recovery.md, Table 19.13). -/
def DIE_RESTART_REQUEST : Nat := okey 0x9030 0x07 0
/-- 9040.01 DEVICE_SAFE, BOOL, EV, DEV (spec/19_integrity_recovery.md, Table 19.13). -/
def DEVICE_SAFE : Nat := okey 0x9040 0x01 0
/-- 9040.02 SAFE_CAUSE, U8, RO, DEV (spec/19_integrity_recovery.md, Table 19.13). -/
def SAFE_CAUSE : Nat := okey 0x9040 0x02 0

end O

end Sys2Proof.Machine
end

