-- ==== Sys2Proof/Machine/State.lean ====
section
/-!
DEFINITION. The state of the block: the object dictionary as a store of values by object, the state the chapters give
the block beside its objects, its memories, and the queue of waiting commands. All of it is plain data.
-/

namespace Sys2Proof.Machine

/-- The value of an object (R14): a number in the wire pattern of its type (TIME96 in units of 2^-16 ns), or bytes. -/
inductive Val where
  | n (v : Nat)
  | b (bs : List Byte)
deriving DecidableEq, Repr

/-- What a change carries besides the object (Table 1.8): its time, code, unit, flags and the new value. -/
structure EvInfo where
  time : Nat
  code : Nat
  unit : Nat
  flags : Nat
  value : List Byte
deriving DecidableEq, Repr

/-- A queued EVENT message of an endpoint (R36); `seq` is the endpoint's own sequence number. -/
structure EventMsg where
  key : Nat
  seq : Nat
  info : EvInfo
deriving DecidableEq, Repr

/-- A subscription of an endpoint (R35); `ep` numbers endpoints as `epIdx` does. -/
structure Sub where
  ep : Nat
  key : Nat
  intervalUs : Nat
  windowOpen : Bool
  combined : Option EvInfo
deriving DecidableEq, Repr

/-- What an endpoint keeps: its device sequence (R36), its queue of events and whether events were dropped (R37). -/
structure EpState where
  seq : Nat
  overflow : Bool
  queue : List EventMsg
deriving DecidableEq, Repr

/-- A response a network session keeps for repeats (R34). -/
structure Kept where
  seq : Nat
  op : Nat
  index : Nat
  sub : Nat
  resp : List Byte
deriving DecidableEq, Repr

/-- The part of a network session slot that is no object: its key, the counters accepted of the last 64 (R44), and
the kept responses, newest first (R34). -/
structure Session where
  key : List Byte
  window : List Nat
  kept : List Kept
deriving DecidableEq, Repr

/-- A block write in progress (R32). -/
structure BlockXfer where
  key : Nat
  ep : Nat
  total : Nat
  bytes : List Byte
deriving DecidableEq, Repr

/-- A READ_BLOCK snapshot (R33). -/
structure Snapshot where
  key : Nat
  ep : Nat
  bytes : List Byte
deriving DecidableEq, Repr

/-- The SPI target (R39): the response waiting for READ_FRAME and how many queued events are older, BUSY, CRC_ERROR,
whether the rest of the transaction is ignored, and bytes last returned on SB_SDO. -/
structure Spi where
  response : Option (List Byte)
  ahead : Nat
  busy : Bool
  crcError : Bool
  ignoring : Bool
  sdo : List Byte
deriving DecidableEq, Repr

/-- What the device puts out besides its balls: one entry of the model's own record of outputs. -/
inductive Out where
  /-- An NYP datagram of a session on a port (R43). -/
  | udp (port session : Nat) (bytes : List Byte)
  /-- A network frame the device's own stack sends on a port: PTP, ARP, neighbour discovery. -/
  | frame (port : Nat) (bytes : List Byte)
  /-- A frame a stream context sends on a port (R423). -/
  | streamFrame (port : Nat) (bytes : List Byte)
  /-- An MSI-X message of a function's vector. -/
  | msix (fn vector : Nat)
  /-- A write or private write on a camera port's I2C or I3C bus (R381). -/
  | i3c (port addr : Nat) (bytes : List Byte)
  /-- A clause 22 operation on NET0_MDIO (R394). -/
  | mdio (isRead : Bool) (phy reg data : Nat)
  /-- A TIME_IO ball driven to a level. -/
  | tio (n level : Nat)
  /-- A response on the SPDM, IDE_KM or TDISP message channel. -/
  | spdm (bytes : List Byte)
  /-- A completion of a PCIe request: `ok` data, or an error status. -/
  | pcie (status : Nat) (bytes : List Byte)
  /-- Samples sent on a TDM output slot. -/
  | tdm (port slot : Nat) (samples : List Int)
deriving DecidableEq, Repr

/-- What the fuses hold that the rules compute with (R1, R7): the extended grade. -/
structure Fuses where
  extended : Bool
deriving DecidableEq, Repr

/-- Balls and what the device senses on them. Booleans of active-low balls say the level (`true` high). -/
structure Pins where
  /-- VDD_AON in range. -/
  powered : Bool
  porN : Bool
  /-- TEST_EN was high at the release of POR_N (R72). -/
  testEn : Bool
  /-- The 38.4 MHz reference runs within the window of R96. -/
  refInRange : Bool
  /-- The bank levels sampled at the release of POR_N (R61), coded as BANK_LEVEL. -/
  banks : List Nat
  /-- ALIVE toggles (R64). -/
  alive : Bool
  /-- FAULT_N asserted (R66). -/
  faultAsserted : Bool
  perstN : Bool
  /-- The device drives WAKE_N low (R428). -/
  wakeDriven : Bool
  /-- CLKREQ_N asserted (R69, R413). -/
  clkreqAsserted : Bool
  /-- PTT_N is debounced pressed (R70). -/
  pttPressed : Bool
  /-- PTT_N was already low when the always-on control became ready, and has not been released since (R70). -/
  pttBlocked : Bool
  /-- The raw level of CAM_PRIV_N is low (R71). -/
  privRaw : Bool
  /-- SB_CS_N is low. -/
  csLow : Bool
  /-- Output levels of TIME_IO0-3 and whether each drives (R403). -/
  tioLevel : List Bool
  /-- GPIO0-15 levels as set by firmware (R74), bit n; an input with no pull after reset. -/
  gpioOut : Nat
  gpioLevel : Nat
  /-- The TAP implements more than BYPASS (R74, R462). -/
  tapUnlocked : Bool
  /-- The last TAP instruction register contents were cleared by JTAG_TRST_N. -/
  tapReset : Bool
  /-- Clock at the last watchdog reset (R105); kept through every reset but a cold power-up. -/
  lastWdog : Option Nat
  /-- Rails acted on and not yet back in range for 1 ms (R84), bit by position in Table 3.1. -/
  railActed : Nat
deriving DecidableEq, Repr

/-- A transition between power states (R118, R119, R122); `step` is coded as TRANSITION_STEP. -/
structure Trans where
  origin : Nat
  dest : Nat
  step : Nat
  /-- The request source that caused it. -/
  source : Nat
  /-- The unit code charged for that source. -/
  unit : Nat
  /-- A decision before the estimators settled caused it (R125). -/
  early : Bool
  startedAt : Nat
deriving DecidableEq, Repr

/-- What the power-state machinery keeps beside its objects. -/
structure Power where
  trans : Option Trans
  /-- Bring-up is in progress (R107). -/
  bringup : Bool
  /-- The request source and unit code of the pending target's last change. -/
  source : Nat
  unit : Nat
  /-- That change carried EARLY (R125). -/
  early : Bool
  /-- A pre-wake is open (R126). -/
  prewake : Bool
  /-- The last events on 2200.01 and 2200.02 carried TENTATIVE for the open pre-wake (R127). -/
  stateTentative : Bool
  targetTentative : Bool
  /-- The pre-wake was retracted while its exit ran on (R127). -/
  retracted : Bool
  /-- A firm Base lift wake or host write wants the Mid lift to start at U9 (R129). -/
  midFirm : Bool
  /-- A Mid lift run is in progress and undecided. -/
  midRun : Bool
  /-- The target SUMMIT was set by source 10 (R130). -/
  cascade : Bool
deriving DecidableEq, Repr

/-- The Base engine beside its objects and memory: whether it has been started and not gated since (R342). -/
structure BaseEngine where
  started : Bool
deriving DecidableEq, Repr

/-- A compute die's voltage and frequency state (R89, R93, R135, R138): the frequency chosen without protective
limits per Rink is recomputed at each step; these are the limits in force. -/
structure DieLimits where
  /-- Regulator ceiling of R89 in MHz. -/
  regCeiling : Nat
  /-- Power ceiling of R93 in MHz. -/
  powerCeiling : Nat
  /-- Thermal ceilings of R138 of its two Rinks in MHz, 1,200 where no thermal limit is in force. -/
  thermal : List Nat
  /-- The frequencies demand chose last for its two Rinks, in MHz. -/
  demand : List Nat
  /-- The die is stopped at THERMAL_CRITICAL and waits to cool. -/
  waitCool : Bool
  /-- Core-rail setpoint in mV. -/
  setpointMv : Nat
deriving DecidableEq, Repr
/-! ### Audio (chapter 14) -/

/-- One microphone channel beside its objects (R338-R343). -/
structure AudioCh where
  /-- Converts in the full-power converter. -/
  full : Bool
  /-- Gain and delay in force (R340); the objects hold the values written. -/
  gain : Nat
  delay : Nat
  /-- The last decimator outputs of the 16 kHz tap, newest first, that the calibration still needs. -/
  hist : List Int
  /-- Sums of the squares of the 192 samples of the last 12 ms blocks since listening began, newest first, at most
  125 (R343). -/
  blocks : List Nat
deriving DecidableEq, Repr

/-- A recorded ring block (R346): 64 frames of the selected channels. -/
structure RingBlock where
  frame : Nat
  time : Nat
  /-- RING_CHANNELS and the absent channels among them at recording. -/
  channels : Nat
  absent : Nat
  bits : Nat
  samples : List (List Int)
  /-- The bytes the coded block occupies. -/
  size : Nat
  /-- A gap lies before this block: TIME96 after the last sample before it. -/
  gapStop : Option Nat
deriving DecidableEq, Repr

/-- A wake that latched or was kept (R350). -/
structure WakeRec where
  time : Nat
  source : Nat
  early : Bool
  frame : Nat
deriving DecidableEq, Repr

/-- A handover in progress (R351-R355). -/
structure Handover where
  tenant : Nat
  stream : Nat
  /-- Next record number. -/
  seq : Nat
  /-- Frame of the next block to deliver. -/
  next : Nat
  live : Bool
  /-- TIME96 after the last sample delivered. -/
  lastEnd : Nat
deriving DecidableEq, Repr

/-- The history ring. -/
structure Ring where
  blocks : List RingBlock
  /-- Next frame number, from the first frame recorded after power-up. -/
  nextFrame : Nat
  /-- Recording stopped at this time, and the next block follows a gap. -/
  gapStop : Option Nat
  latch : Option WakeRec
  markers : List WakeRec
  handover : Option Handover
deriving DecidableEq, Repr

structure Audio where
  ch : List AudioCh
  ring : Ring
  /-- The Base engine input buffer: the last 4,096 frames of channels 0-3, newest first; past the end, zeros. -/
  input : List (List Int)
  /-- Audio grid origin: TIME96 of the last alignment (R411, R425). -/
  alignedAt : Nat
  /-- Clock when AUD_ADC0 last came On (R338). -/
  adcOnAt : Nat
deriving DecidableEq, Repr

/-! ### Camera (chapter 15) -/

/-- An output set (R373): fields 02-0A of 5020-502F. -/
structure OutSet where
  frameBase : Nat
  buffers : Nat
  bufStride : Nat
  lineStride : Nat
  format : Nat
  scale : Nat
  statsBase : Nat
  rawBase : Nat
  rawBuffers : Nat
deriving DecidableEq, Repr

/-- What becomes of a frame (R366, R370, R375, R386). -/
inductive FrameFate where
  | kept
  | dropped
  | suspended
deriving DecidableEq, Repr

/-- A frame being received, held raw, or awaiting its record. -/
structure Frame where
  n : Nat
  time : Nat
  sensorFrame : Nat
  out : OutSet
  params : List Byte
  /-- ISP, DATA_TYPE, WIDTH, HEIGHT, BLACK_LEVEL and SAT_LEVEL at the frame start. -/
  isp : Nat
  dataType : Nat
  width : Nat
  height : Nat
  black : Nat
  sat : Nat
  fate : FrameFate
  /-- Lines received so far, each exactly WIDTH codes, oldest first. -/
  lines : List (List Nat)
  /-- The raw buffer that captures the frame (R370). -/
  rawBuf : Nat
  /-- Lines that wait in the ISP's buffers while the owner's pass is spent (R376). -/
  held : Nat
  /-- FLAGS of Table 15.6. -/
  flags : Nat
  generation : Nat
  appliedFrame : Nat
  exposure : Nat
  gain : Nat
  linesPadded : Nat
  linesDropped : Nat
  shortLines : Nat
  longLines : Nat
  crcLines : Nat
deriving DecidableEq, Repr

/-- A command of a settings entry (Table 15.7). -/
structure BusCmd where
  addr : Nat
  wide : Bool
  reg : Nat
  data : List Byte
deriving DecidableEq, Repr

/-- A settings entry (R380). -/
structure QEntry where
  target : Nat
  generation : Nat
  asap : Bool
  cmds : List BusCmd
deriving DecidableEq, Repr

/-- Settings issued on the bus (R381): what they carry, a generation or the exposure loop's values, the frame from which
they apply, what they replace if they apply at once, and when their last command has been sent. -/
structure Issue where
  generation : Option Nat
  ae : Option (Nat × Nat)
  frame : Nat
  prevGen : Nat
  prevAe : Nat × Nat
  sentAt : Nat
deriving DecidableEq, Repr

/-- The programming window opened last (R381): its frame, its start and the time at which the bus is free. -/
structure Window where
  frame : Nat
  start : Nat
  free : Nat
deriving DecidableEq, Repr

/-- One camera input beside its objects. -/
structure CamIn where
  active : Option OutSet
  pending : Option OutSet
  frame : Option Frame
  /-- Complete raw frames awaiting the memory-pass ISP (R370), each with its frame-end order. -/
  raws : List (Nat × Frame)
  /-- Frames whose output awaits ISP_FRAME_COMPLETE. -/
  done : List Frame
  lastAccepted : Nat
  queue : List QEntry
  window : Option Window
  /-- Issues that do not apply yet, or may still be aborted (R383). -/
  issued : List Issue
  /-- Late entries: first frame, last frame and the frame from which the settings apply (R382). -/
  late : List (Nat × Nat × Nat)
  /-- Records still to carry UNSETTLED (R378). -/
  unsettled : Nat
  /-- Exposure loop (R384): values last issued, values in force, values to issue in the next window, and a first issue
  still to make. -/
  aeIssued : Option (Nat × Nat)
  aeForce : Nat × Nat
  aeNext : Option (Nat × Nat)
  aeFirst : Bool
  /-- SETDASA done for this input's address (R379). -/
  dasa : Bool
deriving DecidableEq, Repr

structure Camera where
  ins : List CamIn
  /-- Frame ends so far, for the order of R370. -/
  order : Nat
  /-- Pixels that the memory-pass ISP processed in the last second, with the clock (5000.04). -/
  processed : List (Nat × Nat)
deriving DecidableEq, Repr

/-! ### Time, network and triggers (chapter 16) -/

/-- The master of a port as its last Announce describes it (R395, R399). -/
structure Master where
  clockId : List Byte
  gmId : List Byte
  priority1 : Nat
  clockClass : Nat
  clockAccuracy : Nat
  variance : Nat
  priority2 : Nat
  stepsRemoved : Nat
  timeSource : Nat
deriving DecidableEq, Repr

/-- A port's PTP exchange state (R390, R395, R399). -/
structure Ptp where
  master : Option Master
  /-- A two-step Sync awaiting Follow_Up: sequenceId, arrival, correction and source. -/
  pendingSync : Option (Nat × Nat × Int × List Byte)
  /-- Own Pdelay_Req or Delay_Req outstanding: sequenceId, t1, and for Pdelay the response's t2, t3 parts. -/
  reqSeq : Nat
  reqTime : Option Nat
  respT2 : Option (Nat × Nat)
  /-- Consecutive Pdelay intervals without a response. -/
  missing : Nat
  /-- Mean link or path delay in 2^-16 ns. -/
  delay : Int
  /-- The pair of times of the previous Pdelay exchange, for neighborRateRatio. -/
  prevPair : Option (Nat × Nat)
  /-- neighborRateRatio minus 1, in 2^-41. -/
  rateRatio : Int
  lastOffset : Int
  /-- Sync and Announce sequence numbers sent. -/
  syncSeq : Nat
  announceSeq : Nat
  /-- The device is grandmaster or MASTER on this port. -/
  isMaster : Bool
  /-- Arrival and departure times of the last Sync, for Delay_Req. -/
  syncT1 : Option (Nat × Nat)
deriving DecidableEq, Repr

/-- A pulse train (R405). -/
structure Train where
  start : Nat
  period : Nat
  width : Nat
  count : Nat
  idleHigh : Bool
  /-- Index of the next pulse, and whether its leading edge has been emitted. -/
  k : Nat
  inPulse : Bool
  waiting : Bool
deriving DecidableEq, Repr

/-- The time base beside its objects (R387-R392). -/
structure TimeBase where
  /-- TIME96 in units of 2^-16 ns. -/
  now : Nat
  /-- ρ in force, in 10^-12. -/
  rho : Int
  /-- The part of an accumulated 2^-16 ns unit not yet carried, in 10^-12 units. -/
  frac : Int
  /-- Offset still to slew, in 10^-12 of 2^-16 ns. -/
  slew : Int
  /-- While the base sleeps: the latched time and the clock at that edge (R392). -/
  asleep : Option (Nat × Nat)
  good : Nat
  bad : Nat
  /-- HOLDOVER: |last offset| in ns and the sleep terms of R392 in ns. -/
  holdOffsetNs : Nat
  sleepTermsNs : Nat
  /-- Time slept since the entry into HOLDOVER, in 2^-16 ns. -/
  slept : Nat
  /-- clockClass last advertised on NET1 (R399). -/
  advertised : Nat
  /-- The integral term of the servo, in 10^-12. -/
  integral : Int
deriving DecidableEq, Repr

structure Net where
  ptp0 : Ptp
  ptp1 : Ptp
  txts0 : List (List Byte)
  txts1 : List (List Byte)
  captures : List (List (List Byte))
  captureSeq : List Nat
  trains : List (Option Train)
  /-- MDIO operation in progress (R394): the value written. -/
  mdio : Option Nat
deriving DecidableEq, Repr

/-! ### Host link (chapter 17) -/

/-- One submission entry (Table 17.3). -/
structure SqEntry where
  raw : List Byte
deriving DecidableEq, Repr

/-- A job that has started and not ended. `waitsHost` is a host transfer in progress. -/
structure Job where
  opcode : Nat
  cid : Nat
  sflags : Nat
  hostAddr : Nat
  devAddr : Nat
  length : Nat
  arg0 : Nat
  arg1 : Nat
  waitsHost : Bool
deriving DecidableEq, Repr

/-- A queue pair of a function (R416-R420). -/
structure Queue where
  sq : List (List Byte)
  sqHead : Nat
  sqTail : Nat
  cq : List (List Byte)
  cqHead : Nat
  cqTail : Nat
  phase : Bool
  /-- The vector may be signalled again. -/
  armed : Bool
  /-- Completions waiting for a free CQ entry, oldest first. -/
  waiting : List (List Byte)
  job : Option Job
  /-- Order in which the head entry's doorbell was latched. -/
  stamps : List Nat
  /-- An ERROR completion preceded (R424). -/
  errorBefore : Bool
deriving DecidableEq, Repr

/-- A function's mailbox and MSI-X (R414, R415). -/
structure Func where
  mbRequest : List Byte
  mbResponse : List Byte
  respReady : Bool
  mbEvent : List Byte
  eventReady : Bool
  msixTable : List Byte
  pba : Nat
  funcStatus : Nat
  queues : List Queue
deriving DecidableEq, Repr

/-- A route set of a stream context (R426). -/
structure Route where
  sink : Nat
  smooth : Bool
  srcBase : Nat
  srcEntries : Nat
  snkBase : Nat
  snkEntries : Nat
deriving DecidableEq, Repr

/-- A stream context beside its objects (R421-R427). -/
structure StreamCtx where
  active : Route
  pending : Option Route
  srcHead : Nat
  srcTail : Nat
  snkHead : Nat
  snkTail : Nat
  /-- Blocks waiting (ROUTER pass spent, or history-ring records). -/
  waiting : List (List Byte)
  gapNext : Bool
  routeChange : Bool
  /-- STREAM_POST marks: tails posted with INVALID or after an ERROR, by source-ring tail position. -/
  invalidFrom : List Nat
  hist : List Int
deriving DecidableEq, Repr

structure HostLink where
  funcs : List Func
  streams : List StreamCtx
  /-- Doorbell latches so far. -/
  stamp : Nat
  /-- VF Enable of the SR-IOV capability. -/
  vfEnable : Bool
deriving DecidableEq, Repr

/-! ### Security (chapter 18) -/

/-- An installed firmware image (R440). -/
structure FwImage where
  header : List Byte
  body : List Byte
deriving DecidableEq, Repr

/-- An SPDM secured session (R455). -/
structure SpdmSession where
  id : Nat
  established : Bool
  /-- The DRBG draw its keys come from, and the number of key updates. -/
  draw : Nat
  updates : Nat
deriving DecidableEq, Repr

/-- An IDE stream (R457): 0 is the link stream, 1-4 selective. `state` as IDE_LINK_STATE. -/
structure IdeStream where
  state : Nat
  /-- Programmed and active (key set, substream, direction) triples, as bitmaps of set * 16 + sub * 2 + tx. -/
  programmed : Nat
  active : Nat
  keys : List (Nat × List Byte)
deriving DecidableEq, Repr

/-- A task Patrol performs or holds in order (R432); `exchange` is an SPDM KEY_EXCHANGE that waits for entropy. -/
inductive PatrolTask where
  | measure (tenant addr len : Nat)
  | firmware (fn q : Nat)
  | admission (tenant : Nat)
  | remove (tenant : Nat)
  | exchange (msg : List Byte)
deriving DecidableEq, Repr

structure Security where
  /-- The key set of each slot, named by the DRBG draw that made it; 0 is none. -/
  slots : List Nat
  /-- Program log digests of each tenant, oldest first (R453). -/
  progLogs : List (List (List Byte))
  /-- DRBG draws so far; the n-th draw is an opaque function of n. -/
  draws : Nat
  /-- First READY since power-up has come. -/
  everReady : Bool
  /-- POWERUP_NONCE is still to draw. -/
  nonceDue : Bool
  images : List (Option FwImage)
  /-- The staging area of segment 0 (R440). -/
  staging : List Byte
  tasks : List PatrolTask
  /-- M2, M3 and M4 of R435 as one number: the firmware set that the Alias key stands for. -/
  aliasGen : Nat
  /-- The version negotiated and the negotiation state of the SPDM responder: 0 none, 1 version, 2 capabilities,
  3 algorithms. -/
  spdmPhase : Nat
  sessions : List SpdmSession
  /-- The request transcript bytes the responder signs over. -/
  transcript : List Byte
  ide : List IdeStream
  /-- Trace ring of R465: records written so far and the 4,096 slots that hold one (slot, record). -/
  traceCount : Nat
  trace : List (Nat × List Byte)
  /-- TDI start nonces (R458), per function. -/
  tdiNonce : List (List Byte)
  /-- The IDE stream that each locked TDI is bound to. -/
  tdiStream : List Nat
deriving DecidableEq, Repr

/-! ### Integrity (chapter 19) -/

structure Integrity where
  /-- Round number since the end of bring-up; units tested and passed in the round in progress. -/
  tested : Nat
  passed : Nat
  /-- Round in which each unit last passed, plus 1 (0: never), by unit code. -/
  lastPass : List Nat
  /-- Condition numbers of R466 that failed during the round. -/
  picFailed : Nat
  /-- Round in which each tenant's last cause of R467 arose. -/
  causeRound : List Nat
  /-- Jobs (tenant * 2 + class) that claimed a tile on each core since its last passing test, with the job number. -/
  claims : List (List (Nat × Nat))
  /-- Clock times of restart causes of each die, newest first (R486). -/
  causes : List (List Nat)
  /-- FTI in force for the round. -/
  roundFti : Nat
  /-- Soft-repair entries in order, and which are applied (R482). -/
  entries : List (List Byte)
  applied : Nat
  /-- Spares in use: (unit, block, isColumn, index). -/
  spares : List (Nat × Nat × Bool × Nat)
  /-- Poisoned 8 B words (R477): those of core-local memory by `ckey` / 8, of the Lodge by 2^48 + `tkey` / 8,
  of Patrol's segments by 2^50 + the offset / 8. -/
  poisoned : List Nat
  /-- BIST fail log slots read since written, and ECC record times per unit (clock). -/
  failRead : Nat
  eccRecAt : List (Nat × Nat)
  /-- Units that stay HELD until the next release of POR_N (Table 3.3, Table 4.4, R471, R474, R486), by unit code. -/
  lost : Nat
deriving DecidableEq, Repr

/-! ### Compute (chapters 6, 8, 12 and 13) -/

/-- An instruction in progress on one Rink (R208-R211): its index, the position in the Rink set and the size of the
set when it started, and how far its share has come. -/
structure Running where
  idx : Nat
  pos : Nat
  k : Nat
  /-- Indices of the share not yet claimed, ascending; for class CHUNK the first chunk of each chain. -/
  todo : List Nat
  /-- Claimed tiles with their cores, oldest first; for a chain, its chunk in progress. -/
  claimed : List (Nat × Nat)
  /-- Tiles of the share not yet completed. -/
  left : Nat
  /-- The staged tables, one entry for each layer. -/
  staged : List Staged
  /-- The fabric images in each core, one per layer (R147). -/
  images : List (Nat × List (List Byte))
  /-- Split-K partials that stand in scratch and are not yet reduced, by tile index (R211). -/
  partials : List Nat
  /-- States of the chains in progress, by the chain's first chunk (R277, R287). -/
  chains : List (Nat × List (List Int))
  /-- Entries preempted by the page step (R256). -/
  preempted : List Nat
  /-- Format flags and OPSTAT so far (R187, R246). -/
  fflags : Nat
  opstat : Nat
  /-- R307: no window is used. -/
  passThrough : Bool
deriving DecidableEq, Repr

/-- An engine-ready tile in a stream window (R306-R309): the instruction, its number, how many tiles still read it, the
lines it takes, and whether it is speculative. -/
structure StreamErt where
  idx : Nat
  n : Nat
  uses : Nat
  lines : Nat
  spec : Bool
deriving DecidableEq, Repr

/-- Program position of an activity in one Rink (R153). -/
structure RinkPos where
  /-- The next instruction, or the one in progress. -/
  pc : Nat
  run : Option Running
  /-- Waits at the BARRIER or CHECKPOINT at `pc`. -/
  arrived : Bool
  /-- The group whose tiles have completed waits for its FUSE_END (R213). -/
  inGroup : Bool
  stream : List StreamErt
  /-- Stream ERTs fetched already for each instruction: (instruction, how many). -/
  fetched : List (Nat × Nat)
  /-- Speculative fetches that failed their tag (R309): (instruction, number). -/
  specBad : List (Nat × Nat)
deriving DecidableEq, Repr

/-- A program in progress: an activity of a tenant and a class (R314, R315). -/
structure Activity where
  prog : Prog
  fn : Nat
  q : Nat
  /-- The Rink set in force (R156, R157). -/
  set : List Nat
  rinks : List RinkPos
  /-- Waits at a CHECKPOINT with PAUSE (R219). -/
  paused : Bool
  /-- Format flags and OPSTAT of the job's instructions so far. -/
  fflags : Nat
  opstat : Nat
  /-- Per-instruction flags of instructions still running on some Rink: index, FFLAGS, OPSTAT. -/
  perInstr : List (Nat × Nat × Nat)
  /-- A failure found; the job ends when no claimed tile is left (R198): abort code and instruction index. -/
  failed : Option (Nat × Nat)
  /-- Instructions completed by the whole set. -/
  completed : Nat
  /-- The memory units to which the job has issued accesses: bit n for unit 0x18 + n (R311). -/
  reached : Nat
deriving DecidableEq, Repr

/-- What a core holds (R139-R160, R192, R321-R327). Activities are named tenant + 32 × LC. -/
structure CoreSt where
  /-- The activity it serves, and the one it is switching to (`some none`: to idle). -/
  act : Option Nat
  target : Option (Option Nat)
  /-- The tenant whose data it holds (R140); kept while idle. -/
  holds : Option Nat
  /-- Clock when it was given to its activity, and whether a BE quantum has expired. -/
  since : Nat
  quantum : Bool
  /-- The image loaded last (R147). -/
  image : List Byte
  /-- Program-placed pages written by a COPY (R325). -/
  pages : List Nat
  /-- Program-placed regions of tenants saved from this core (R327): tenant, then bytes by address. -/
  saved : List (Nat × List Host.Cell)
deriving DecidableEq, Repr

/-- What a Rink holds beside its objects. -/
structure RinkSt where
  /-- Context slots 0-3: the tenant of each (R153). -/
  ctx : List (Option Nat)
  /-- Dirty bytes of its cache (R298), by tenant × 2^40 + address. -/
  dirty : List Host.Cell
  /-- Dirty lines with the class that last wrote them: tenant × 2^40 + line address, LC. -/
  lines : List (Nat × Bool)
  /-- Poisoned words of its dirty lines (R477), by `tkey` / 8. -/
  poison : List Nat
deriving DecidableEq, Repr

structure Compute where
  acts : List (Nat × Activity)
  cores : List CoreSt
  rinks : List RinkSt
  /-- Pass counters of the period: activity × 32 + resource (0-12, or 16 + channel for DRAM). -/
  used : List (Nat × Nat)
  /-- Activities throttled during the period, by the same key. -/
  throttled : List Nat
  /-- Deficits of BE activities in core cycles: (core, tenant), deficit (R323). -/
  deficit : List ((Nat × Nat) × Int)
  /-- Waits of LC activities since they became runnable: (core, tenant), clock (R326). -/
  waits : List ((Nat × Nat) × Nat)
  /-- Generation of each tenant's undefined contents: what an unlisted byte reads as (R295). MODEL. -/
  gens : List Nat
  /-- The Rink set that applied last for each tenant (R157). -/
  applied : List (List Nat)
deriving DecidableEq, Repr

/-! ### The whole state -/

/-- The state of the block. -/
structure State where
  /-- Commands waiting, first in, first out. -/
  pending : List Instr
  /-- Nanoseconds since VDD_AON came up, counted by the model's tick. -/
  clock : Nat
  /-- Clock when POR_N was last released (UPTIME, 1000.0A). -/
  porAt : Nat
  fuses : Fuses
  pins : Pins
  /-- Object values that differ from their value after power-up, by key, rising (R14). -/
  dict : List (Nat × Val)
  eps : List EpState
  subs : List Sub
  sessions : List Session
  blocks : List BlockXfer
  snaps : List Snapshot
  spi : Spi
  /-- Objects whose requested value is not in force (R23). -/
  mismatch : List Nat
  /-- WPU objects written since power-up (R17). -/
  written : List Nat
  /-- Error log slots read since written (R55), bit n. -/
  errRead : Nat
  /-- Units that have been READY since power-up (R53), bit by unit code. -/
  everReady : Nat
  power : Power
  base : BaseEngine
  dies : List DieLimits
  audio : Audio
  camera : Camera
  time : TimeBase
  net : Net
  host : HostLink
  security : Security
  integrity : Integrity
  compute : Compute
  /-- Tenant memory in DRAM and the Lodge as its tenant reads it: tenant × 2^40 + device address (R293). -/
  tmem : List Host.Cell
  /-- Core-local memory: core × 2^21 + address (R143). -/
  clm : List Host.Cell
  /-- Base engine memory (R131). -/
  bmem : List Host.Cell
  /-- Host memory as far as the block has written it: function × 2^64 + address. -/
  hmem : List Host.Cell
  /-- What the block has put out, newest first. -/
  out : List Out
  /-- Free values drawn so far: the argument of the next one. MODEL: no part of the hardware. -/
  free : Nat
deriving DecidableEq, Repr

/-- Why a step stops with a fault. -/
inductive Fault where
  /-- POR_N_ASSERT with a low pulse of 2 µs to 10 µs, which R63 forbids and gives no effect. Safe: the model stops
  where the hardware may go on in any way. -/
  | forbiddenPulse
deriving DecidableEq, Repr

/-- Why a step is refused. -/
inductive Refusal where
  /-- `exec` on a command whose meaning is not written. Safe: the model stops. -/
  | notModelled (mnemonic : String)
deriving DecidableEq, Repr

/-! ### Reset -/

def AudioCh.reset : AudioCh :=
  { full := false, gain := 0x400000, delay := 0, hist := [], blocks := [] }

def Ring.reset : Ring :=
  { blocks := [], nextFrame := 0, gapStop := none, latch := none, markers := [], handover := none }

def Audio.reset : Audio :=
  { ch := List.replicate 8 AudioCh.reset, ring := Ring.reset, input := [], alignedAt := 0, adcOnAt := 0 }

def CamIn.reset : CamIn :=
  { active := none, pending := none, frame := none, raws := [], done := [], lastAccepted := 0, queue := [],
    window := none, issued := [], late := [], unsettled := 0, aeIssued := none, aeForce := (0, 0), aeNext := none,
    aeFirst := false, dasa := false }

def Camera.reset : Camera := { ins := List.replicate 16 CamIn.reset, order := 0, processed := [] }

def Ptp.reset : Ptp :=
  { master := none, pendingSync := none, reqSeq := 0, reqTime := none, respT2 := none, missing := 0, delay := 0,
    prevPair := none, rateRatio := 0, lastOffset := 0, syncSeq := 0, announceSeq := 0, isMaster := false,
    syncT1 := none }

def TimeBase.reset : TimeBase :=
  { now := 0, rho := 0, frac := 0, slew := 0, asleep := none, good := 0, bad := 0, holdOffsetNs := 0,
    sleepTermsNs := 0, slept := 0, advertised := 248, integral := 0 }

def Net.reset : Net :=
  { ptp0 := Ptp.reset, ptp1 := Ptp.reset, txts0 := [], txts1 := [], captures := List.replicate 4 [],
    captureSeq := List.replicate 4 0, trains := List.replicate 4 none, mdio := none }

def Queue.reset : Queue :=
  { sq := List.replicate 64 [], sqHead := 0, sqTail := 0, cq := List.replicate 128 [], cqHead := 0, cqTail := 0,
    phase := true, armed := true, waiting := [], job := none, stamps := [], errorBefore := false }

def Func.reset : Func :=
  { mbRequest := [], mbResponse := [], respReady := false, mbEvent := [], eventReady := false, msixTable := [],
    pba := 0, funcStatus := 0, queues := List.replicate 8 Queue.reset }

def Route.reset : Route := { sink := 0, smooth := false, srcBase := 0, srcEntries := 0, snkBase := 0, snkEntries := 0 }

def StreamCtx.reset : StreamCtx :=
  { active := Route.reset, pending := none, srcHead := 0, srcTail := 0, snkHead := 0, snkTail := 0, waiting := [],
    gapNext := false, routeChange := false, invalidFrom := [], hist := [] }

def HostLink.reset : HostLink :=
  { funcs := List.replicate 32 Func.reset, streams := List.replicate 96 StreamCtx.reset, stamp := 0,
    vfEnable := false }

def Security.reset : Security :=
  { slots := List.replicate 32 0, progLogs := List.replicate 32 [], draws := 0,
    everReady := false, nonceDue := true, images := List.replicate 3 none, staging := [], tasks := [], aliasGen := 0,
    spdmPhase := 0, sessions := [], transcript := [],
    ide := List.replicate 5 { state := 0, programmed := 0, active := 0, keys := [] }, traceCount := 0, trace := [],
    tdiNonce := List.replicate 32 [], tdiStream := List.replicate 32 0 }

def Integrity.reset : Integrity :=
  { tested := 0, passed := 0, lastPass := List.replicate 54 0, picFailed := 0, causeRound := List.replicate 32 0,
    claims := List.replicate 16 [], causes := [[], []], roundFti := 33, entries := [], applied := 0, spares := [],
    poisoned := [], failRead := 0, eccRecAt := [], lost := 0 }

def CoreSt.reset : CoreSt :=
  { act := none, target := none, holds := none, since := 0, quantum := false, image := [], pages := [], saved := [] }

def RinkSt.reset : RinkSt := { ctx := List.replicate 4 none, dirty := [], lines := [], poison := [] }

def Compute.reset : Compute :=
  { acts := [], cores := List.replicate 16 CoreSt.reset, rinks := List.replicate 4 RinkSt.reset, used := [],
    throttled := [], deficit := [], waits := [], gens := List.replicate 32 0, applied := List.replicate 32 [] }

/-- The block at the moment VDD_AON has come up with POR_N low (R61, R96): every object at its After power-up value,
every memory empty, no command waiting. -/
def State.reset : State :=
  { pending := [], clock := 0, porAt := 0, fuses := { extended := false },
    pins := { powered := true, porN := false, testEn := false, refInRange := false, banks := [0, 0, 0, 0, 0],
              alive := false, faultAsserted := false, perstN := false, wakeDriven := false, clkreqAsserted := false,
              pttPressed := false, pttBlocked := false, privRaw := false, csLow := false,
              tioLevel := [false, false, false, false], gpioOut := 0, gpioLevel := 0, tapUnlocked := false,
              tapReset := false, lastWdog := none, railActed := 0 },
    dict := [],
    eps := List.replicate 49 { seq := 0, overflow := false, queue := [] },
    subs := [], sessions := List.replicate 16 { key := [], window := [], kept := [] }, blocks := [], snaps := [],
    spi := { response := none, ahead := 0, busy := false, crcError := false, ignoring := false, sdo := [] },
    mismatch := [], written := [], errRead := 0, everReady := 0,
    power := { trans := none, bringup := false, source := 0, unit := 0, early := false, prewake := false, stateTentative := false,
               targetTentative := false, retracted := false, midFirm := false, midRun := false, cascade := false },
    base := { started := false },
    dies := List.replicate 2 { regCeiling := 1200, powerCeiling := 1200, thermal := [1200, 1200],
                               demand := [200, 200], waitCool := false,
                               setpointMv := 600 },
    audio := Audio.reset, camera := Camera.reset, time := TimeBase.reset, net := Net.reset, host := HostLink.reset,
    security := Security.reset, integrity := Integrity.reset, compute := Compute.reset,
    tmem := [], clm := [], bmem := [], hmem := [], out := [], free := 0 }

end Sys2Proof.Machine
end

