-- ==== Sys2Proof/Machine/Ops.lean ====
section
/-!
DEFINITION. The operations every command is made of: the stores in canonical form, the object dictionary (R14, R21),
events and their delivery (R35-R37, R43, R415), error records (R55), readiness (R53) and the abort codes (R30, R52).
-/

namespace Sys2Proof.Machine

/-! ### Stores in canonical form -/

/-- The value stored under `k`. -/
def kvGet {α : Type} (k : Nat) (m : List (Nat × α)) : Option α := (m.find? fun p => p.1 == k).map Prod.snd

/-- `m` with `v` under `k`, keys rising. -/
def kvPut {α : Type} (k : Nat) (v : α) : List (Nat × α) → List (Nat × α)
  | [] => [(k, v)]
  | p :: rest => if k < p.1 then (k, v) :: p :: rest else if k = p.1 then (k, v) :: rest else p :: kvPut k v rest

/-- `m` without `k`. -/
def kvDel {α : Type} (k : Nat) (m : List (Nat × α)) : List (Nat × α) := m.filter fun p => p.1 != k

/-- `m` with the keys from `lo` to `hi` less 1 replaced by `cells`, which lie there and rise. -/
def kvSplice {α : Type} (lo hi : Nat) (cells m : List (Nat × α)) : List (Nat × α) :=
  m.filter (fun p => decide (p.1 < lo)) ++ cells ++ m.filter fun p => decide (hi ≤ p.1)

/-- The canonical form: keys strictly rising. -/
def kvWf {α : Type} (m : List (Nat × α)) : Bool := rising (m.map Prod.fst)

/-- A byte into a memory whose unlisted bytes read as `d` (none: as a free value). -/
def memPut (d : Option Byte) (a : Nat) (b : Byte) (m : List Host.Cell) : List Host.Cell :=
  if d = some b then kvDel a m else kvPut a b m

/-- Consecutive bytes into a memory. -/
def memWrite (d : Option Byte) (a : Nat) (bs : List Byte) (m : List Host.Cell) : List Host.Cell :=
  kvSplice a (a + bs.length) ((bs.mapIdx fun i b => (a + i, b)).filter fun p => d != some p.2) m

/-- The canonical form of a memory: keys strictly rising, no entry at the unlisted value. -/
def memWf (d : Option Byte) (m : List Host.Cell) : Bool := kvWf m && m.all fun p => d != some p.2

/-- An ascending list of numbers with `x` in or out. -/
def setMem (x : Nat) (b : Bool) (xs : List Nat) : List Nat := if b then insNat x xs else xs.filter (· != x)

/-! ### Aborts -/

/-- The abort codes of Table 1.12. -/
inductive Abort where
  | badMessage | sessionInvalid | noObject | noSubindex | tenantDenied | readOnly | writeOnly | notEvent
  | typeMismatch | outOfRange | alreadyWritten | notReady | unitNotIdle | notOwned | ownedBy (t : Nat)
  | notConfigured | busy | noResource | entropyNotReady | integrityFault
deriving DecidableEq, Repr

/-- STATUS of an abort (Table 1.12). -/
def Abort.code : Abort → Nat
  | .noObject => 0x01000001
  | .noSubindex => 0x01000002
  | .readOnly => 0x02000001
  | .writeOnly => 0x02000002
  | .unitNotIdle => 0x02000003
  | .alreadyWritten => 0x02000004
  | .notEvent => 0x02000005
  | .outOfRange => 0x03000001
  | .typeMismatch => 0x03000002
  | .notOwned => 0x04000001
  | .ownedBy t => 0x04000100 + t
  | .notReady => 0x05000001
  | .notConfigured => 0x05000002
  | .tenantDenied => 0x06000001
  | .sessionInvalid => 0x06000002
  | .entropyNotReady => 0x07000001
  | .integrityFault => 0x08000001
  | .badMessage => 0x09000001
  | .busy => 0x09000002
  | .noResource => 0x09000003

/-- The order of R30. -/
def Abort.rank : Abort → Nat
  | .badMessage => 0
  | .sessionInvalid => 1
  | .noObject => 2
  | .noSubindex => 3
  | .tenantDenied => 4
  | .readOnly | .writeOnly | .notEvent => 5
  | .typeMismatch => 6
  | .outOfRange => 7
  | .alreadyWritten => 8
  | .notReady => 9
  | .unitNotIdle => 10
  | .notOwned | .ownedBy _ => 11
  | .notConfigured => 12
  | .busy => 13
  | .noResource => 14
  | .entropyNotReady => 15
  | .integrityFault => 16

/-- The abort a response carries when several checks fail (R30). -/
def firstAbort (xs : List Abort) : Option Abort :=
  xs.foldl (fun b a => match b with
    | none => some a
    | some b => if a.rank < b.rank then some a else some b) none

/-! ### The dictionary -/

def keyIdx (k : Nat) : Nat := k / 8192
def keySub (k : Nat) : Nat := k / 32 % 256
def keyTen (k : Nat) : Nat := k % 32

/-- The table row of an object. -/
def objRow (idx sub : Nat) : Option ObjRow :=
  objTable.find? fun r => decide (r.idxLo ≤ idx ∧ idx ≤ r.idxHi ∧ r.subLo ≤ sub ∧ sub ≤ r.subHi)

/-- The value of an After power-up column. -/
def Dflt.val (d : Dflt) (f : Fuses) (sub : Nat) : Val :=
  match d with
  | .num n => .n n
  | .grade c x => .n (if f.extended then x else c)
  | .ordering => .b (strBytes (if f.extended then "MDN-1640-XB" else "MDN-1640-CB"))
  | .str t => .b (strBytes t)
  | .zeros n => .b (List.replicate n 0)
  | .bytes b => .b b
  | .rootHash => .b (Config.rootHash (sub - 1))

/-- The value of an object after power-up (R21); 0 for a key that names none. -/
def dictDefault (f : Fuses) (k : Nat) : Val :=
  match objRow (keyIdx k) (keySub k) with
  | some r => r.dflt.val f (keySub k)
  | none => .n 0

/-- The value an object holds. -/
def State.val (s : State) (k : Nat) : Val := (kvGet k s.dict).getD (dictDefault s.fuses k)

/-- The number an object holds; of bytes, the little-endian number. -/
def State.rd (s : State) (k : Nat) : Nat :=
  match s.val k with
  | .n v => v
  | .b bs => leNat bs

/-- The bytes an object holds. -/
def State.rdB (s : State) (k : Nat) : List Byte :=
  match s.val k with
  | .n _ => []
  | .b bs => bs

/-- The signed number an object of `w` bits holds. -/
def State.rdI (s : State) (w k : Nat) : Int := sx w (s.rd k)

/-- Whether a BOOL object is true. -/
def State.on (s : State) (k : Nat) : Bool := s.rd k != 0

/-- The object's value changed without an event. -/
def State.put (s : State) (k : Nat) (v : Val) : State :=
  { s with dict := if v = dictDefault s.fuses k then kvDel k s.dict else kvPut k v s.dict }

/-- Bytes of a type on the wire (Table 1.1); none for VSTR and DOMAIN. -/
def Ty.width : Ty → Option Nat
  | .bool | .i8 | .u8 => some 1
  | .i16 | .u16 => some 2
  | .i32 | .u32 => some 4
  | .i64 | .u64 | .stime64 | .bitmap64 => some 8
  | .time96 => some 12
  | .vstr | .dom _ _ => none

/-- TIME96 on the wire, from units of 2^-16 ns (Table 1.1). -/
def time96Bytes (t : Nat) : List Byte :=
  let ns := t / 65536
  leBytes 6 (ns / 1000000000) ++ leBytes 4 (ns % 1000000000) ++ leBytes 2 (t % 65536)

/-- TIME96 from the wire; none where the nanoseconds are out of range. -/
def time96Of (bs : List Byte) : Option Nat :=
  let ns := field bs 6 4
  if ns < 1000000000 then some ((field bs 0 6 * 1000000000 + ns) * 65536 + field bs 10 2) else none

/-- A value in its type encoding (Table 1.1). -/
def encodeVal (t : Ty) (v : Val) : List Byte :=
  match v with
  | .b bs => bs
  | .n n => match t with
    | .time96 => time96Bytes n
    | _ => leBytes (t.width.getD 0) n

/-- The type of an object; U8 for subindex 0 (R15). -/
def keyTy (k : Nat) : Ty := ((objRow (keyIdx k) (keySub k)).map ObjRow.ty).getD .u8

/-! ### Endpoints -/

def epIdx : Endpoint → Nat
  | .mailbox f => f.val
  | .session n => 32 + n.val
  | .spi => 48

/-- The tenant that requests (R38, Table 1.10). -/
def State.epTenant (s : State) (e : Nat) : Nat :=
  if e < 32 then e else if e < 48 then s.rd (O.SESSION_TENANT (e - 32)) else 0

/-- The NYP header (Table 1.5). -/
def nypHeader (op flags tenant session seq idx sub count len status : Nat) : List Byte :=
  leBytes 1 (16 + op) ++ leBytes 1 flags ++ leBytes 1 tenant ++ leBytes 1 session ++ leBytes 2 seq ++
  leBytes 2 idx ++ leBytes 1 sub ++ leBytes 1 count ++ leBytes 2 len ++ leBytes 4 status

/-- The event record (Table 1.8). -/
def EvInfo.bytes (e : EvInfo) : List Byte :=
  time96Bytes e.time ++ leBytes 2 e.code ++ leBytes 1 e.unit ++ leBytes 1 e.flags ++ e.value

/-- An EVENT message of endpoint `e` (R36). -/
def State.eventBytes (s : State) (e : Nat) (m : EventMsg) : List Byte :=
  let body := m.info.bytes
  let dev : Bool := match objRow (keyIdx m.key) (keySub m.key) with
    | some r => r.scope != .ten
    | none => true
  nypHeader 6 0 (if dev then s.epTenant e else keyTen m.key) (if 32 ≤ e ∧ e < 48 then e - 31 else 0) m.seq
    (keyIdx m.key) (keySub m.key) 1 body.length 0 ++ body

/-- Whether a unit has set READY (R53), and whether it is HELD. -/
def State.ready (s : State) (u : Nat) : Bool := (s.rd O.READY).testBit u
def State.held (s : State) (u : Nat) : Bool := (s.rd O.HELD).testBit u

/-- An output recorded. -/
def State.emitOut (s : State) (o : Out) : State := { s with out := o :: s.out }

def State.modFunc (s : State) (f : Nat) (g : Func → Func) : State :=
  { s with host := { s.host with funcs := modNth s.host.funcs f g } }
def State.func (s : State) (f : Nat) : Func := nth s.host.funcs f Func.reset

/-- The link carries transactions: L0, or L1 that it leaves to do so (7100.01). -/
def State.linkUp (s : State) : Bool :=
  s.ready 0x20 && decide (2 ≤ s.rd O.LINK_STATE ∧ s.rd O.LINK_STATE ≤ 4)

/-- An MSI-X vector signalled (Table 17.2): sent while the link is up, else pending in the PBA. -/
def State.msix (s : State) (f v : Nat) : State :=
  if s.linkUp then s.emitOut (.msix f v)
  else s.modFunc f fun x => { x with pba := setBit x.pba v }

/-- Pending vectors go out once the link carries transactions (Table 17.2). -/
def State.flushPba (s : State) : State :=
  if s.linkUp then
    (List.range 32).foldl (fun s f => ((List.range 10).filter (s.func f).pba.testBit).foldl (fun s v =>
      (s.modFunc f fun x => { x with pba := clrBit x.pba v }).emitOut (.msix f v)) s) s
  else s

/-- The port a session sends on: the lowest of its ports that is enabled and up (R42, 1101.01). -/
def State.sessionPort (s : State) (n : Nat) : Option Nat :=
  [0, 1].find? fun p => (s.rd (O.SESSION_PORTS n)).testBit p && (s.rd O.UDP_ENABLE).testBit p && s.ready (0x21 + p)

/-- The nonce of R43: session number, direction, counter. -/
def udpNonce (n dir ctr : Nat) : List Byte := leBytes 1 (n + 1) ++ leBytes 1 dir ++ [0, 0] ++ leBytes 8 ctr

/-- A message of session `n` sealed and sent on a port (R43). -/
def State.sendUdp (s : State) (n port : Nat) (msg : List Byte) : State :=
  let ctr := s.rd (O.SESSION_TX_COUNTER n)
  let aad := msg.take 16 ++ leBytes 8 ctr
  let key := (nth s.sessions n { key := [], window := [], kept := [] }).key
  let (ct, tag) := gcmSeal key (udpNonce n 1 ctr) aad (msg.drop 16)
  (s.put (O.SESSION_TX_COUNTER n) (.n ((ctr + 1) % 2 ^ 64))).emitOut (.udp port n (aad ++ ct ++ tag))

def State.ep (s : State) (e : Nat) : EpState := nth s.eps e { seq := 0, overflow := false, queue := [] }
def State.modEp (s : State) (e : Nat) (g : EpState → EpState) : State := { s with eps := modNth s.eps e g }

/-- Sends the queued events of a session, oldest first. -/
def State.sendQueued (s : State) (e port : Nat) : State :=
  (s.ep e).queue.foldl (fun s m => s.sendUdp (e - 32) port (s.eventBytes e m)) (s.modEp e fun x => { x with queue := [] })

/-- The oldest queued event of a mailbox into MB_EVENT when that is free (R415). -/
def State.fillMbEvent (s : State) (e : Nat) : State :=
  match (s.ep e).queue with
  | [] => s
  | m :: rest =>
    if (s.func e).eventReady then s
    else
      ((s.modEp e fun x => { x with queue := rest }).modFunc e fun f =>
        { f with mbEvent := s.eventBytes e m, eventReady := true }).msix e 0

/-- Queued events go out: a mailbox fills MB_EVENT, an OPEN session sends, the sideband waits for READ_FRAME. -/
def State.pump (s : State) (e : Nat) : State :=
  if e < 32 then s.fillMbEvent e
  else if e < 48 then
    match s.sessionPort (e - 32) with
    | some p => if s.rd (O.SESSION_STATE (e - 32)) = 2 then s.sendQueued e p else s
    | none => s
  else s

/-- An event onto an endpoint's queue of 32 (R36, R37). DEDUCED: the first event queued after a drop carries OVERFLOW. -/
def State.queueEvent (s : State) (e k : Nat) (info : EvInfo) : State :=
  let st := s.ep e
  if 32 ≤ st.queue.length then
    let s := s.modEp e fun x => { x with overflow := true }
    if e < 32 then s.put (O.EVENT_DROPS e) (.n ((s.rd (O.EVENT_DROPS e) + 1) % 2 ^ 32)) else s
  else
    let info := if st.overflow then { info with flags := info.flags ||| 64 } else info
    let m : EventMsg := { key := k, seq := st.seq, info }
    (s.modEp e fun x => { seq := (x.seq + 1) % 65536, overflow := false, queue := x.queue ++ [m] }).pump e

/-- TIME96 now, in units of 2^-16 ns. -/
def State.timeNow (s : State) : Nat := s.time.now

/-- One change for subscription number `i` (R35). -/
def State.notify (s : State) (i : Nat) (info : EvInfo) : State :=
  match s.subs[i]? with
  | none => s
  | some b =>
    let upd := fun (s : State) (g : Sub → Sub) => { s with subs := modNth s.subs i g }
    if b.intervalUs = 0 then s.queueEvent b.ep b.key info
    else if !b.windowOpen then (upd s fun b => { b with windowOpen := true }).queueEvent b.ep b.key info
    else if info.code = 0 then upd s fun b => { b with combined := some info }
    else
      let s := match b.combined with
        | some c => s.queueEvent b.ep b.key c
        | none => s
      (upd s fun b => { b with combined := none, windowOpen := true }).queueEvent b.ep b.key info

/-- The event of a change of object `k` to its present value (R35, R36, Table 1.8). -/
def State.event (s : State) (k code unit flags : Nat) : State :=
  let fl := if s.mismatch.contains k then flags ||| 16 else flags
  let info : EvInfo := { time := s.timeNow, code, unit, flags := fl, value := encodeVal (keyTy k) (s.val k) }
  (List.range s.subs.length).foldl (fun s i =>
    if (s.subs[i]?.map Sub.key) = some k then s.notify i info else s) s

/-- The unit an object belongs to (R53), given its index and subindex; 0xFF none. -/
def UnitOf.code (u : UnitOf) (s : State) (idx sub : Nat) : Nat :=
  match u with
  | .none => 0xFF
  | .fixed u => u
  | .byIdx u lo => u + (idx - lo)
  | .bySub u => u + (sub - 1)
  | .csi lo => if idx - lo < 8 then 0x23 else 0x24
  | .rccSub => 0x10 + (sub - 1) % 4
  | .midCore => 4 * s.rd O.MID_RINK + s.rd O.MID_CORE

/-- The unit that events and gating of an object name. -/
def State.objUnit (s : State) (k : Nat) : Nat :=
  match objRow (keyIdx k) (keySub k) with
  | some r => r.unit.code s (keyIdx k) (keySub k)
  | none => 0xFF

/-- Bits of a numeric object. -/
def keyBits (k : Nat) : Nat := 8 * (keyTy k).width.getD 0

/-- The object takes a number, wrapped to its width; a changed EV object raises an event with the given code, unit
and flags. -/
def State.setEv (s : State) (k v code unit flags : Nat) : State :=
  let v := if keyTy k = .time96 then v else v % 2 ^ keyBits k
  if s.rd k = v then s
  else
    let s := s.put k (.n v)
    match objRow (keyIdx k) (keySub k) with
    | some r => if r.acc = .ev then s.event k code unit flags else s
    | none => s

/-- The object takes a number; a changed EV object raises a plain event (R493). -/
def State.wr (s : State) (k v : Nat) : State := s.setEv k v 0 (s.objUnit k) 0

/-- A counter rises by `n`, wrapping. -/
def State.addTo (s : State) (k n : Nat) : State := s.wr k (s.rd k + n)
def State.inc (s : State) (k : Nat) : State := s.addTo k 1

/-- A counter that saturates at its largest value. -/
def State.incSat (s : State) (k : Nat) : State := if s.rd k + 1 < 2 ^ keyBits k then s.inc k else s

/-! ### Error records and readiness -/

/-- The error record (Table 1.14). -/
def errBytes (time code unit sev tenant d0 d1 seq : Nat) : List Byte :=
  time96Bytes time ++ leBytes 2 code ++ leBytes 1 unit ++ leBytes 1 sev ++ leBytes 1 tenant ++ [0, 0, 0] ++
  leBytes 4 d0 ++ leBytes 4 d1 ++ leBytes 4 seq

/-- A log slot that nothing has read since it was written. -/
def State.unread (s : State) (slot : Nat) : State := { s with errRead := clrBit s.errRead slot }

/-- An error record written (R55); the event on ERRLOG_WRITTEN accompanies it (R493). -/
def State.err (s : State) (code sev unit tenant d0 d1 : Nat) : State :=
  let seq := (s.rd O.ERRLOG_WRITTEN + 1) % 2 ^ 32
  let slot := (seq + 63) % 64
  let s := if 64 < seq ∧ !s.errRead.testBit slot then s.inc O.ERRLOG_OVERWRITTEN else s
  let s := s.put (O.ERRLOG_RECORD slot) (.b (errBytes s.timeNow code unit sev tenant d0 d1 seq))
  s.unread slot |>.setEv O.ERRLOG_WRITTEN seq code unit 0

/-- FUNC_STATUS of a function (Table 17.2). -/
def State.funcStatusNow (s : State) (f : Nat) : Nat :=
  (if s.ready 0x20 then 1 else 0) + (if s.rd O.CONFIG_STATE = 2 then 2 else 0) +
  (if f = 0 ∧ s.rd O.QUIESCE_STATE = 1 then 4 else 0)

/-- Vector 0 of each function whose FUNC_STATUS has changed is signalled (R415). -/
def State.pollStatus (s : State) : State :=
  (List.range 32).foldl (fun s f =>
    let v := s.funcStatusNow f
    if (s.func f).funcStatus = v then s
    else (s.modFunc f fun x => { x with funcStatus := v }).msix f 0) s

/-- RCC_STATE of a Rink control core (6040.01-04): 4 held, 2 running its firmware, 3 halted without it, 0 off. -/
def State.rccNow (s : State) (r : Nat) : Nat :=
  if s.held (0x10 + r) then 4
  else if !s.ready (0x10 + r) then 0
  else if (nth s.security.images 0 none).isSome then 2 else 3

/-- The control cores' states follow. -/
def State.pollRcc (s : State) : State := (List.range 4).foldl (fun s r => s.wr (O.RCC_STATE r) (s.rccNow r)) s

/-- What follows a change of READY or HELD of a unit. -/
def State.readyFollow (s : State) (u : Nat) : State :=
  if u = 0x20 then s.flushPba.pollStatus else if 0x10 ≤ u ∧ u ≤ 0x13 then s.pollRcc else s

/-- The unit has been ready since power-up. -/
def State.noteReady (s : State) (u : Nat) : State := { s with everReady := setBit s.everReady u }

/-- READY of a unit set or cleared (R53), with READY_CHANGED. -/
def State.setReady (s : State) (u : Nat) (b : Bool) (code : Nat) : State :=
  let v := putBit (s.rd O.READY) u b
  if s.rd O.READY = v then s
  else
    let s := (s.wr O.READY_CHANGED s.timeNow).setEv O.READY v code u 0
    let s := if b then s.noteReady u else s
    s.readyFollow u

/-- HELD of a unit set or cleared (R53). -/
def State.setHeld (s : State) (u : Nat) (b : Bool) (code : Nat) : State :=
  let v := putBit (s.rd O.HELD) u b
  if s.rd O.HELD = v then s
  else ((s.wr O.READY_CHANGED s.timeNow).setEv O.HELD v code u 0).readyFollow u

/-- A unit is held: READY clears and HELD is set (R53). -/
def State.hold (s : State) (u code : Nat) : State := (s.setReady u false code).setHeld u true code

/-! ### Mismatch, free values, random draws -/

/-- The MISMATCH flag of an object (R23); raising it raises an event on the object. -/
def State.setMismatch (s : State) (k : Nat) (b : Bool) : State :=
  let was := s.mismatch.contains k
  let s := { s with mismatch := setMem k b s.mismatch }
  if b && !was then s.event k 0 (s.objUnit k) 0 else s

/-- A free value of `w` bits, and the state with the draw counted. -/
def State.freeVal (s : State) (w : Nat) : Nat × State :=
  (Config.free s.free % 2 ^ w, { s with free := s.free + 1 })

/-- `n` free bytes. -/
def State.freeBytes (s : State) (n : Nat) : List Byte × State :=
  ((List.range n).map fun i => BitVec.ofNat 8 (Config.free (s.free + i)), { s with free := s.free + n })

/-- `n` bytes of the DRBG, named by the draw (R438). -/
def State.draw (s : State) (n : Nat) : List Byte × State :=
  ((List.range n).map fun i => Config.drbgByte s.security.draws i,
   { s with security := { s.security with draws := s.security.draws + 1 } })

/-- An integer object of the model's `n`-th list entry, changed. -/
def State.modCore (s : State) (c : Nat) (g : CoreSt → CoreSt) : State :=
  { s with compute := { s.compute with cores := modNth s.compute.cores c g } }
def State.core (s : State) (c : Nat) : CoreSt := nth s.compute.cores c CoreSt.reset
def State.modRink (s : State) (r : Nat) (g : RinkSt → RinkSt) : State :=
  { s with compute := { s.compute with rinks := modNth s.compute.rinks r g } }
def State.rink (s : State) (r : Nat) : RinkSt := nth s.compute.rinks r RinkSt.reset

/-! ### When commands have an effect -/

/-- The always-on island runs: supplied, with POR_N released. -/
def State.released (s : State) : Bool := s.pins.powered && s.pins.porN

/-- The device works: it runs and is not in its safe state (R488, R489). -/
def State.alive (s : State) : Bool := s.released && !s.on O.DEVICE_SAFE

/-- The outcome of a command: its next state. -/
abbrev Res := Host.Outcome State Fault Refusal

/-- A command that the device attends to while it is alive, and that changes nothing otherwise. -/
def whenAlive (s : State) (f : State → State) : Res := .next (if s.alive then f s else s)

/-- As `whenAlive`, under one more condition. -/
def whenOk (c : Bool) (s : State) (f : State → State) : Res := .next (if s.alive && c then f s else s)

end Sys2Proof.Machine
end

