-- ==== Sys2Proof/Machine/Memory.lean ====
section
/-!
DEFINITION. Tenant memory: allocations and mapping (R293-R296), keys and tags (R303, R445, R450), the Rink's view with
its dirty lines (R297, R298), core-local memory, host memory and the charging of passes (R331, R332).
-/

namespace Sys2Proof.Machine

/-! ### Allocation -/

/-- The channels a tenant owns, ascending (R294). -/
def State.channels (s : State) (t : Nat) : List Nat :=
  (List.range 16).filter fun c => (s.rd (O.CHANNEL_GRANT t)).testBit c

/-- The Lodge segments a tenant owns, ascending (R296). -/
def State.segments (s : State) (t : Nat) : List Nat :=
  (List.range 32).filter fun k => s.rd (O.LODGE_SEG_OWNER k) = t

/-- Sizes of the two parts of the allocation (Table 12.2). -/
def State.dramBytes (s : State) (t : Nat) : Nat := (s.channels t).length * 2 ^ 30
def State.lodgeBytes (s : State) (t : Nat) : Nat := (s.segments t).length * 2 ^ 20

/-- Base of the Lodge window (Table 12.2). -/
def lodgeBase : Nat := 0x8000000000

/-- A range lies in the tenant's DRAM allocation. -/
def State.inDram (s : State) (t a n : Nat) : Bool := decide (a + n ≤ s.dramBytes t)
/-- A range lies in the tenant's Lodge allocation. -/
def State.inLodge (s : State) (t a n : Nat) : Bool := decide (lodgeBase ≤ a ∧ a + n ≤ lodgeBase + s.lodgeBytes t)
/-- A range lies in the tenant's allocation and in one window (R293). -/
def State.allocOk (s : State) (t a n : Nat) : Bool := s.inDram t a n || s.inLodge t a n

/-- The channel of a DRAM address, and its physical address (R294). -/
def State.channelOf (s : State) (t a : Nat) : Nat :=
  let cs := s.channels t
  nth cs (a / 256 % cs.length) 0
def State.phys (s : State) (t a : Nat) : Nat :=
  let n := (s.channels t).length
  s.channelOf t a * 2 ^ 30 + (a / 256 / n * 256 + a % 256)

/-- The memory units that a range of a tenant's allocation lies behind (R294, R311): bit 0 for the Lodge, unit 0x18, and
bits 1 to 4 for the DRAM controllers. -/
def State.behind (s : State) (t a n : Nat) : Nat :=
  if s.inLodge t a n then 1
  else if s.inDram t a n && decide (0 < n) then
    (List.range (min 16 (ceilDiv (a % 256 + n) 256))).foldl (fun m i => setBit m (s.channelOf t (a + 256 * i) / 4 + 1)) 0
  else 0

/-- The location of R303. -/
def State.loc (s : State) (t a : Nat) : Nat :=
  if a < lodgeBase then s.phys t a
  else lodgeBase + nth (s.segments t) ((a - lodgeBase) / 2 ^ 20) 0 * 2 ^ 20 + (a - lodgeBase) % 2 ^ 20

/-! ### Keys -/

/-- Bytes `off` to `off + n` of a tenant's key set (R445): K_LODGE 0, K_DRAM 64, K_SWAP 128, K_TAG 192. -/
def State.keyBytes (s : State) (t off n : Nat) : List Byte :=
  let d := nth s.security.slots t 0
  (List.range n).map fun i => Config.drbgByte d (off + i)

/-- The tag of a tile (R303, R450). -/
def State.tileTag (s : State) (t a : Nat) (msg : List Byte) : List Byte :=
  aesCmac (s.keyBytes t 192 32) ((1 : Byte) :: (leBytes 8 (s.loc t a) ++ msg))

/-- The tag of a swap slot (R257, R450). -/
def State.swapTag (s : State) (t : Nat) (msg : List Byte) : List Byte :=
  aesCmac (s.keyBytes t 192 32) ((2 : Byte) :: msg)

/-- The swap cipher: AES-XTS-256 in data units of 256 B with the host address divided by 256 as tweak (R257). -/
def State.swapCrypt (s : State) (dec : Bool) (t a : Nat) (bs : List Byte) : List Byte :=
  ((chunksOf 256 bs).mapIdx fun i u => xtsApply dec (s.keyBytes t 128 64) (a / 256 + i) u).flatten

/-! ### Bytes -/

/-- The key of a tenant byte, and of a byte of core-local memory. -/
def tkey (t a : Nat) : Nat := t * 2 ^ 40 + a
def ckey (c a : Nat) : Nat := c * 2 ^ 21 + a

/-- The poison keys of the words that hold a byte of core-local memory and of tenant memory (R477). -/
def poisonCore (c a : Nat) : Nat := ckey c a / 8
def poisonTen (t a : Nat) : Nat := 2 ^ 48 + tkey t a / 8
/-- The poison key of a word of Patrol's Lodge segment `g`. -/
def poisonPatrol (g a : Nat) : Nat := 2 ^ 50 + (g * 2 ^ 20 + a) / 8

/-- The words from `lo` to `hi` are rewritten, or hold nothing any more: they are no longer poisoned. -/
def State.unpoison (s : State) (lo hi : Nat) : State :=
  if s.integrity.poisoned = [] then s
  else { s with integrity := { s.integrity with
    poisoned := s.integrity.poisoned.filter fun k => decide (k < lo ∨ hi < k) } }

/-- A byte of tenant memory; one that nothing has written is a free value (R295). -/
def State.tbyte (s : State) (t a : Nat) : Byte :=
  (kvGet (tkey t a) s.tmem).getD (Config.memByte (nth s.compute.gens t 0) (tkey t a))
def State.tbytes (s : State) (t a n : Nat) : List Byte := (List.range n).map fun i => s.tbyte t (a + i)

/-- Bytes into tenant memory. -/
def State.tput (s : State) (t a : Nat) (bs : List Byte) : State :=
  let s := if bs = [] then s else s.unpoison (poisonTen t a) (poisonTen t (a + bs.length - 1))
  { s with tmem := memWrite none (tkey t a) bs s.tmem }

/-- The contents of a window of a tenant are lost (R295, R311): the bytes from `lo` to `hi` read as free values. -/
def State.tlose (s : State) (t lo hi : Nat) : State :=
  let s := s.unpoison (poisonTen t lo) (poisonTen t hi - 1)
  { s with
    tmem := s.tmem.filter fun p => decide (p.1 < tkey t lo ∨ tkey t hi ≤ p.1),
    compute := { s.compute with gens := modNth s.compute.gens t fun _ => s.free + 1 },
    free := s.free + 1 }

/-- The contents of lost channels of a tenant's DRAM (R311): their bytes, and those that nothing has written, read as
free values. -/
def State.tloseChannels (s : State) (t : Nat) (lost : List Nat) : State :=
  let gone := fun (k : Nat) => decide (tkey t 0 ≤ k ∧ k < tkey t lodgeBase) && lost.contains (s.channelOf t (k - tkey t 0))
  { s with
    tmem := s.tmem.filter fun p => !gone p.1,
    integrity := { s.integrity with poisoned := s.integrity.poisoned.filter fun k =>
      !(decide (2 ^ 48 ≤ k ∧ k < 2 ^ 50) && gone ((k - 2 ^ 48) * 8)) },
    compute := { s.compute with gens := modNth s.compute.gens t fun _ => s.free + 1 },
    free := s.free + 1 }

/-- A byte of tenant memory as a Rink sees it: its own dirty bytes first (R298). -/
def State.rbyte (s : State) (r t a : Nat) : Byte :=
  (kvGet (tkey t a) (s.rink r).dirty).getD (s.tbyte t a)

/-- A byte of core-local memory. -/
def State.cbyte (s : State) (c a : Nat) : Byte := (kvGet (ckey c a) s.clm).getD 0
def State.cput (s : State) (c a : Nat) (bs : List Byte) : State :=
  let s := if bs = [] then s else s.unpoison (poisonCore c a) (poisonCore c (a + bs.length - 1))
  { s with clm := memWrite (some 0) (ckey c a) bs s.clm }
/-- The core-local bytes from `lo` to `hi` cleared. -/
def State.cclear (s : State) (c lo hi : Nat) : State :=
  let s := s.unpoison (poisonCore c lo) (poisonCore c hi - 1)
  { s with clm := kvSplice (ckey c lo) (ckey c hi) [] s.clm }

/-- A byte of Base engine memory. -/
def State.bbyte (s : State) (a : Nat) : Byte := (kvGet a s.bmem).getD 0
def State.bbytes (s : State) (a n : Nat) : List Byte := (List.range n).map fun i => s.bbyte (a + i)
def State.bput (s : State) (a : Nat) (bs : List Byte) : State := { s with bmem := memWrite (some 0) a bs s.bmem }

/-- A byte of host memory: what the block wrote, else what the host holds there (free). -/
def hkey (f a : Nat) : Nat := f * 2 ^ 64 + a
def State.hbyte (s : State) (f a : Nat) : Byte := (kvGet (hkey f a) s.hmem).getD (Config.hostByte (hkey f a))
def State.hput (s : State) (f a : Nat) (bs : List Byte) : State := { s with hmem := memWrite none (hkey f a) bs s.hmem }

/-! ### Passes -/

/-- The pass key of an activity and resource: resources 0-12 of Table 13.3, DRAM per channel at 16 + channel. -/
def passKey (act res : Nat) : Nat := act * 32 + res

/-- The tenant and class of an activity number (tenant + 32 × LC). -/
def actTenant (act : Nat) : Nat := act % 32
def actLc (act : Nat) : Bool := decide (32 ≤ act)

/-- The pass of an activity for a resource in this period (R329). -/
def State.pass (s : State) (act res : Nat) : Nat :=
  let i := if 16 ≤ res then 9 else res
  s.rd (if actLc act then O.PASS_LC i (actTenant act) else O.PASS_BE i (actTenant act))

def State.usedPass (s : State) (act res : Nat) : Nat := (kvGet (passKey act res) s.compute.used).getD 0

/-- The activity has spent its pass of a resource (R332). -/
def State.spent (s : State) (act res : Nat) : Bool := decide (s.pass act res ≤ s.usedPass act res)

/-- `n` units charged (R331); reaching the pass throttles the activity in this period (R332). -/
def State.charge (s : State) (act res n : Nat) : State :=
  if n = 0 then s
  else
    let k := passKey act res
    let u := s.usedPass act res + n
    let c := { s.compute with used := kvPut k u s.compute.used }
    { s with compute := if s.pass act res ≤ u then { c with throttled := insNat k c.throttled } else c }

/-- Bytes moved to or from a tenant address, charged to its tier (Table 13.3) and counted per channel (7030, 7031). -/
def State.traffic (s : State) (act a n : Nat) (write : Bool) : State :=
  let t := actTenant act
  if a < lodgeBase then
    let c := s.channelOf t a
    (s.addTo (if write then O.CH_WRITE_BYTES c else O.CH_READ_BYTES c) n).charge act (16 + c) n
  else s.charge act 8 n

/-- As `traffic` for a range of any length, line by line. -/
def State.trafficRange (s : State) (act a n : Nat) (write : Bool) : State :=
  (List.range (ceilDiv (a % 256 + n) 256)).foldl (fun s i =>
    let lo := max a ((a / 256 + i) * 256)
    let hi := min (a + n) ((a / 256 + i + 1) * 256)
    s.traffic act lo (hi - lo) write) s

/-! ### The Rink cache -/

/-- One byte written through a Rink's cache (R298): dirty in its line, which records the class. -/
def State.rput (s : State) (r act : Nat) (w : Wr) : State :=
  let t := actTenant act
  let k := tkey t w.addr
  let old := (s.rbyte r t w.addr).toNat
  let b : Byte := BitVec.ofNat 8 (Nat.lor (Nat.land w.val w.mask) (Nat.land old (255 - w.mask)))
  s.modRink r fun x =>
    { x with dirty := kvPut k b x.dirty, lines := kvPut (k / 256) (actLc act) x.lines,
             poison := x.poison.filter (· != k / 8) }

/-- The lines of a tile that goes past the cache are invalidated (R303). -/
def State.rdrop (s : State) (r t lo hi : Nat) : State :=
  s.modRink r fun x =>
    { x with dirty := x.dirty.filter fun p => decide (p.1 < tkey t lo ∨ tkey t hi ≤ p.1),
             lines := x.lines.filter fun p => decide (p.1 * 256 + 256 ≤ tkey t lo ∨ tkey t hi ≤ p.1 * 256) }

/-- The dirty lines of a tenant in a Rink are written back (R298), each charged to the class that wrote it last. A line
that holds a poisoned word is not (R477). -/
def State.commit (s : State) (r t : Nat) : State :=
  let x := s.rink r
  let mine := fun (k : Nat) => decide (tkey t 0 ≤ k ∧ k < tkey (t + 1) 0)
  let sound := fun (line : Nat) => !x.poison.any fun w => w / 32 == line
  let s := (x.lines.filter fun p => mine (p.1 * 256) && sound p.1).foldl (fun s p =>
    s.traffic (t + if p.2 then 32 else 0) (p.1 * 256 % 2 ^ 40) 256 true) s
  let put := fun (s : State) (p : Host.Cell) => s.tput t (p.1 - tkey t 0) [p.2]
  let s := (x.dirty.filter fun (p : Host.Cell) => mine p.1 && sound (p.1 / 256)).foldl put s
  s.modRink r fun x =>
    { x with dirty := x.dirty.filter fun p => !mine p.1, lines := x.lines.filter fun p => !mine (p.1 * 256) }

/-- Every Rink's dirty lines of a tenant written back. -/
def State.commitAll (s : State) (t : Nat) : State := (List.range 4).foldl (fun s r => s.commit r t) s

/-- Some key of `ks` lies from `lo` to `hi`. -/
def anyIn (ks : List Nat) (lo hi : Nat) : Bool := ks.any fun k => decide (lo ≤ k ∧ k ≤ hi)

/-- A range of tenant memory holds a poisoned word (R477). -/
def State.poisonDev (s : State) (t a n : Nat) : Bool :=
  decide (0 < n) && anyIn s.integrity.poisoned (poisonTen t a) (poisonTen t (a + n - 1))

/-- A read of a range by core `c` meets a poisoned word: in its memory, or behind its Rink's cache (R477). -/
def State.poisonIn (s : State) (c t : Nat) (clm : Bool) (a n : Nat) : Bool :=
  if clm then decide (0 < n) && anyIn s.integrity.poisoned (poisonCore c a) (poisonCore c (a + n - 1))
  else s.poisonDev t a n ||
    (decide (0 < n) && anyIn (s.rink (c / 4)).poison (tkey t a / 8) (tkey t (a + n - 1) / 8))

/-- What an evaluation on core `c` reads (R139, R292, R303). -/
def State.envOf (s : State) (c t : Nat) : Env :=
  { tenant := t, mem := fun a => s.rbyte (c / 4) t a, clm := fun a => s.cbyte c a, tagOf := s.tileTag t, loc := s.loc t }

end Sys2Proof.Machine
end

