-- ==== Sys2Proof/Machine/HostOps.lean ====
section
/-!
DEFINITION. Queues and completions (R416-R420, Tables 17.3 and 17.5), Rink sets and contexts (R153, R156, R157,
R315), and the end of a job (R198, R418, R485).
-/

namespace Sys2Proof.Machine

/-! ### Completion queues -/

def State.queue (s : State) (f q : Nat) : Queue := nth (s.func f).queues q Queue.reset
def State.modQueue (s : State) (f q : Nat) (g : Queue → Queue) : State :=
  s.modFunc f fun x => { x with queues := modNth x.queues q g }

/-- Entries in a completion queue (R419). -/
def Queue.cqCount (x : Queue) : Nat := (x.cqTail + 128 - x.cqHead) % 128

/-- The completion entry less its PHASE (Table 17.5). -/
def completionBytes (cid sqHead kind fflags cflags w0 w1 : Nat) : List Byte :=
  leBytes 2 cid ++ leBytes 2 sqHead ++ leBytes 1 kind ++ leBytes 1 fflags ++ leBytes 1 cflags ++ [0] ++
  leBytes 4 w0 ++ leBytes 4 w1

/-- One entry into the ring, which has room (R419). -/
def State.cqWrite (s : State) (f q : Nat) (e : List Byte) : State :=
  let x := s.queue f q
  let e' := e.set 6 (BitVec.ofNat 8 ((field e 6 1) / 2 * 2 + (if x.phase then 1 else 0)))
  let empty := x.cqCount == 0
  let t := (x.cqTail + 1) % 128
  let s := s.modQueue f q fun x =>
    { x with cq := x.cq.set x.cqTail e', cqTail := t, phase := if t = 0 then !x.phase else x.phase }
  if empty && x.armed then (s.modQueue f q fun x => { x with armed := false }).msix f (q + 1) else s

/-- A completion of the queue: into the ring, or waiting while that is full (R419). -/
def State.complete (s : State) (f q : Nat) (e : List Byte) : State :=
  let x := s.queue f q
  if x.waiting = [] ∧ x.cqCount < 127 then s.cqWrite f q e
  else s.modQueue f q fun x => { x with waiting := x.waiting ++ [e] }

/-- Waiting completions enter the ring as entries come free; at most 128. -/
def State.cqDrain (s : State) (f q : Nat) : Nat → State
  | 0 => s
  | n + 1 =>
    match (s.queue f q).waiting with
    | [] => s
    | e :: rest =>
      if (s.queue f q).cqCount < 127 then
        ((s.modQueue f q fun x => { x with waiting := rest }).cqWrite f q e).cqDrain f q n
      else s

/-- The queue of a function is enabled and takes entries. -/
def State.queueRuns (s : State) (f q : Nat) : Bool :=
  s.rd (O.Q_ENABLE q f) = 1 && (s.rd (O.Q_STATE q f) = 1 || s.rd (O.Q_STATE q f) = 2)

/-- The entry at the head of the ring, and its opcode (Table 17.3). -/
def Queue.head (x : Queue) : List Byte := nth x.sq x.sqHead []
def Queue.headOp (x : Queue) : Nat := field x.head 0 1

/-- The head entry leaves the ring. -/
def Queue.pop (x : Queue) : Queue := { x with sqHead := (x.sqHead + 1) % 64, stamps := x.stamps.drop 1 }

/-- The DONE (kind 0) or ERROR (kind 1) completion of an entry (R418, R424, 7110.05). -/
def State.endEntry (s : State) (f q cid kind fflags cflags w0 w1 : Nat) : State :=
  let s := s.complete f q (completionBytes cid (s.queue f q).sqHead kind fflags cflags w0 w1)
  (s.modQueue f q fun x => { x with errorBefore := kind == 1 }).inc (O.Q_COMPLETED q f)

/-- The tenant's slot is ADMITTED (R444). -/
def State.admitted (s : State) (t : Nat) : Bool := s.rd (O.SLOT_STATE t) = 2

/-- The next entry of the queue may start (R418-R420): no completion waits, and no job runs or the queue is paused. -/
def State.nextStarts (s : State) (f q : Nat) : Bool :=
  let x := s.queue f q
  s.queueRuns f q && x.waiting == [] && x.sqHead != x.sqTail && (s.admitted f || f == 0) &&
    (x.job.isNone || s.rd (O.Q_STATE q f) == 2)

/-- Entries with a reserved opcode end with BAD_MESSAGE as they come up (R418). -/
def State.takeReserved (s : State) (f q : Nat) : Nat → State
  | 0 => s
  | n + 1 =>
    let x := s.queue f q
    if s.nextStarts f q && s.rd (O.Q_STATE q f) == 1 && !decide (1 ≤ x.headOp ∧ x.headOp ≤ 9) then
      ((s.modQueue f q Queue.pop).endEntry f q (field x.head 2 2) 1 0 0 Abort.badMessage.code 0xFFFFFFFF).takeReserved f q n
    else s

/-- The queue's job ends with its DONE or ERROR completion (R418). -/
def State.finishJob (s : State) (f q kind fflags cflags w0 w1 : Nat) : State :=
  let cid := ((s.queue f q).job.map Job.cid).getD 0
  let s := s.modQueue f q fun x => { x with job := none }
  (s.endEntry f q cid kind fflags cflags w0 w1).takeReserved f q 64

/-- The job ends with an abort code (R418). -/
def State.failJob (s : State) (f q : Nat) (a : Abort) : State := s.finishJob f q 1 0 0 a.code 0xFFFFFFFF

/-! ### Rink sets and contexts -/

/-- A compute die serves (R483, R486). -/
def State.dieServes (s : State) (d : Nat) : Bool := s.rd (O.DIE_STATE d) < 2

/-- The Rink set of a tenant by its grants (R157, R315): Rinks granted, not HELD, on a die that serves. -/
def State.rinkSet (s : State) (t : Nat) : Nat :=
  (List.range 4).foldl (fun n r =>
    if s.rd (O.CORE_GRANT r t) % 16 ≠ 0 ∧ !s.held (0x10 + r) ∧ s.dieServes (r / 2) then n + 2 ^ r else n) 0

def State.rinkList (s : State) (t : Nat) : List Nat :=
  (List.range 4).filter fun r => (s.rd (O.TEN_RINKS t)).testBit r

/-- A Rink set that is not empty applies (R157): a change of it is counted. -/
def State.applySet (s : State) (t : Nat) (set : List Nat) : State :=
  if set = [] ∨ set = nth s.compute.applied t [] then s
  else { s with compute := { s.compute with applied := modNth s.compute.applied t fun _ => set } }.inc (O.TEN_RESPLITS t)

/-! ### The picture (R466) -/

/-- The first of conditions 1-3 of R466 that fails now, 0 if none. -/
def State.pictureCond (s : State) : Nat :=
  let rs := s.rd O.PICTURE_RINKS
  if s.rd O.POWER_STATE ≠ 4 ∨ s.pins.faultAsserted then 1
  else if !s.on O.PICTURE_ENABLE || s.on O.PICTURE_HOLD then 2
  else if rs = 0 ∨ (List.range 4).any (fun r => rs.testBit r &&
      !(s.ready (0x10 + r) && (s.rd (O.TEN_RINKS 0)).testBit r && s.rd (O.DIE_STATE (r / 2)) == 1)) then 3
  else 0

/-- PICTURE_OK falls on a condition (R466). PICTURE_STATE is then 0 while one of conditions 1-3 fails, else 1. -/
def State.pictureDrop (s : State) (cond : Nat) : State :=
  ((s.setEv O.PICTURE_STATE (if cond ≤ 3 then 0 else 1) 0x8003 0xFF 0).inc O.PICTURE_DROPS).wr O.PICTURE_LAST_CAUSE cond

/-- Conditions 1-3 of R466 judged now: one that fails is noted for the round, and PICTURE_OK falls if it is high; with
all of them met the picture qualifies (PICTURE_STATE 1, DEDUCED), and rises at a round boundary. -/
def State.checkPicture (s : State) : State :=
  let c := s.pictureCond
  let st := s.rd O.PICTURE_STATE
  if c = 0 then (if st = 2 then s else s.wr O.PICTURE_STATE 1)
  else
    let s := { s with integrity := { s.integrity with picFailed := setBit s.integrity.picFailed c } }
    if st = 2 then s.pictureDrop c else s.wr O.PICTURE_STATE 0

/-- A round of R472 begins: nothing is tested yet, FTI_MS takes effect, and the conditions of R466 are judged anew. -/
def State.roundStart (s : State) : State :=
  let c := s.pictureCond
  { s with
    integrity := { s.integrity with
      tested := 0, passed := 0, roundFti := s.rd O.FTI_MS, picFailed := if c = 0 then 0 else setBit 0 c } }

/-- TEN_RINKS follows (R157, 6050.02). -/
def State.refreshRinks (s : State) (t : Nat) : State :=
  let s := s.wr (O.TEN_RINKS t) (s.rinkSet t)
  if t = 0 then s.checkPicture else s
def State.refreshAllRinks (s : State) : State := (List.range 32).foldl State.refreshRinks s

/-- Forms or dissolves the tenant's context in a Rink by its grant (R153, R315): the lowest free of four slots. -/
def State.refreshContext (s : State) (t r : Nat) : State :=
  let cs := (s.rink r).ctx
  let granted := s.rd (O.CORE_GRANT r t) % 16 != 0
  let s :=
    if granted && !cs.contains (some t) then
      match cs.findIdx? (· == none) with
      | some i =>
        (s.modRink r fun x => { x with ctx := x.ctx.set i (some t) }).put (O.CTX_INSTRUCTIONS r i) (.n 0)
      | none => s
    else if !granted && cs.contains (some t) then
      s.modRink r fun x => { x with ctx := x.ctx.map fun c => if c = some t then none else c }
    else s
  s.refreshRinks t

/-- The context slot of a tenant in a Rink. -/
def State.ctxSlot (s : State) (r t : Nat) : Option Nat := (s.rink r).ctx.findIdx? (· == some t)

/-! ### Activities -/

def State.activity (s : State) (a : Nat) : Option Activity := kvGet a s.compute.acts
def State.setActivity (s : State) (a : Nat) (x : Option Activity) : State :=
  { s with compute := { s.compute with acts := match x with
      | some x => kvPut a x s.compute.acts
      | none => kvDel a s.compute.acts } }
def State.modActivity (s : State) (a : Nat) (g : Activity → Activity) : State :=
  match s.activity a with
  | some x => s.setActivity a (some (g x))
  | none => s

def RinkPos.reset : RinkPos :=
  { pc := 0, run := none, arrived := false, inGroup := false, stream := [], fetched := [], specBad := [] }

def Activity.pos (x : Activity) (r : Nat) : RinkPos := nth x.rinks r RinkPos.reset
def Activity.modPos (x : Activity) (r : Nat) (g : RinkPos → RinkPos) : Activity :=
  { x with rinks := modNth x.rinks r g }

/-- Tiles claimed by an activity, in all Rinks, as (core, tile). -/
def Activity.claims (x : Activity) : List (Nat × Nat) :=
  x.rinks.flatMap fun p => (p.run.map Running.claimed).getD []

/-- Tiles claimed by a core for its activity. -/
def State.claimsOf (s : State) (c : Nat) : List Nat :=
  match (s.core c).act.bind s.activity with
  | some x => ((x.pos (c / 4)).run.map Running.claimed).getD [] |>.filterMap fun p => if p.1 = c then some p.2 else none
  | none => []

/-- OPSTAT of Table 17.5, saturating. -/
def sat32 (n : Nat) : Nat := min n 0xFFFFFFFF

/-- Speculative tiles dropped (R309). -/
def State.dropSpec (s : State) (a : Nat) : State :=
  match s.activity a with
  | none => s
  | some x =>
    let n := x.rinks.foldl (fun n p => n + (p.stream.filter StreamErt.spec).length) 0
    (s.addTo (O.SPEC_DROPPED (actTenant a)) n).setActivity a
      (some { x with rinks := x.rinks.map fun p => { p with stream := p.stream.filter fun e => !e.spec } })

/-- The end of a RUN (R298, R306, R418): dirty lines written back, the window released, the completion written.
`kind` 0 DONE, 1 ERROR. -/
def State.endRun (s : State) (a kind cflags w0 w1 : Nat) : State :=
  match s.activity a with
  | none => s
  | some x =>
    let s := (s.dropSpec a).commitAll (actTenant a)
    let s := s.setActivity a none
    let s := if s.rd (O.Q_STATE x.q x.fn) = 2 then s.wr (O.Q_STATE x.q x.fn) 1 else s
    s.finishJob x.fn x.q kind x.fflags cflags w0 w1

/-- The job of an activity fails: claims stop, and it ends once no claimed tile is left (R198). -/
def State.settleRun (s : State) (a : Nat) : State :=
  match s.activity a with
  | some x => match x.failed with
    | some (code, idx) => if x.claims = [] then s.endRun a 1 0 code idx else s
    | none => s
  | none => s

def State.failRun (s : State) (a : Nat) (ab : Abort) (idx : Nat) : State :=
  (s.modActivity a fun x =>
    { x with failed := some (x.failed.getD (ab.code, idx)),
             rinks := x.rinks.map fun p => { p with run := p.run.map fun r => { r with todo := [] } } }).settleRun a

/-- The job ends at once, its tiles abandoned (R447, R474, R484). -/
def State.killRun (s : State) (a : Nat) (ab : Abort) : State :=
  match s.activity a with
  | some x => s.endRun a 1 0 ab.code ((x.rinks.headD RinkPos.reset).pc)
  | none => s

/-- The first of the memory units `us` that is HELD, counted from 0x18 (R53); a DRAM controller's channels are then lost
(R311). -/
def State.gone (s : State) (us : Nat) : Option Nat := (List.range 5).find? fun n => us.testBit n && s.held (0x18 + n)

/-- A tenant's channels behind DRAM controller `n`, and the record of memory unit 0x18 + `n` that is gone: DRAM_UNAVAILABLE
for a DRAM controller (R311, Table 19.11). -/
def State.channelsBehind (s : State) (t n : Nat) : List Nat := (s.channels t).filter fun c => c / 4 == n
def State.goneRecord (s : State) (t n : Nat) : State :=
  if n = 0 then s else s.err 0x0305 2 (0x18 + n) t ((s.channelsBehind t (n - 1)).foldl (fun v c => v + 2 ^ c) 0) 0

/-- A job reaches out to the memory units `us` at instruction `idx`: it ends with NOT_READY if one of them is gone (R53,
R311); the second part says so. -/
def State.reach (s : State) (a us idx : Nat) : State × Bool :=
  match s.gone us with
  | some n => ((s.goneRecord (actTenant a) n).failRun a .notReady idx, true)
  | none => (s.modActivity a fun x => { x with reached := Nat.lor x.reached us }, false)

/-- The job is abandoned without a completion (R430, R447). -/
def State.abandonRun (s : State) (a : Nat) : State :=
  match s.activity a with
  | some x => ((s.dropSpec a).setActivity a none).modQueue x.fn x.q fun q => { q with job := none }
  | none => s

/-- Whether a tenant has an instruction running (Table 12.8, Table 13.4): a RUN started and not ended, or one waiting
in a queue. -/
def State.tenantBusy (s : State) (t : Nat) : Bool :=
  (s.activity t).isSome || (s.activity (t + 32)).isSome

/-- Whether some stream context of a tenant is enabled. -/
def State.streamOn (s : State) (t : Nat) : Bool := (List.range 96).any fun k => s.rd (O.STR_ENABLE k t) = 1

/-- A camera input is enabled, in its owner's own copy of ENABLE (R365). -/
def State.camOn (s : State) (i : Nat) : Bool :=
  let t := s.rd (O.CAM_OWNER i)
  decide (t < 32) && s.rd (O.CAM_ENABLE i t) == 1

/-- A queue of the function holds entries or a job. -/
def State.queueBusy (s : State) (f q : Nat) : Bool :=
  let x := s.queue f q
  x.sqHead != x.sqTail || x.job.isSome

end Sys2Proof.Machine
end

