-- ==== Sys2Proof/Machine/Ring.lean ====
section
/-!
DEFINITION. What other units need of the history ring: the wake latch (R349, R350, R352), the records of a handover
(R356) and its end (R354).
-/

namespace Sys2Proof.Machine

def State.modRing (s : State) (g : Ring → Ring) : State :=
  { s with audio := { s.audio with ring := g s.audio.ring } }

def State.modStream (s : State) (k : Nat) (g : StreamCtx → StreamCtx) : State :=
  { s with host := { s.host with streams := modNth s.host.streams k g } }
def State.stream (s : State) (k : Nat) : StreamCtx := nth s.host.streams k StreamCtx.reset

/-- The owner of a stream context: the holder of its claim. -/
def State.streamOwner (s : State) (k : Nat) : Nat := s.rd (O.STREAM_CLAIM k)

/-- One millisecond in units of 2^-16 ns. -/
def unitsPerMs : Nat := 65536000000

/-- TIME96 after the last sample of a recorded block. -/
def RingBlock.finish (b : RingBlock) : Nat := b.time + 4 * unitsPerMs

/-- Recording stops (R346): the gap begins after the last sample recorded. -/
def State.ringStop (s : State) : State :=
  if s.audio.ring.gapStop.isSome then s
  else
    let t := (s.audio.ring.blocks.getLast?.map RingBlock.finish).getD s.timeNow
    s.modRing fun r => { r with gapStop := some t }

/-- RING_SPAN_MS and RING_OLDEST (R347). -/
def State.ringReport (s : State) : State :=
  let bs := s.audio.ring.blocks
  (s.put O.RING_SPAN_MS (.n (4 * bs.length))).put O.RING_OLDEST (.n ((bs.head?.map RingBlock.time).getD 0))

/-- The frame that a wake falls in: its place in the block being recorded. -/
def State.wakeFrame (s : State) : Nat :=
  let r := s.audio.ring
  match r.blocks.getLast? with
  | some b => r.nextFrame + min 63 ((s.timeNow - b.finish) * 16 / unitsPerMs)
  | none => r.nextFrame

/-- A wake latches, or is kept as a marker while a latch or handover is open (R349, R350, R352). -/
def State.latchWake (s : State) (src : Nat) (early : Bool) : State :=
  let w : WakeRec := { time := s.timeNow, source := src, early, frame := s.wakeFrame }
  if s.audio.ring.latch.isSome || s.audio.ring.handover.isSome then
    s.modRing fun r => { r with markers := r.markers ++ [w] }
  else ((s.modRing fun r => { r with latch := some w }).wr O.RING_STATE 2).inc O.WAKES_LATCHED

/-- A record with its header (Table 14.6). -/
def ringRecord (ty flags seq frame : Nat) (payload : List Byte) : List Byte :=
  leBytes 1 ty ++ leBytes 1 flags ++ leBytes 2 payload.length ++ leBytes 4 seq ++ leBytes 8 frame ++ payload

/-- A source block that waits in a stream context: its STIME64, its BLOCK_SEQ and its bytes (R423, R425). -/
def waitBlock (time seq : Nat) (data : List Byte) : List Byte := leBytes 8 (time % 2 ^ 64) ++ leBytes 4 seq ++ data

/-- The next block of a context's source arrives: it takes the next BLOCK_SEQ and waits (R425). -/
def State.sourceBlock (s : State) (k time : Nat) (data : List Byte) : State :=
  let t := s.streamOwner k
  let seq := s.rd (O.STR_BLOCK_SEQ k t)
  (s.modStream k fun x => { x with waiting := x.waiting ++ [waitBlock time seq data] }).put (O.STR_BLOCK_SEQ k t)
    (.n ((seq + 1) % 2 ^ 32))

/-- A record of the handover in progress joins its stream context. -/
def State.pushRecord (s : State) (ty flags frame time : Nat) (payload : List Byte) : State :=
  match s.audio.ring.handover with
  | none => s
  | some h =>
    (s.sourceBlock h.stream time (ringRecord ty flags h.seq frame payload)).modRing fun r =>
      { r with handover := some { h with seq := (h.seq + 1) % 2 ^ 32 } }

/-- The handover ends with a reason of Table 14.9 (R354). -/
def State.endHandover (s : State) (reason : Nat) : State :=
  match s.audio.ring.handover with
  | none => s
  | some h =>
    let s := s.pushRecord 6 0 h.next s.timeNow (leBytes 1 reason ++ [0, 0, 0])
    (s.modRing fun r => { r with handover := none, latch := none, markers := [] }).wr O.RING_STATE 1

end Sys2Proof.Machine
end

