-- ==== Sys2Proof/WellFormed.lean ====
section
/-!
DEFINITION. Well-formed commands: the operands that a command can carry on the hardware, where the type of an operand is
wider than that (unit codes, phases, the lengths of addresses and of measured vectors).
-/

namespace Sys2Proof

/-- The units that exist (Table 4.7). -/
def unitExists (u : Nat) : Bool := decide (u < 0x14) || decide (0x18 ≤ u ∧ u ≤ 0x1C) || decide (0x20 ≤ u ∧ u ≤ 0x35)

/-- A phase of a regulator: eight of each compute die's, four of the I/O die's (Table 3.4). -/
def phaseExists (reg phase : Nat) : Bool := decide (phase < (if reg = 2 then 4 else 8))

/-- The part of a rail's load that does not scale with frequency lies within the load (R89). -/
def RailLoad.ok (x : RailLoad) : Bool := decide (x.fixedMa ≤ x.totalMa)

/-- A clockIdentity of 8 bytes (R395). -/
def PtpMsg.ok (m : PtpMsg) : Bool := m.clockId.length == 8

/-- An I/O buffer belongs to a unit that exists (Table 19.3). -/
def EccPlace.ok : EccPlace → Bool
  | .ioBuffer u _ => unitExists u
  | _ => true

/-- 64 decimator outputs of each of 8 channels, in 24 bits (R339, R346). -/
def tapsOk (taps : List (List Int)) : Bool :=
  taps.length == 8 && taps.all fun xs => xs.length == 64 && xs.all fun v => decide (-8388608 ≤ v ∧ v ≤ 8388607)

/-- Whether a command is one that the hardware can be given. -/
def Instr.wf : Instr → Bool
  | .unitReady u _ _ | .readyTimeout u | .drainTimeout u | .katRun u _ _ _ _ => unitExists u
  | .phaseFailOpen r p x | .phaseSenseDisagreement r p x | .phaseOvercurrent r p x => phaseExists r p && x.ok
  | .burstEnd _ _ _ _ x | .housekeepingTick _ _ _ x => x.ok
  | .nypDatagramRx _ peer _ => peer.length == 18
  | .mbDoorbell _ request => decide (request.length ≤ 1040)
  | .spiUnknownCommand c => decide (c.val = 0 ∨ 3 < c.val)
  | .tileComplete _ _ _ use => use.stalls.length == 12
  | .sqTail _ _ entries _ => entries.length % 64 == 0
  | .linkL0 speed width => decide (1 ≤ speed.val) && [1, 2, 4, 8].contains width.val
  | .ringBlockBoundary taps => tapsOk taps
  | .sync _ m _ | .followUp _ m | .signaling m _ _ _ | .delayReq m | .delayResp m | .pdelayReq m | .pdelayResp m
  | .pdelayRespFollowUp m => m.ok
  | .announce _ m a => m.ok && a.gmId.length == 8
  | .arpRequest _ mac _ _ => mac.length == 6
  | .neighborSolicitation _ mac ip target => mac.length == 6 && ip.length == 16 && target.length == 16
  | .wakeFrame dest _ _ => dest.length == 6
  | .scrubStep (some p) _ _ _ => p.ok
  | _ => true

end Sys2Proof
end

