-- ==== Sys2Proof/Machine/Recovery.lean ====
section
/-!
DEFINITION. What a fault does: the picture's trust (R466), invalid output (R467), held units and their consequences
(Table 3.3, Table 4.4, R311), the Snowplough (R483-R486) and the device safe state (R488, R489).
-/

namespace Sys2Proof.Machine

/-- OUTPUT_INVALID of a tenant set (R467). Set while PICTURE_OK is high, tenant 0's makes it fall (condition 5 of R466,
DEDUCED). -/
def State.outputInvalid (s : State) (t : Nat) : State :=
  let s := { s with integrity := { s.integrity with
    causeRound := modNth s.integrity.causeRound t fun _ => s.rd O.KAT_ROUNDS } }
  let s := s.setEv (O.OUTPUT_INVALID t) 1 0x8005 0xFF 0
  if t = 0 ∧ s.rd O.PICTURE_STATE = 2 then s.pictureDrop (if s.pictureCond = 0 then 5 else s.pictureCond) else s

/-! ### Units that go down -/

/-- The unit of a stream endpoint (Table 17.6); none for rings in device memory. -/
def endpointUnit (e : Nat) : Option Nat :=
  match e / 4096 with
  | 1 => some 0x20
  | 3 => some 0x27
  | 4 | 5 => some 0x28
  | 6 => some 0x29
  | 7 => some 0x21
  | 8 => some 0x22
  | _ => none

/-- A stream context goes to STATE 3 (Table 17.11); a handover that it carries ends (R354). -/
def State.streamFault (s : State) (k cause : Nat) : State :=
  let t := s.streamOwner k
  if t < 32 ∧ s.rd (O.STR_ENABLE k t) = 1 ∧ s.rd (O.STR_STATE k t) ≠ 3 then
    let s := (s.wr (O.STR_FAULT_CAUSE k t) cause).wr (O.STR_STATE k t) 3
    if s.audio.ring.handover.map Handover.stream = some k then s.endHandover 3 else s
  else s

/-- The contexts whose endpoint unit cleared READY (Table 17.11, cause 5). -/
def State.streamsDown (s : State) (u : Nat) : State :=
  (List.range 96).foldl (fun s k =>
    let t := s.streamOwner k
    if t < 32 ∧ (endpointUnit (s.rd (O.STR_SOURCE k t)) = some u ∨ endpointUnit (s.stream k).active.sink = some u) then
      s.streamFault k 5
    else s) s

/-- The channels of DRAM controller `n` are lost (R311): their contents, and the jobs that have issued accesses to them,
with one record for each tenant of such a job. -/
def State.dramLost (s : State) (n : Nat) : State :=
  (List.range 32).foldl (fun s t =>
    let lost := s.channelsBehind t n
    if lost = [] then s
    else
      let runs := [t, t + 32].filter fun a => ((s.activity a).map fun x => x.reached.testBit (n + 1)) == some true
      let copies := (List.range 8).filter fun q => match (s.queue t q).job with
        | some j => j.waitsHost && (j.opcode == 2 || j.opcode == 3) && (s.behind t j.devAddr j.length).testBit (n + 1)
        | none => false
      let s := if runs = [] ∧ copies = [] then s else s.goneRecord t (n + 1)
      let s := runs.foldl (fun s a => s.killRun a .notReady) s
      let s := copies.foldl (fun s q => s.failJob t q .notReady) s
      s.tloseChannels t lost) s

/-- What follows when a unit stops serving. -/
def State.unitDown (s : State) (u : Nat) : State :=
  let s := s.streamsDown u
  if 0x19 ≤ u ∧ u ≤ 0x1C then s.dramLost (u - 0x19)
  else if 0x10 ≤ u ∧ u ≤ 0x13 then s.refreshAllRinks.checkPicture
  else s

/-- A unit clears READY and sets HELD (Table 3.3, Table 4.4). -/
def State.holdUnit (s : State) (u code : Nat) : State := (s.hold u code).unitDown u
/-- A unit is held until the next release of POR_N (Table 3.3, Table 4.4, R471, R474, R486). -/
def State.holdForGood (s : State) (u code : Nat) : State :=
  ({ s with integrity := { s.integrity with lost := setBit s.integrity.lost u } }).holdUnit u code
def State.holdUnits (s : State) (us : List Nat) (code : Nat) : State := us.foldl (fun s u => s.holdForGood u code) s

/-! ### Compute dies -/

/-- The cores and Rinks of a die. -/
def dieUnits (d : Nat) : List Nat := (List.range 8).map (· + 8 * d) ++ [0x10 + 2 * d, 0x11 + 2 * d]

/-- Tenants with a context in a Rink of the die. -/
def State.dieTenants (s : State) (d : Nat) : List Nat :=
  (List.range 32).filter fun t => ((s.rink (2 * d)).ctx ++ (s.rink (2 * d + 1)).ctx).contains (some t)

/-- Step K1 (R484): the jobs of the die's contexts end with NOT_READY, their tenants' output is invalid. -/
def State.dieStop (s : State) (d : Nat) : State :=
  let s := (s.compute.acts.map Prod.fst).foldl (fun s a =>
    match s.activity a with
    | some x => if x.set.contains (2 * d) || x.set.contains (2 * d + 1) then s.killRun a .notReady else s
    | none => s) s
  (s.dieTenants d).foldl State.outputInvalid s

/-- What a die restart loses (R485): core-local memory, dirty lines, accumulators and sequencer state. -/
def State.dieLose (s : State) (d : Nat) : State :=
  let s := (List.range 8).foldl (fun s i => (s.cclear (8 * d + i) 0 (2 ^ 21)).modCore (8 * d + i) fun _ => CoreSt.reset) s
  (List.range 2).foldl (fun s i => s.modRink (2 * d + i) fun x => { x with dirty := [], lines := [], poison := [] }) s

/-- A die is held until the next release of POR_N (R483, R486). -/
def State.holdDie (s : State) (d cause unit : Nat) : State :=
  if s.rd (O.DIE_STATE d) = 4 then s
  else
    let s := s.err 0x020A 3 unit 0xFF d cause
    let s := (s.wr (O.DIE_LAST_CAUSE d) cause).dieStop d
    let s := s.setEv (O.DIE_STATE d) 4 0x020A unit 0
    let s := { s with integrity := { s.integrity with lost := (dieUnits d).foldl setBit s.integrity.lost } }
    (((dieUnits d).foldl (fun s u => s.hold u 0x020A) s).dieLose d).refreshAllRinks.checkPicture

/-- A restart cause of Table 19.7 for a die (R483-R486); `unit` detects it. -/
def State.snowplough (s : State) (d cause unit : Nat) : State :=
  if 2 ≤ s.rd (O.DIE_STATE d) then s
  else
    let recent := (nth s.integrity.causes d []).filter fun c => decide (s.clock < c + 10000000000)
    if cause ≠ 6 ∧ 2 ≤ recent.length then s.holdDie d 9 unit
    else
      let s := if cause = 6 then s
        else { s with integrity := { s.integrity with causes := modNth s.integrity.causes d fun _ => s.clock :: recent } }
      let s := s.wr (O.DIE_LAST_CAUSE d) cause
      let s := s.setEv (O.DIE_STATE d) 2 0x8001 unit 0
      let s := s.dieStop d
      let s := (dieUnits d).foldl (fun s u => s.setReady u false 0) s
      let s := s.err 0x0209 2 unit 0xFF d cause
      s.refreshAllRinks.checkPicture

/-! ### Heartbeats and the device safe state -/

/-- The heartbeat record (Table 1.11). -/
def State.heartbeat (s : State) (sleeping : Bool) : List Byte :=
  leBytes 4 (s.rd O.POWERUP_NONCE) ++ leBytes 4 (s.rd O.CONFIG_GENERATION) ++ leBytes 1 (s.rd O.POWER_STATE) ++
  leBytes 1 ((if s.rd O.PICTURE_STATE = 2 then 1 else 0) + (if s.pins.faultAsserted then 2 else 0) +
    (if sleeping then 4 else 0) + (if s.rd O.CONFIG_STATE = 2 then 8 else 0)) ++
  leBytes 2 (s.rd O.HEARTBEAT_PERIOD) ++ leBytes 1 (s.rd O.HEARTBEAT_MISS_LIMIT) ++ [0, 0, 0] ++ leBytes 8 (s.rd O.READY)

/-- A device-sent HEARTBEAT on a session (R36, R46), if it is OPEN and has a port. -/
def State.sendHeartbeat (s : State) (n : Nat) (sleeping : Bool) : State :=
  match s.sessionPort n with
  | some p =>
    if s.rd (O.SESSION_STATE n) = 2 then
      let body := s.heartbeat sleeping
      let msg := nypHeader 9 0 (s.rd (O.SESSION_TENANT n)) (n + 1) (s.ep (32 + n)).seq 0 0 1 body.length 0 ++ body
      (s.sendUdp n p msg).modEp (32 + n) fun x => { x with seq := (x.seq + 1) % 65536 }
    else s
  | none => s

def State.sendHeartbeats (s : State) (sleeping : Bool) : State :=
  (List.range 16).foldl (fun s n => s.sendHeartbeat n sleeping) s

/-- The units that exist (Table 4.7). -/
def allUnits : List Nat := (List.range 54).filter unitExists

/-- The device enters its safe state (R488, R489). Causes 1 and 2 take the I/O-die rail, so no heartbeat is sent. -/
def State.safeState (s : State) (cause unit : Nat) : State :=
  if s.on O.DEVICE_SAFE then s
  else
    let s := { s with pins := { s.pins with faultAsserted := true, alive := false } }
    let s := s.err 0x0701 4 unit 0xFF cause 0
    let s := (s.wr O.SAFE_CAUSE cause).setEv O.DEVICE_SAFE 1 0x0701 unit 0
    let s := s.checkPicture
    let s := if cause = 1 ∨ cause = 2 then s else s.sendHeartbeats false
    let s := (allUnits.filter (· != 0x34)).foldl (fun s u => s.hold u 0x0701) s
    let s := (s.put O.TRANSITION_STEP (.n 0)).put O.TRANSITION_ORIGIN (.n 0)
    { s with
      pins := { s.pins with wakeDriven := false, clkreqAsserted := false, tioLevel := [false, false, false, false] },
      compute := { s.compute with acts := [] },
      power := { s.power with trans := none, bringup := false, prewake := false } }

end Sys2Proof.Machine
end

