-- ==== Sys2Proof/Machine/Limits.lean ====
section
/-!
DEFINITION. Power domains and what each state keeps On (R111-R114), the frequency and voltage of the compute dies with
the ceilings on them (R89, R93, R99, R129, R135-R138), and the request sources and the pending target (R116, R117).
-/

namespace Sys2Proof.Machine

/-! ### Power domains -/

/-- A domain is On (2204). -/
def State.domOn (s : State) (d : Nat) : Bool := s.rd (O.DOMAIN_POWER d) == 2

/-- The array of core `c`, and the control domain of Rink `r`, are On (Table 5.2). -/
def State.coreOn (s : State) (c : Nat) : Bool := s.domOn (11 * (c / 4) + c % 4)
def State.rinkOn (s : State) (r : Nat) : Bool := s.domOn (11 * r + 10)

/-- The Mid core's number (R129). -/
def State.midCoreNo (s : State) : Nat := 4 * s.rd O.MID_RINK + s.rd O.MID_CORE

/-- Domain `d` is On in state `st` (Table 5.2). -/
def State.onIn (s : State) (st d : Nat) : Bool :=
  let mr := s.rd O.MID_RINK
  if d = 76 then true
  else if 77 ≤ d then 2 ≤ st
  else if st = 4 then true
  else if st < 3 then false
  else if d < 44 then
    d / 11 == mr && (d % 11 == s.rd O.MID_CORE || d % 11 == 4 + s.rd O.MID_CORE || d % 11 == 8 || d % 11 == 10)
  else if d < 52 then d == 44
  else if d < 56 then false
  else if d = 59 then s.rd O.MID_CAMERA != 0
  else if d = 60 || d = 67 || d = 75 then false
  else if d = 64 || d = 65 then s.rd O.MID_CAMERA == d - 63
  else if d = 71 || d = 72 then mr / 2 == d - 71
  else true

/-- The domains a unit lies in (Table 5.2). DEDUCED where the table names no unit. -/
def unitDomains (u : Nat) : List Nat :=
  if u < 0x10 then [11 * (u / 4) + u % 4]
  else if u < 0x14 then [11 * (u - 0x10) + 10]
  else if u = 0x18 then [44]
  else if u < 0x20 then [52 + (u - 0x19)]
  else match u with
    | 0x20 => [56]
    | 0x21 => [57]
    | 0x22 => [58]
    | 0x23 => [64]
    | 0x24 => [65]
    | 0x25 => [59]
    | 0x26 => [60]
    | 0x27 => [79]
    | 0x28 => [61]
    | 0x29 => [78]
    | 0x2A => [77]
    | 0x2B => [63]
    | 0x2C => [62]
    | 0x2D => [69]
    | 0x2E | 0x2F => [70]
    | 0x35 => [64, 65]
    | _ => [76]

/-- A unit has a domain On, and state `st` gives it one. -/
def State.unitPowered (s : State) (u : Nat) : Bool := (unitDomains u).any s.domOn
def State.unitIn (s : State) (st u : Nat) : Bool := (unitDomains u).any (s.onIn st)

/-- Every domain takes its condition in state `st`; the domains for which `keep` holds stay as they are. -/
def State.putDomains (s : State) (st : Nat) : State :=
  (List.range 80).foldl (fun s d => s.put (O.DOMAIN_POWER d) (.n (if s.onIn st d then 2 else 1))) s

/-- PLLs that run in a state (R98, R101); those of a Rink, a controller, PCIe and NET0 run with their domain. -/
def State.pllsIn (s : State) (st : Nat) : Nat :=
  if st < 3 then 0
  else (List.range 14).foldl (fun v p =>
    let on : Bool :=
      if p < 4 then true
      else if p < 8 then s.onIn st (52 + (p - 4))
      else if p = 8 then s.onIn st 56
      else if p = 9 then s.onIn st 57
      else s.onIn st (11 * (p - 10) + 10)
    if on then v + 2 ^ p else v) 0

/-! ### Converting channels and bias generators (R336, R337) -/

/-- A microphone channel converts now (Table 14.3). -/
def State.converting (s : State) (ch : Nat) : Bool :=
  let m := s.rd (O.CH_MODE ch)
  s.ready 0x27 && (if ch < 4 then (m == 1 && s.domOn 66) || (m == 2 && s.domOn 79) else m == 1 && s.domOn 67)

/-- The bias generators that are on (R336); the fault bits stand. -/
def State.refreshBias (s : State) : State :=
  let on := fun (b : Nat) => (List.range 8).any fun ch => s.converting ch && s.rd (O.CH_BIAS ch) == b + 1
  s.wr O.MICBIAS_STATE (bits (s.rd O.MICBIAS_STATE) 3 2 * 4 + (if on 0 then 1 else 0) + (if on 1 then 2 else 0))

/-! ### Frequency and voltage -/

def State.lim (s : State) (d : Nat) : DieLimits :=
  nth s.dies d { regCeiling := 1200, powerCeiling := 1200, thermal := [1200, 1200], demand := [200, 200],
                 waitCool := false, setpointMv := 600 }
def State.modLim (s : State) (d : Nat) (g : DieLimits → DieLimits) : State := { s with dies := modNth s.dies d g }

/-- The frequency that demand and the envelope choose for a Rink, without any limit (R129, R135). -/
def State.wanted (s : State) (r : Nat) : Nat :=
  let lo := s.rd (O.FREQ_MIN_MHZ r)
  let hi := s.rd (O.FREQ_MAX_MHZ r)
  if s.rd O.POWER_STATE = 3 ∧ s.rd O.MID_RINK = r then max lo (min hi (s.rd O.MID_FREQ_MHZ))
  else max lo (min hi (nth (s.lim (r / 2)).demand (r % 2) 200 / 25 * 25))

/-- The lowest limit on a Rink and its protective cause (Table 5.11): thermal 1, regulator 2, power 3. -/
def State.ceiling (s : State) (r : Nat) : Nat × Nat :=
  let x := s.lim (r / 2)
  [(nth x.thermal (r % 2) 1200, 1), (x.regCeiling, 2), (x.powerCeiling, 3)].foldl (fun b c =>
    if c.1 < b.1 then c else b) (1200, 0)

/-- `f` lowered in 25 MHz steps, at most `n`, until the voltage it needs is at most `mv` (R135). -/
def capByVolt (d mv : Nat) : Nat → Nat → Nat
  | 0, f => f
  | n + 1, f => if f ≤ 200 ∨ Config.criticalMv d f ≤ mv then f else capByVolt d mv n (f - 25)

/-- The frequency the loop chooses for a Rink under its limits; 0 while the Rink is off, held or stopped (R138). -/
def State.chosen (s : State) (r : Nat) : Nat :=
  if !s.rinkOn r || (s.lim (r / 2)).waitCool || s.held (0x10 + r) then 0
  else capByVolt (r / 2) (s.rd (O.VCORE_MAX_MV (r / 2))) 48 (min (s.wanted r) (s.ceiling r).1)

/-- The frequency a Rink takes now; 0 while its PLL does not run. -/
def State.freqNow (s : State) (r : Nat) : Nat := if (s.rd O.PLL_LOCKED).testBit (10 + r) then s.chosen r else 0

/-- BREACH_CAUSE of a loop (R137): a new cause raises ENVELOPE_BREACH, the return inside an event without the flag. -/
def State.setBreach (s : State) (k c unit : Nat) : State := s.setEv k c 0 unit (if c = 0 then 0 else 32)

/-- The voltage and frequency loop's state of a die takes its place (R135-R138). -/
def State.applyDie (s : State) (d : Nat) : State :=
  let s := [2 * d, 2 * d + 1].foldl (fun s r =>
    let s := s.put (O.RINK_FREQ r) (.n (s.freqNow r))
    let f := s.chosen r
    let c := if (s.lim d).waitCool then 4 else if f ≠ 0 ∧ f < s.rd (O.FREQ_MIN_MHZ r) then (s.ceiling r).2 else 0
    s.setBreach (O.BREACH_CAUSE r) c (0x10 + r)) s
  let f := max (s.rd (O.RINK_FREQ (2 * d))) (s.rd (O.RINK_FREQ (2 * d + 1)))
  if f = 0 then s
  else
    let lo := s.rd (O.VCORE_MIN_MV d)
    let hi := s.rd (O.VCORE_MAX_MV d)
    let below := decide (f < min (s.rd (O.FREQ_MIN_MHZ (2 * d))) (s.rd (O.FREQ_MIN_MHZ (2 * d + 1))))
    let v := if below then lo else max lo (min hi (ceilDiv (Config.criticalMv d f) 5 * 5))
    s.modLim d fun x => { x with setpointMv := v }

/-- REG_FREQ_CEILING reports the lower ceiling (R93). -/
def State.showCeiling (s : State) (d : Nat) : State :=
  s.put (O.REG_FREQ_CEILING d) (.n (min (s.lim d).regCeiling (s.lim d).powerCeiling))

/-! ### The pending target -/

/-- The unit code charged for a request source (Table 5.3); `u` is that of the endpoint for a host write. -/
def State.sourceUnit (s : State) (src u : Nat) : Nat :=
  match src with
  | 0 => 0x27
  | 1 => 0x29
  | 2 | 12 => 0x20
  | 3 => 0x34
  | 4 => 0x22
  | 5 | 6 => 0x2B
  | 8 | 9 | 15 => 0x2A
  | 10 | 11 => s.midCoreNo
  | 13 => u
  | _ => 0xFF

/-- The pending target changes (R117): the cause is kept for a transition it starts or abandons, and the event carries
the cause's unit and `flags`. -/
def State.setTarget (s : State) (v src unit flags : Nat) : State :=
  if s.rd O.TARGET_STATE = v then s
  else
    let s := { s with power := { s.power with
      source := src, unit := unit, early := flags.testBit 2, targetTentative := flags.testBit 0,
      cascade := src == 10 || (s.power.cascade && v == 4) } }
    let s := s.put O.TARGET_STATE (.n v)
    s.event O.TARGET_STATE 0 unit flags

/-- A request is recorded (R116): counted, named as the last one, with its event; `u` as in `sourceUnit`. -/
def State.record (s : State) (src flags : Nat) (u : Nat := 0x20) : State :=
  let s := (s.inc (O.REQUEST_COUNT src)).put O.LAST_REQUEST_TIME (.n s.timeNow)
  let s := s.put O.LAST_REQUEST_SOURCE (.n src)
  s.event O.LAST_REQUEST_SOURCE 0 (s.sourceUnit src u) flags

/-- A request source acts (R116, R117): it raises the target to `tgt` if that is higher. -/
def State.raise (s : State) (src tgt flags : Nat) : State :=
  let s := s.record src (flags &&& 4)
  if s.rd O.TARGET_STATE < tgt then s.setTarget tgt src (s.sourceUnit src 0x20) flags else s

/-- A source of 0-7 acts with its WAKE_TARGET. -/
def State.wakeSource (s : State) (src : Nat) : State := s.raise src (s.rd (O.WAKE_TARGET src)) 0

end Sys2Proof.Machine
end

