-- ==== Sys2Proof/Machine/Clock.lean ====
section
/-!
DEFINITION. One cycle of TIME_CLK: what time alone does to the block (R387, R389, R392), the sleep of the time base, and
the entry into HOLDOVER (R391).
-/

namespace Sys2Proof.Machine

def State.modTime (s : State) (g : TimeBase → TimeBase) : State := { s with time := g s.time }

/-- What a slew adds in one cycle, in 10^-12 of 2^-16 ns (R389): at most SLEW_MAX_PPB of the 4 ns. -/
def slewStep (left : Int) (maxPpb : Nat) : Int :=
  let m : Int := 262144000 * (maxPpb : Int)
  clampI (-m) m left

/-- One cycle of the running base: 4 ns × (1 + ρ), and the slew's part; the rest below 2^-16 ns is carried. -/
def TimeBase.count (x : TimeBase) (maxPpb : Nat) : TimeBase :=
  let d := slewStep x.slew maxPpb
  let total : Int := 262144 * (1000000000000 + x.rho) + d + x.frac
  { x with now := ((x.now : Int) + total / 1000000000000).toNat, frac := total % 1000000000000, slew := x.slew - d }

/-- Time while the base sleeps: the latched value plus the slow edges since (R392). -/
def sleepTime (latched start clock period : Nat) : Nat :=
  if period = 0 then latched else latched + (clock - start) * 65536 / period * period

/-- One cycle: 4 ns of device time. The base runs while its domain is On, and on an exit from step U2 (R392). -/
def State.tick (s : State) : State :=
  let s := { s with clock := s.clock + 4 }
  match s.time.asleep with
  | some (t, c) => s.modTime fun x => { x with now := sleepTime t c s.clock (s.rd O.SLOW_PERIOD) }
  | none => if s.everReady.testBit 0x2B && (s.domOn 63 || s.power.trans.isSome) then s.modTime fun x => x.count (s.rd O.SLEW_MAX_PPB) else s

/-- A magnitude in 2^-16 ns as whole nanoseconds, rounded up. -/
def nsUp (i : Int) : Nat := ceilDiv i.natAbs 65536

/-- TIME_QUALITY becomes HOLDOVER where LOCKING or LOCKED is interrupted (R391). -/
def State.holdover (s : State) : State :=
  let q := s.rd O.TIME_QUALITY
  if q = 1 ∨ q = 2 then
    let o := nsUp (s.rdI 64 O.OFFSET)
    let s := s.modTime fun x => { x with holdOffsetNs := o, sleepTermsNs := 0, slept := 0, good := 0, bad := 0 }
    ((s.put O.HOLDOVER_SINCE (.n s.timeNow)).put O.ERROR_BOUND_NS (.n o)).wr O.TIME_QUALITY 3
  else s

/-- Step E6: the base is latched and sleeps (R392). -/
def State.timeSleep (s : State) : State :=
  let s := s.holdover
  s.modTime fun x => { x with asleep := some (x.now, s.clock) }

/-- The base restarts at a slow edge once PLL_SYS has locked (R392): the sleep's duration, to the nearest nanosecond, and
its term in the error bound. -/
def State.timeWake (s : State) : State :=
  match s.time.asleep with
  | none => s
  | some (t, c) =>
    let now := sleepTime t c s.clock (s.rd O.SLOW_PERIOD)
    let dur := (divRhe ((now - t : Nat) : Int) 65536).toNat
    let tol := if s.rd O.XTAL32K_STATE = 1 then s.rd O.SLEEP_TOLERANCE_PPB else 1000000
    let term := ceilDiv (tol * dur) 1000000000 + 2
    let s := s.put O.LAST_SLEEP_NS (.n dur)
    let s := if s.rd O.TIME_QUALITY = 3 then s.put O.ERROR_BOUND_NS (.n ((s.rd O.ERROR_BOUND_NS + term) % 2 ^ 64)) else s
    s.modTime fun x =>
      { x with now := now, frac := 0, asleep := none, slept := x.slept + (now - t), sleepTermsNs := x.sleepTermsNs + term }

end Sys2Proof.Machine
end

