-- ==== Sys2Proof/Machine/Triggers.lean ====
section
/-!
DEFINITION. Trigger comparators (R388, R407-R409, R411) and pulse trains (R405).
-/

namespace Sys2Proof.Machine

/-- The signed distance of an STIME64 target from now (R388). -/
def State.ahead (s : State) (t : Nat) : Int := sx 64 (t + 2 ^ 64 - s.timeNow % 2 ^ 64)

/-- The TIME domain is On and its base runs. -/
def State.timeRuns (s : State) : Bool := s.domOn 63 && s.time.asleep.isNone && s.everReady.testBit 0x2B

/-- The owner of TIME_IO `n` and of trigger `n`. -/
def State.tioOwner (s : State) (n : Nat) : Nat := s.rd (O.TIME_IO_CLAIM n)
def State.trigOwner (s : State) (n : Nat) : Nat := s.rd (O.TRIG_CLAIM n)

def State.setLevel (s : State) (n : Nat) (b : Bool) : State :=
  ({ s with pins := { s.pins with tioLevel := s.pins.tioLevel.set n b } }).emitOut (.tio n (if b then 1 else 0))

def State.train (s : State) (n : Nat) : Option Train := nth s.net.trains n none
def State.setTrain (s : State) (n : Nat) (t : Option Train) : State :=
  { s with net := { s.net with trains := s.net.trains.set n t } }

/-! ### Pulse trains -/

/-- Half a TIME_CLK cycle in 2^-16 ns: an edge falls on the nearest cycle, a tie on the earlier one (R405). -/
def halfCycle : Int := 131072

/-- The train ends with its last pulse (R405). -/
def State.trainNext (s : State) (n : Nat) (tr : Train) : State :=
  if (tr.period = 0 ∧ 1 ≤ tr.k) ∨ (tr.count ≠ 0 ∧ tr.count ≤ tr.k) then
    (s.setTrain n none).put (O.TIO_STATE n (s.tioOwner n)) (.n 3)
  else s.setTrain n (some tr)

/-- A pulse that is under way ends. -/
def State.pulseEnd (s : State) (n : Nat) (tr : Train) : State :=
  (s.setLevel n tr.idleHigh).trainNext n { tr with k := tr.k + 1, inPulse := false }

/-- Pulses whose start has passed are skipped and counted (R405). -/
def State.skipPulses (s : State) (n : Nat) : State :=
  match s.train n with
  | none => s
  | some tr =>
    if tr.waiting || tr.inPulse then s
    else
      let d := s.ahead ((tr.start + tr.k * tr.period) % 2 ^ 64)
      if -halfCycle < d then s
      else
        let m := if tr.period = 0 then 1 else ((-d - halfCycle).toNat / tr.period) + 1
        let m := if tr.count = 0 then m else min m (tr.count - tr.k)
        (s.addTo (O.PULSES_MISSED n (s.tioOwner n)) m).trainNext n { tr with k := tr.k + m }

/-- A step or a sleep has passed over a train: the pulse under way ends if its end has passed, and passed pulses are
skipped (R393, R405). -/
def State.catchUp (s : State) (n : Nat) : State :=
  let s := match s.train n with
    | some tr =>
      if tr.inPulse ∧ s.ahead ((tr.start + tr.k * tr.period + tr.width) % 2 ^ 64) ≤ -halfCycle then s.pulseEnd n tr else s
    | none => s
  s.skipPulses n

/-- An edge of the train falls due (R405). -/
def State.pulseDue (s : State) (n : Nat) : State :=
  let s := s.skipPulses n
  match s.train n with
  | none => s
  | some tr =>
    let at' := (tr.start + tr.k * tr.period + if tr.inPulse then tr.width else 0) % 2 ^ 64
    if tr.waiting ∨ halfCycle < s.ahead at' then s
    else if tr.inPulse then s.pulseEnd n tr
    else
      ((s.setLevel n (!tr.idleHigh)).setTrain n (some { tr with inPulse := true })).inc
        (O.PULSES_EMITTED n (s.tioOwner n))

/-- PULSE_EDGE (R405). -/
def execPulseEdge (n : Fin 4) (s : State) : Res := whenOk s.timeRuns s fun s => s.pulseDue n

/-- The train of a TIME_IO starts, with the fields of the owner's instance (R405, R407). -/
def State.startTrain (s : State) (n start : Nat) (waiting : Bool) : State :=
  let t := s.tioOwner n
  let idle := s.rd (O.PULSE_POLARITY n t) == 1
  let tr : Train := { start, period := s.rd (O.PULSE_PERIOD n t), width := s.rd (O.PULSE_WIDTH n t),
                      count := s.rd (O.PULSE_COUNT n t), idleHigh := idle, k := 0, inPulse := false, waiting }
  ((s.setTrain n (some tr)).setLevel n idle).put (O.TIO_STATE n t) (.n (if waiting then 1 else 2))

/-! ### Triggers -/

/-- Trigger `n` is armed, by this tenant. -/
def State.armed (s : State) (n : Nat) : Option Nat :=
  let t := s.trigOwner n
  if t < 32 ∧ s.rd (O.TRIG_STATE n t) = 1 then some t else none

/-- ALIGN_AUDIO (R411): skipped while a channel converts or a CONTROLLER port has an enabled slot. -/
def State.alignAudio (s : State) (n t tgt : Nat) : State :=
  let slots := fun (p : Nat) => s.rd (O.TDM_ROLE p) == 2 && (List.range 32).any fun u =>
    s.rd (O.TDM_RX_SLOTS p u) != 0 || s.rd (O.TDM_TX_SLOTS p u) != 0
  if (List.range 8).any s.converting || slots 0 || slots 1 then s.inc (O.ALIGN_SKIPS n t)
  else { s with audio := { s.audio with alignedAt := ((s.timeNow : Int) + s.ahead tgt).toNat } }

/-- The actions of one firing (Table 16.7). -/
def State.fireActions (s : State) (n t tgt : Nat) (late : Bool) : State :=
  let a := s.rd (O.TRIG_ACTIONS n t)
  let s := s.put (O.TRIG_LAST n t) (.n s.timeNow)
  let s := if late then s.inc (O.TRIG_LATE n t) else s
  let s := if a.testBit 1 then s.wakeSource 6 else s
  let io := s.rd (O.TRIG_IO n t)
  let s := if a.testBit 2 && s.tioOwner io == t && s.rd (O.TIO_MODE io t) == 2 then s.startTrain io tgt false else s
  if a.testBit 3 then s.alignAudio n t tgt else s

/-- A periodic trigger's EVENT action (Table 16.7). -/
def State.fireEvent (s : State) (n t : Nat) (late : Bool) : State :=
  if (s.rd (O.TRIG_ACTIONS n t)).testBit 0 then s.event (O.TRIG_STATE n t) 0 0x2B (if late then 8 else 0) else s

/-- A trigger fires (R408): a one-shot is disarmed, a periodic one takes its next target. -/
def State.fireTrigger (s : State) (n : Nat) (late : Bool) : State :=
  match s.armed n with
  | none => s
  | some t =>
    let tgt := s.rd (O.TRIG_TARGET n t)
    let p := s.rd (O.TRIG_PERIOD n t)
    let s := s.fireActions n t tgt late
    if p = 0 then
      (s.setEv (O.TRIG_STATE n t) 2 0 0x2B (if late then 8 else 0)).put (O.TRIG_ACTIONS n t) (.n 0)
    else
      let s := s.fireEvent n t late
      let k := (-(s.ahead tgt)).toNat / p + 1
      if k = 1 then s.put (O.TRIG_TARGET n t) (.n ((tgt + p) % 2 ^ 64))
      else
        let s := (s.fireActions n t ((tgt + p) % 2 ^ 64) true).fireEvent n t true
        (s.addTo (O.TRIG_MISSED n t) (k - 2)).put (O.TRIG_TARGET n t) (.n ((tgt + k * p) % 2 ^ 64))

/-- Armed triggers that are due, in ascending number, with their distance. -/
def State.dueTriggers (s : State) : List (Nat × Int) :=
  (List.range 8).filterMap fun n => match s.armed n with
    | some t => let d := s.ahead (s.rd (O.TRIG_TARGET n t)); if d ≤ 0 then some (n, d) else none
    | none => none

/-- Sorted by target, ties in ascending number. -/
def byTarget (xs : List (Nat × Int)) : List (Nat × Int) :=
  xs.foldr (fun x ys => (ys.takeWhile fun y => decide (y.2 < x.2)) ++ x :: (ys.dropWhile fun y => decide (y.2 < x.2))) []

/-- Every trigger passed over by a step or a sleep fires, in target order, with LATE (R393, R409). -/
def State.fireLate (s : State) : State := (byTarget s.dueTriggers).foldl (fun s x => s.fireTrigger x.1 true) s

/-- The TIME domain leaves On: every train's ball takes its idle level (R405). -/
def State.idleTrains (s : State) : State :=
  (List.range 4).foldl (fun s n => match s.train n with
    | some tr => if tr.inPulse then s.pulseEnd n tr else s
    | none => s) s

/-- The TIME domain is On again (R405, R409). -/
def State.timeOn (s : State) : State := (List.range 4).foldl State.catchUp s.fireLate

/-- The domain has come On in a transition that has not arrived: what fell due asleep fires on arrival. -/
def State.timeComing (s : State) : Bool :=
  match s.power.trans with
  | some t => !s.onIn t.origin 63
  | none => false

/-- TRIGGER_FIRE (R408): the triggers due in this cycle, in ascending number. -/
def execTriggerFire (s : State) : Res :=
  whenOk (s.timeRuns && !s.timeComing) s fun s => s.dueTriggers.foldl (fun s x => s.fireTrigger x.1 false) s

/-- TRIGGER_SLEEP_WAKE (R409): while the TIME domain is not On, the earliest WAKE target raises source 6. -/
def execTriggerSleepWake (s : State) : Res :=
  whenOk (!s.domOn 63 && s.dueTriggers.any fun x => (s.rd (O.TRIG_ACTIONS x.1 (s.trigOwner x.1))).testBit 1) s fun s =>
    s.wakeSource 6

/-! ### Steps of the time (R393) -/

/-- TIME96 steps to `now`. -/
def State.stepTime (s : State) (now : Nat) : State :=
  let forward := decide (s.timeNow < now)
  let s := s.modTime fun x => { x with now, frac := 0, asleep := x.asleep.map fun _ => (now, s.clock) }
  let s := s.inc O.STEPS
  if s.timeRuns && forward then (List.range 4).foldl State.catchUp s.fireLate else s

/-- A trigger that is armed or given a target fires at once with LATE if that is due (R408). -/
def State.armNow (s : State) (n : Nat) : State :=
  match s.armed n with
  | some t => if s.timeRuns ∧ s.ahead (s.rd (O.TRIG_TARGET n t)) ≤ 0 then s.fireTrigger n true else s
  | none => s

/-! ### Writes of TIME_IO and triggers -/

/-- The aborts of a write to TIO_MODE by tenant `w` (R403, R405). DEDUCED: a single pulse, PULSE_PERIOD 0, sets no
condition on PULSE_WIDTH, as the example after R411 needs under R30. -/
def State.tioAborts (s : State) (n t w v : Nat) : List Abort :=
  (if v ≠ 0 ∧ (s.tioOwner n ≠ w ∨ w ≠ t) then [.notOwned] else []) ++
  (if v = 2 ∧ s.rd (O.PULSE_PERIOD n t) ≠ 0 ∧ (s.rd (O.PULSE_WIDTH n t) = 0 ∨
      s.rd (O.PULSE_PERIOD n t) ≤ s.rd (O.PULSE_WIDTH n t)) then [.outOfRange] else [])

/-- A TIME_IO takes a mode (R403, R405). -/
def State.setTio (s : State) (n t v : Nat) : State :=
  let s := (s.put (O.TIO_MODE n t) (.n v)).setTrain n none
  if s.tioOwner n ≠ t then s
  else if v = 2 then
    let start := s.rd (O.PULSE_START n t)
    s.startTrain n start (start == 0)
  else (s.setLevel n false).put (O.TIO_STATE n t) (.n (if v = 0 then 0 else 2))

/-- The aborts of a write to TRIG_ACTIONS by tenant `w`. -/
def State.trigAborts (s : State) (n t w v : Nat) : List Abort :=
  if v = 0 then [] else
    (if s.trigOwner n = w ∧ w = t ∧ (!v.testBit 2 ∨ s.tioOwner (s.rd (O.TRIG_IO n t)) = t) then [] else [.notOwned]) ++
    (if v.testBit 3 ∧ w ≠ 0 then [.tenantDenied] else [])

/-- TRIG_ACTIONS takes a value: 0 disarms, and another arms (R407, R408). -/
def State.setTrig (s : State) (n t v : Nat) : State :=
  let s := s.put (O.TRIG_ACTIONS n t) (.n v)
  if v = 0 then s.setEv (O.TRIG_STATE n t) 0 0 0x2B 0 else (s.setEv (O.TRIG_STATE n t) 1 0 0x2B 0).armNow n

end Sys2Proof.Machine
end

