-- ==== Sys2Proof/Machine/Power.lean ====
section
/-!
DEFINITION. Transitions between power states (R118-R124), the lift cascade's pre-wakes (R126-R130), the wake latch of
the history ring (R349, R350), and the commands of chapter 5 that time or completion brings.
-/

namespace Sys2Proof.Machine

def State.modPower (s : State) (g : Power → Power) : State := { s with power := g s.power }

/-! ### Lifts and latches -/

/-- Source 11 (R117): the target becomes 2 only if it is 3. -/
def State.source11 (s : State) : State :=
  let s := s.record 11 0
  if s.rd O.TARGET_STATE = 3 then s.setTarget 2 11 s.midCoreNo 0 else s

/-- A Mid lift run ends undecided (R129). -/
def State.midTimeout (s : State) : State :=
  ((s.modPower fun p => { p with midRun := false, midFirm := false }).inc O.MID_TIMEOUTS).source11

/-- The Mid lift starts (R129, R134, R320). -/
def State.startMid (s : State) : State :=
  let t := s.rd O.MID_TENANT
  let r := s.rd O.MID_RINK
  let s := s.modPower fun p => { p with midFirm := false }
  if !(s.rd (O.CORE_GRANT r t)).testBit (s.rd O.MID_CORE) then (s.err 0x0204 0 s.midCoreNo t t 1).midTimeout
  else if s.rd (O.WAY_GRANT r t) % 256 = 0 then (s.err 0x0204 0 s.midCoreNo t t 2).midTimeout
  else if s.rd (O.MID_PROGRAM t) = 0xFFFFFFFF then s.midTimeout
  else s.modPower fun p => { p with midRun := true }

/-- The Mid lift starts if a firm wake asked for it and MID is reached (R129). -/
def State.tryMid (s : State) : State :=
  if s.power.midFirm && s.rd O.POWER_STATE == 3 && s.power.trans.isNone && !s.power.midRun then s.startMid else s

/-- A pre-wake becomes firm (R126): an event without TENTATIVE follows on the object reached, with the unit of what made
it firm; `early` is EARLY of R125. -/
def State.makeFirm (s : State) (unit early : Nat) : State :=
  if !s.power.prewake then s
  else
    let st := s.power.stateTentative
    let tg := s.power.targetTentative
    let s := s.modPower fun p =>
      { p with prewake := false, stateTentative := false, targetTentative := false, midFirm := true }
    if st then s.event O.POWER_STATE 0 unit early else if tg then s.event O.TARGET_STATE 0 unit early else s

/-- The open pre-wake is retracted, source 15 (R126, R127); `early` is EARLY of R125. -/
def State.retract (s : State) (early : Nat) : State :=
  if !s.power.prewake then s
  else
    let st := s.power.stateTentative
    let tg := s.power.targetTentative
    let s := (s.record 15 early).inc O.PREWAKE_CANCELS
    let s := s.modPower fun p =>
      { p with prewake := false, stateTentative := false, targetTentative := false, midFirm := false,
               retracted := p.trans.isSome && tg }
    let s := if st then s.event O.POWER_STATE 0 0x2A (2 + early) else s
    if tg && s.rd O.TARGET_STATE == 3 then s.setTarget 2 15 0x2A (2 + early)
    else if tg then s.event O.TARGET_STATE 0 0x2A (2 + early)
    else s

/-- WAKE_N asserted on a state of 3 or 4 reached by a masked source while the link is not in L0 (R428). -/
def State.hostWakeOut (s : State) (src : Nat) : State :=
  if 3 ≤ s.rd O.POWER_STATE ∧ (s.rd O.WAKE_HOST_MASK).testBit src ∧ s.rd O.LINK_STATE ≠ 2 then
    ({ s with pins := { s.pins with wakeDriven := true } }).inc O.WAKE_ASSERTS
  else s

/-! ### Refusals and abandoned transitions -/

/-- The record of Table 5.6, its counters and the end of the transition (R121). -/
def State.chargeTrans (s : State) (t : Trans) (kind cause source unit : Nat) : State :=
  let s := s.inc (if kind = 0 then O.ENTRY_REFUSALS else if kind = 1 then O.ENTRY_ABORTS else O.EXIT_ABORTS)
  let s := if unit = 0xFF then s else s.inc (O.REFUSED_BY_UNIT unit)
  let bs := time96Bytes s.timeNow ++ leBytes 1 unit ++ leBytes 1 kind ++ leBytes 1 t.origin ++ leBytes 1 t.dest ++
    leBytes 1 source ++ leBytes 1 cause ++ leBytes 1 t.step ++ List.replicate 5 0
  let s := s.put O.LAST_REFUSAL (.b bs)
  let s := (s.put O.TRANSITION_STEP (.n 0)).put O.TRANSITION_ORIGIN (.n 0)
  (s.event O.LAST_REFUSAL 0 unit 0).modPower fun p => { p with trans := none }

/-- An entry is refused (R121): the target is the origin again, with an event. -/
def State.refuseEntry (s : State) (t : Trans) (cause unit : Nat) : State :=
  let s := s.chargeTrans t 0 cause t.source unit
  if s.rd O.TARGET_STATE = t.origin then s.event O.TARGET_STATE 0 unit 0 else s.setTarget t.origin t.source unit 0

/-- The pending target lies on the far side of the origin (R118). -/
def State.farSide (s : State) (t : Trans) : Bool :=
  if t.dest < t.origin then decide (t.origin ≤ s.rd O.TARGET_STATE) else decide (s.rd O.TARGET_STATE ≤ t.origin)

/-- A transition is abandoned at an abort point (R118, R121), charged to the source that caused it. -/
def State.abandonTrans (s : State) (t : Trans) : State :=
  let s := s.chargeTrans t (if t.dest < t.origin then 1 else 2) 0x10 s.power.source s.power.unit
  s.modPower fun p => { p with retracted := false }

def State.setStep (s : State) (t : Trans) (step : Nat) : State :=
  (s.modPower fun p => { p with trans := some { t with step } }).put O.TRANSITION_STEP (.n step)

/-! ### Entry -/

/-- The link needs no quiescing: down, in training, which counts as down, in L2/L3 Ready, or PERST_N asserted (Table 5.4, R429). -/
def State.linkQuiet (s : State) : Bool := decide (s.rd O.LINK_STATE < 2) || s.rd O.LINK_STATE == 5 || !s.pins.perstN

/-- A unit the destination keeps On (Table 5.5). -/
def State.keeps (s : State) (dest u : Nat) : Bool := s.unitIn dest u

/-- The Rink of latency-critical work that the destination does not keep On (Table 5.5, cause 1). -/
def State.lcRefuser (s : State) (dest : Nat) : Option Nat :=
  let lcWork := fun (t : Nat) => (s.activity (t + 32)).isSome ||
    (List.range 8).any fun q => s.rd (O.Q_CLASS q t) == 1 && s.rd (O.Q_ENABLE q t) == 1 && s.queueBusy t q
  let off := fun (r : Nat) (t : Nat) => (List.range 4).any fun i =>
    (s.rd (O.CORE_GRANT r t)).testBit i && !s.onIn dest (11 * r + i)
  (List.range 4).find? fun r => (List.range 32).any fun t => (s.rd (O.TEN_RINKS t)).testBit r && lcWork t && off r t

/-- The units a stream context uses (R421, Table 17.6): its endpoints, the router, and DRAM that holds a ring. -/
def State.streamUnits (s : State) (k t : Nat) : List Nat :=
  let r := (s.stream k).active
  let ring := fun (e base : Nat) => if e / 4096 = 2 ∧ base < lodgeBase then [0x19] else []
  [0x2F] ++ (endpointUnit (s.rd (O.STR_SOURCE k t))).toList ++ (endpointUnit r.sink).toList ++
    ring (s.rd (O.STR_SOURCE k t)) r.srcBase ++ ring r.sink r.snkBase

/-- The condition of Table 5.5 that refuses an entry to `dest`, with its refuser; causes 3 and 7 come with time. -/
def State.refusal (s : State) (dest : Nat) : Option (Nat × Nat) :=
  let c1 := (s.lcRefuser dest).map fun r => (1, 0x10 + r)
  let stream := (List.range 96).any fun k =>
    let t := s.streamOwner k
    decide (t < 32) && s.rd (O.STR_ENABLE k t) == 1 && (s.streamUnits k t).any fun u => !s.keeps dest u
  let c2 := if stream then some (2, 0x2F) else none
  let c4 := if dest = 1 ∧ s.rd O.XTAL32K_STATE ≠ 1 then some (4, 0x2B) else none
  let slots := (List.range 32).any fun t => s.rd (O.SLOT_STATE t) == 1 || s.rd (O.SLOT_STATE t) == 3
  let c5 := if s.security.tasks ≠ [] ∨ slots then some (5, 0x2C) else none
  let bist := allUnits.any fun u =>
    s.unitPowered u && !s.ready u && !s.held u && (u != 0x20 || s.pins.perstN) && (decide (0x14 ≤ u) || s.dieServes (u % 16 / (if u < 0x10 then 8 else 2)))
  let c6 := if bist then some (6, 0x2E) else none
  let c8 := if dest = 1 ∧ s.audio.ring.handover.isSome then some (8, 0x29) else none
  let cam := (List.range 16).find? fun i =>
    s.camOn i && !s.keeps dest (if i < 8 then 0x23 else 0x24)
  let c9 := cam.map fun i => (9, if i < 8 then 0x23 else 0x24)
  [c1, c2, c4, c5, c6, c8, c9].findSome? id

/-- A die in the Snowplough that the entry would retain (R486). -/
def State.dieWait (s : State) (dest : Nat) : Bool :=
  [0, 1].any fun d => (s.rd (O.DIE_STATE d) == 2 || s.rd (O.DIE_STATE d) == 3) &&
    !(s.onIn dest (22 * d + 10) || s.onIn dest (22 * d + 21))

/-- Steps E1 and E2: claims stop, with the abort point after E1 (R119). -/
def State.entryE1 (s : State) (t : Trans) : State :=
  let t1 := { t with step := 0x11 }
  if s.farSide t then (s.setStep t 0x11).abandonTrans t1 else s.setStep t 0x12

/-- Step E0 (R119, R120): the refusal checks, then the quiesce request where the link needs it. -/
def State.entryE0 (s : State) (t : Trans) : State :=
  if s.dieWait t.dest then s.setStep t 0x10
  else
    match s.refusal t.dest with
    | some (cause, unit) => (s.setStep t 0x10).refuseEntry t cause unit
    | none =>
      if t.dest ≤ 2 ∧ 3 ≤ t.origin ∧ !s.linkQuiet then ((s.setStep t 0x10).wr O.QUIESCE_STATE 1).pollStatus
      else s.entryE1 t

/-- ENTRY_START (R119): from a stable state above the pending target, or again while E0 waits for a die (R486). -/
def execEntryStart (s : State) : Res := whenAlive s fun s =>
  let st := s.rd O.POWER_STATE
  let tgt := s.rd O.TARGET_STATE
  match s.power.trans with
  | none =>
    if s.power.bringup || decide (st ≤ tgt) then s
    else
      let t : Trans := { origin := st, dest := tgt, step := 0x10, source := s.power.source, unit := s.power.unit,
                         early := s.power.early, startedAt := s.clock }
      (s.put O.TRANSITION_ORIGIN (.n st)).entryE0 t
  | some t =>
    if t.dest < t.origin ∧ t.step = 0x10 ∧ (s.linkQuiet ∨ s.rd O.QUIESCE_STATE ≠ 1) then s.entryE0 t else s

/-- LINK_QUIESCED (R429): the entry that waited continues at E1. -/
def execLinkQuiesced (s : State) : Res := whenAlive s fun s =>
  match s.power.trans with
  | some t => if t.dest < t.origin ∧ t.step = 0x10 ∧ s.linkQuiet ∧ !s.dieWait t.dest then s.entryE1 t else s
  | none => s

/-- LINK_QUIESCE_TIMEOUT (R120): refused with LINK_NOT_QUIESCED. -/
def execLinkQuiesceTimeout (s : State) : Res := whenAlive s fun s =>
  match s.power.trans with
  | some t =>
    if t.dest < t.origin ∧ t.step = 0x10 ∧ t.dest ≤ 2 ∧ !s.linkQuiet then s.refuseEntry t 3 0x20 else s
  | none => s

/-- A unit leaves service with the transition. -/
def State.leaving (s : State) (t : Trans) (u : Nat) : Bool := s.unitIn t.origin u && !s.unitIn t.dest u

/-- Claimed tiles and transfers of units leaving service have ended (step E2). -/
def State.drained (s : State) (t : Trans) : Bool :=
  ((List.range 16).all fun c => !s.leaving t c || s.claimsOf c == []) &&
  (!s.leaving t 0x20 || (List.range 32).all fun f => (List.range 8).all fun q =>
    !(((s.queue f q).job.map Job.waitsHost).getD false))

/-- REG_STATE of the regulators for the domains that are On (R86, R91). -/
def State.refreshRegs (s : State) : State :=
  [0, 1, 2].foldl (fun s g =>
    let cur := s.rd (O.REG_STATE g)
    let on : Bool := if g = 2 then decide (3 ≤ s.rd O.POWER_STATE) else s.rinkOn (2 * g) || s.rinkOn (2 * g + 1)
    if cur = 0 ∨ cur = 4 then s
    else if !on then s.setEv (O.REG_STATE g) 3 0 (0x30 + g) 0
    else if cur = 3 then s.setEv (O.REG_STATE g) (if g < 2 ∧ (s.lim g).regCeiling < 1200 then 2 else 1) 0 (0x30 + g) 0
    else s) s

/-- The destination is reached: POWER_STATE changes, with the unit of the source that caused the transition and EARLY of
its decision, and what follows (R112, R123, R125-R127, R130). -/
def State.arrive (s : State) (t : Trans) : State :=
  let tent := t.origin < t.dest ∧ t.dest = 3 ∧ s.power.prewake ∧ s.power.targetTentative
  let flags := if t.dest = 3 ∧ t.origin < 3 ∧ s.power.retracted then 2 else if tent then 1 else 0
  let met := s.rd O.TARGET_STATE = t.dest
  let s := if met then { s with mismatch := setMem O.POWER_STATE false (setMem O.TARGET_STATE false s.mismatch) } else s
  let s := s.modPower fun p => { p with trans := none, retracted := false, stateTentative := flags == 1 }
  let s := (s.put O.TRANSITION_STEP (.n 0)).put O.TRANSITION_ORIGIN (.n 0)
  let s := (s.put O.STATE_SINCE (.n s.timeNow)).put O.LAST_TRANSITION_US (.n ((s.clock - t.startedAt) / 1000 % 2 ^ 32))
  let s := s.setEv O.POWER_STATE t.dest 0 t.unit (flags + if t.early then 4 else 0)
  let s := if t.origin < t.dest then s.hostWakeOut t.source else s
  let s := if s.onIn t.dest 63 && !s.onIn t.origin 63 then s.timeOn else s
  (s.tryMid.refreshBias.refreshRegs.pollStatus).checkPicture

/-- Every SPDM secured session ends (R455). -/
def State.endSpdm (s : State) : State :=
  ({ s with security := { s.security with sessions := [] } }).wr O.SPDM_SESSIONS 0

/-- Steps E3 to E6 (R119). -/
def State.entryFinish (s : State) (t : Trans) : State :=
  let s := if s.onIn t.origin 57 && !s.onIn t.dest 57 then s.sendHeartbeats true else s
  let gone := allUnits.filter (s.leaving t)
  let s := gone.foldl (fun s u => s.setReady u false 0) s
  let s := if s.onIn t.origin 63 && !s.onIn t.dest 63 then s.timeSleep.idleTrains else s
  let s := s.wr O.PLL_LOCKED (s.rd O.PLL_LOCKED &&& s.pllsIn t.dest)
  let s := s.putDomains t.dest
  let s := if s.onIn t.dest 56 then s else { s with pins := { s.pins with clkreqAsserted := false } }
  let s := if t.dest = 1 then s.ringStop else s
  let s := if s.onIn t.dest 66 then s
    else { s with audio := { s.audio with ch := s.audio.ch.map fun c => { c with full := false } } }
  let s := if s.onIn t.dest 61 then s else (s.wr (O.TDM_LOCKED 0) 0).wr (O.TDM_LOCKED 1) 0
  let s := ((s.applyDie 0).applyDie 1)
  let s := if t.dest < 3 then s.modPower fun p => { p with midRun := false, midFirm := false } else s
  let s := if t.dest = 1 then { s with base := { s.base with started := false } } else s
  let s := if t.dest < 3 then s.endSpdm else s
  s.arrive t

/-- ENTRY_DRAIN_COMPLETE (R119): the abort point after E2, then E3 to E6. -/
def execEntryDrainComplete (s : State) : Res := whenAlive s fun s =>
  match s.power.trans with
  | some t =>
    if t.dest < t.origin ∧ t.step = 0x12 ∧ s.drained t then
      if s.farSide t then s.abandonTrans t else s.entryFinish t
    else s
  | none => s

/-- DRAIN_TIMEOUT (R120, R486): refused with the unit still draining. -/
def execDrainTimeout (u : Fin 54) (s : State) : Res := whenAlive s fun s =>
  match s.power.trans with
  | some t =>
    if t.dest < t.origin ∧ unitExists u ∧ s.leaving t u ∧
        (t.step = 0x12 ∨ (t.step = 0x10 ∧ s.dieWait t.dest)) then s.refuseEntry t 7 u else s
  | none => s

/-! ### Exit -/

/-- PLL_LOCKED takes a value; the audio grid starts again where PLL_AUD locks (Table 17.8). -/
def State.lockPlls (s : State) (v : Nat) : State :=
  let s := if v.testBit 2 && !(s.rd O.PLL_LOCKED).testBit 2 then
      { s with audio := { s.audio with alignedAt := s.timeNow } }
    else s
  s.wr O.PLL_LOCKED v

/-- EXIT_START (R118, R122): from DORMANT always to BASE first. -/
def execExitStart (s : State) : Res := whenAlive s fun s =>
  let st := s.rd O.POWER_STATE
  let tgt := s.rd O.TARGET_STATE
  if s.power.trans.isSome || s.power.bringup || decide (tgt ≤ st) then s
  else
    let t : Trans := { origin := st, dest := if st = 1 then 2 else tgt, step := 0x21, source := s.power.source,
                       unit := s.power.unit, early := s.power.early, startedAt := s.clock }
    (s.put O.TRANSITION_ORIGIN (.n st)).setStep t 0x21

/-- Step U6 (R122): the destination's domains come On, their PLLs run, and PCIe restarts. -/
def State.exitU6 (s : State) (t : Trans) : State :=
  let s := s.putDomains t.dest
  let s := s.lockPlls (s.pllsIn t.dest)
  let s := if s.onIn t.dest 56 && !s.onIn t.origin 56 then
      ({ s with pins := { s.pins with clkreqAsserted := true } }).wr O.LINK_STATE 0
    else s
  let s := if t.origin = 1 then
      { s with audio := { s.audio with ch := s.audio.ch.mapIdx fun i c => if i < 4 then { c with blocks := [] } else c } }
    else s
  let s := if s.onIn t.dest 66 && !s.onIn t.origin 66 then { s with audio := { s.audio with adcOnAt := s.clock } } else s
  ((s.applyDie 0).applyDie 1).refreshRegs

/-- Step U2 (R101): PLL_SYS is locked, and the time base restarts (R392). -/
def State.exitU2 (s : State) (t : Trans) : State :=
  let s := s.wr O.PLL_LOCKED (setBit (s.rd O.PLL_LOCKED) 0)
  if s.onIn t.dest 63 && !s.onIn t.origin 63 then s.timeWake else s

/-- An exit abandoned (R122): PLLs that the origin does not run stop. DEDUCED: a base that has restarted sleeps again,
since its domain is not On in the origin. -/
def State.abandonExit (s : State) (t : Trans) : State :=
  let s := s.wr O.PLL_LOCKED (s.rd O.PLL_LOCKED &&& s.pllsIn t.origin)
  let s := if s.onIn t.origin 63 || s.time.asleep.isSome then s
    else s.modTime fun x => { x with asleep := some (x.now, s.clock) }
  s.abandonTrans t

/-- EXIT_STEP_COMPLETE (R122): the step in progress completes; abort points A and B follow U3 and U4. -/
def execExitStepComplete (s : State) : Res := whenAlive s fun s =>
  match s.power.trans with
  | none => s
  | some t =>
    if t.dest < t.origin then s
    else match t.step with
      | 0x21 => s.setStep t (if t.origin ≤ 2 ∧ 3 ≤ t.dest then 0x22 else 0x23)
      | 0x22 => (s.exitU2 t).setStep t 0x23
      | 0x23 => if s.farSide t then s.abandonExit t else s.setStep t 0x24
      | 0x24 => if s.farSide t then s.abandonExit t else s.setStep t 0x25
      | 0x25 => (s.exitU6 t).setStep t 0x26
      | 0x26 => s.setStep t (if 3 ≤ t.dest then 0x27 else 0x29)
      | 0x27 => s.setStep t (if t.dest = 4 then 0x28 else 0x29)
      | 0x28 => s.setStep t 0x29
      | _ => s

/-- Every unit of the destination has set READY or HELD (R112); PCIe may wait for PERST_N, and a die in restart for K6. -/
def State.allUp (s : State) (dest : Nat) : Bool :=
  allUnits.all fun u => !s.unitIn dest u || s.ready u || s.held u || (u == 0x20 && !s.pins.perstN)

/-- TRANSITION_LATENCY_EXPIRED (R123): the stated time of a host write to 2200.02 passes without the target. -/
def execTransitionLatencyExpired (s : State) : Res := whenAlive s fun s =>
  if s.power.source = 13 ∧ s.rd O.TARGET_STATE ≠ s.rd O.POWER_STATE then
    (s.setMismatch O.TARGET_STATE true).setMismatch O.POWER_STATE true
  else s

/-! ### Timers -/

/-- What keeps the idle timer of a state from expiring (Table 5.9). -/
def State.idleHeld (s : State) : Bool :=
  let streams := (List.range 32).any s.streamOn || (List.range 16).any s.camOn
  match s.rd O.POWER_STATE with
  | 4 => s.compute.acts != [] || streams || (List.range 32).any fun f => (List.range 8).any fun q => s.queueBusy f q
  | 3 => s.power.midRun || streams
  | 2 => s.rd O.IDLE_FLOOR != 1 || s.audio.ring.handover.isSome
  | _ => true

/-- IDLE_TIMER_EXPIRY (R124): the pending target falls by one state, never below IDLE_FLOOR. -/
def execIdleTimerExpiry (s : State) : Res := whenAlive s fun s =>
  let st := s.rd O.POWER_STATE
  let timer := s.rd (if st = 4 then O.SUMMIT_IDLE_MS else if st = 3 then O.MID_IDLE_MS else O.BASE_IDLE_MS)
  if s.power.trans.isSome || s.power.bringup || s.rd O.TARGET_STATE != st || timer == 0 || s.idleHeld ||
      decide (st ≤ s.rd O.IDLE_FLOOR) then s
  else (s.record 14 0).setTarget (st - 1) 14 0xFF 0

/-- PREWAKE_WINDOW_EXPIRY (R126): the open pre-wake is retracted. -/
def execPrewakeWindowExpiry (s : State) : Res := whenAlive s fun s => s.retract 0

/-- BASE_HOLD_EXPIRY (R342): BASE_CLK is gated once no pre-wake is open. -/
def execBaseHoldExpiry (s : State) : Res := whenOk (!s.power.prewake) s fun s =>
  { s with base := { s.base with started := false } }

/-- MID_DECISION_TIMEOUT (R129). -/
def execMidDecisionTimeout (s : State) : Res := whenOk s.power.midRun s State.midTimeout

/-- COMPARATOR_TRIGGER (R341, R342): an enabled comparator crosses its threshold. -/
def execComparatorTrigger (channel : Fin 4) (s : State) : Res :=
  whenOk (s.domOn 79 && s.ready 0x27 && s.rd (O.CH_MODE channel) == 2 && (s.rd O.COMP_ENABLE).testBit channel) s
    fun s =>
      let s := s.raise 0 0 0
      let s := s.setEv O.COMP_TRIGGERS (s.rd O.COMP_TRIGGERS + 1) 0 0x27 0
      if s.rd (O.BASE_PROGRAM (s.rd O.BASE_TENANT)) ≠ 0xFFFFFFFF ∧ s.domOn 77 ∧ !s.base.started then
        ({ s with base := { s.base with started := true } }).inc O.BASE_RUNS
      else s

end Sys2Proof.Machine
end

