-- ==== Sys2Proof/Machine/Budget.lean ====
section
/-!
DEFINITION. Budget periods and passes (R328-R334).
-/

namespace Sys2Proof.Machine

/-- A core is in service: READY, not withdrawn (R160). -/
def State.coreServes (s : State) (c : Nat) : Bool := s.ready c && s.rd (O.CORE_SERVICE c) == 1

/-- The ceiling of a Rink in MHz that a period boundary sees (R329). -/
def State.passCeiling (s : State) (r : Nat) : Nat :=
  min (s.rd (O.FREQ_MAX_MHZ r)) (min (s.rd (O.REG_FREQ_CEILING (r / 2))) (nth (s.lim (r / 2)).thermal (r % 2) 1200))

/-- Capacity of a resource per µs (Table 13.3, R334): 0-3 CORE, 4-7 FILL, 8 LODGE, 9 DRAM, 10 PCIE_IN, 11 PCIE_OUT,
12 ROUTER. -/
def State.capacity (s : State) (res : Nat) : Nat :=
  let mid := s.rd O.POWER_STATE == 3
  let mr := s.rd O.MID_RINK
  if res < 4 then
    let n := if mid then (if res = mr ∧ s.coreServes s.midCoreNo then 1 else 0)
      else ((List.range 4).filter fun i => s.coreServes (4 * res + i)).length
    n * s.passCeiling res
  else if res < 8 then (if mid ∧ res - 4 ≠ mr then 0 else 512000)
  else match res with
    | 8 => if mid then 256000 else 2048000
    | 9 => if mid then 0 else 17066
    | 10 | 11 => 31500
    | _ => 500

/-- The pass of a share (R329). -/
def passOf (share capacity periodUs : Nat) : Nat := share * capacity * periodUs / 1024

/-- Use of a resource in the period that ends; DRAM as the largest over the channels. -/
def State.usedRes (s : State) (act res : Nat) : Nat :=
  if res = 9 then (List.range 16).foldl (fun m c => max m (s.usedPass act (16 + c))) 0 else s.usedPass act res

/-- An activity was throttled for a resource during the period. -/
def State.wasThrottled (s : State) (act res : Nat) : Bool :=
  if res = 9 then (List.range 16).any fun c => s.compute.throttled.contains (passKey act (16 + c))
  else s.compute.throttled.contains (passKey act res)

/-- A counter less its pass: what a boundary carries over (R332). -/
def State.overrun (s : State) (k : Nat) : Nat := (kvGet k s.compute.used).getD 0 - s.pass (k / 32) (k % 32)

/-- The period that ends is reported (631A-631D). -/
def State.reportPeriod (s : State) : State :=
  (List.range 32).foldl (fun s t => (List.range 13).foldl (fun s res =>
    let s := s.put (O.USED_LC res t) (.n (s.usedRes (t + 32) res))
    let s := s.put (O.USED_BE res t) (.n (s.usedRes t res))
    let s := if s.wasThrottled (t + 32) res then s.inc (O.THROTTLED_LC res t) else s
    if s.wasThrottled t res then s.inc (O.THROTTLED_BE res t) else s) s) s

/-- The passes of a new period, from the shares in force at the boundary (R329, R334). -/
def State.newPasses (s : State) : State :=
  let us := s.rd O.BUDGET_PERIOD_US
  (List.range 13).foldl (fun s res =>
    let cap := s.capacity res
    (List.range 32).foldl (fun s t =>
      (s.put (O.PASS_LC res t) (.n (passOf (s.rd (O.LC_LIMIT res t)) cap us))).put (O.PASS_BE res t)
        (.n (passOf (s.rd (O.BE_LIMIT res t)) cap us))) s) s

/-- A period begins; the first after bring-up or an exit starts with every counter at 0. -/
def State.newPeriod (s : State) (first : Bool) : State :=
  let used := if first then []
    else s.compute.used.filterMap fun p => let o := s.overrun p.1; if o = 0 then none else some (p.1, o)
  let s := if first then s else s.reportPeriod
  let s := { s with
    compute := { s.compute with used, throttled := [] },
    mismatch := s.mismatch.filter fun k => !decide (0x6310 ≤ keyIdx k ∧ keyIdx k ≤ 0x6312) }
  s.newPasses.inc O.PERIOD_COUNT

/-- BUDGET_PERIOD_BOUNDARY (R328, R332, R334): in MID and SUMMIT. -/
def execBudgetPeriodBoundary (s : State) : Res :=
  whenOk (decide (3 ≤ s.rd O.POWER_STATE) && !s.power.bringup) s fun s => s.newPeriod false

/-- EXIT_COMPLETE (R112, R334): the last unit has set READY or HELD at U9; from BASE and DORMANT a first period begins. -/
def execExitComplete (s : State) : Res := whenAlive s fun s =>
  match s.power.trans with
  | some t =>
    if t.origin < t.dest ∧ t.step = 0x29 ∧ s.allUp t.dest then
      let s := s.arrive t
      let s := if t.origin < 2 then s.roundStart else s
      if t.origin < 3 ∧ 3 ≤ t.dest then s.newPeriod true else s
    else s
  | none => s

end Sys2Proof.Machine
end

