-- ==== Sys2Proof/Machine/Bringup.lean ====
section
/-!
DEFINITION. Reset sources (R61, R63, R84, R96, R104, R105), the readiness of units (R107-R109), memory BIST, spares and
soft repair (R479-R482), and the reset of one unit (R106).
-/

namespace Sys2Proof.Machine

/-! ### Device-wide reset -/

/-- BANK_LEVEL of a VDDIO in mV (R61); `cam` supports 1.8 V only. -/
def bankLevel (cam : Bool) (mv : Nat) : Nat :=
  if mv < 500 then 0
  else if 1620 ≤ mv ∧ mv ≤ 1980 then 1
  else if !cam && decide (2970 ≤ mv ∧ mv ≤ 3630) then 2
  else 3

/-- The state after a device-wide reset with a cause of Table 4.5 (R104): every object at its After power-up value,
every memory of the package without its contents; outside stay the balls, the host's memory and what was put out. -/
def State.powerUp (s : State) (cause : Nat) : State :=
  let r := State.reset
  let cold := cause == 0
  let r := { r with
    pending := s.pending, clock := s.clock, porAt := s.clock, fuses := s.fuses, hmem := s.hmem, out := s.out,
    free := s.free + 1,
    pins := { r.pins with
      testEn := s.pins.testEn, refInRange := s.pins.refInRange, banks := s.pins.banks, perstN := s.pins.perstN,
      privRaw := s.pins.privRaw, csLow := s.pins.csLow, pttPressed := s.pins.pttPressed,
      lastWdog := if cold then none else s.pins.lastWdog },
    security := { r.security with draws := s.security.draws },
    integrity := { r.integrity with roundFti := if s.fuses.extended then 16 else 33 },
    compute := { r.compute with gens := List.replicate 32 (s.free + 1) } }
  (r.put O.RESET_CAUSE (.n cause)).put O.WDOG_RESETS (.n (if cold then 0 else s.rd O.WDOG_RESETS))

/-- Steps 1, 2 and 7 of Table 4.6 and their failures (R72, R96, R480): bring-up runs, or the device is in its safe
state. -/
def State.startBringup (s : State) (aonBistHeld : Bool) : State :=
  let s := { s with
    porAt := s.clock,
    pins := { s.pins with porN := true, pttBlocked := s.pins.pttPressed, pttPressed := false, alive := false },
    power := { s.power with bringup := true } }
  let s := s.put (O.DOMAIN_POWER 76) (.n 2)
  let s := s.pins.banks.foldl (fun (p : State × Nat) l => (p.1.put (O.BANK_LEVEL p.2) (.n l), p.2 + 1)) (s, 0) |>.1
  if s.pins.testEn then s.safeState 9 0xFF
  else if aonBistHeld then (s.err 0x0306 4 0xFF 0xFF 0 0).safeState 8 0xFF
  else if !s.pins.refInRange then (s.wr O.REF38_STATE 2).safeState 3 0xFF
  else
    let s := (s.wr O.REF38_STATE 1).put O.AON_FAST_TRIM (.n (Config.refTrim % 65536))
    { s with pins := { s.pins with alive := true, clkreqAsserted := true } }

/-- POR_N_ASSERT (R63): low for 10 µs or more resets the device; below 2 µs is ignored; between, the spec forbids it. -/
def execPorNAssert (lowNs : Nat) (s : State) : Res :=
  if !s.released || lowNs < 2000 then .next s
  else if lowNs < 10000 then .fault .forbiddenPulse
  else .next (s.powerUp 1)

/-- The record of a bank outside both ranges (Table 3.3). -/
def State.bankRecord (s : State) (b mv level : Nat) : State :=
  if level = 1 ∨ level = 2 then s
  else s.err 0x0101 3 0x33 0xFF (0x10 + b) (mv % 65536 * 65536 + if mv < 1620 then 1 else 2)

/-- POR_N_RELEASE (R107): the levels are sampled, the reference is checked, and bring-up starts. -/
def execPorNRelease (refInRange testEn aonBistHeld pttLow camPrivLow : Bool) (banks : BankMv) (s : State) : Res :=
  if !s.pins.powered || s.pins.porN then .next s
  else
    let mvs := [banks.aon, banks.cam, banks.aud, banks.net, banks.gen]
    let levels := mvs.mapIdx fun i mv => bankLevel (i == 1) mv
    let s := { s with pins := { s.pins with
      refInRange, testEn, banks := levels, pttPressed := pttLow, privRaw := camPrivLow } }
    let s := s.startBringup aonBistHeld
    .next ((List.range 5).foldl (fun s b => s.bankRecord b (nth mvs b 0) (nth levels b 0)) s)

/-- AON_UNDERVOLTAGE (R84): an internal reset, and bring-up with the levels sampled before. -/
def execAonUndervoltage (s : State) : Res :=
  if !s.released then .next s else .next ((s.powerUp 2).startBringup false)

/-- WATCHDOG_EXPIRY (R105): a reset, or the device safe state on a repeat within 10 s. -/
def execWatchdogExpiry (s : State) : Res := whenAlive s fun s =>
  let again := match s.pins.lastWdog with
    | some c => decide (s.clock ≤ c + 10000000000)
    | none => false
  let s := (s.powerUp 3).incSat O.WDOG_RESETS
  let s := { s with pins := { s.pins with lastWdog := some s.clock } }
  if again then ({ s with pins := { s.pins with porN := true } }).safeState 6 0xFF else s.startBringup false

/-- VDD_AON_RISING (R104): a cold power-up; POR_N is low. -/
def execVddAonRising (s : State) : Res :=
  .next (let r := s.powerUp 0; { r with pins := { r.pins with banks := [0, 0, 0, 0, 0] } })

/-- JTAG_TRST (R104): the TAP alone is reset; what has unlocked it stands. -/
def execJtagTrst (s : State) : Res :=
  .next (if s.pins.powered then { s with pins := { s.pins with tapReset := true } } else s)

/-! ### Memory BIST and spares -/

/-- Units with SRAM that BIST tests (R479). DESIGN CHOICE which of the I/O-die units hold buffers. -/
def hasSram (u : Nat) : Bool :=
  decide (u < 0x14) || u == 0x18 || decide (0x20 ≤ u ∧ u ≤ 0x2A) || u == 0x2C || u == 0x2F || u == 0x35

/-- Spare rows and column groups of a repair block (Table 19.4). -/
def sparesOf (u : Nat) : Nat × Nat :=
  if u < 0x14 then (4, 1) else if u = 0x18 then (8, 2) else if u = 0x29 ∨ u = 0x2A then (2, 1) else (1, 1)

/-- Repair blocks of a unit, rows and column groups of a block: the bounds of R482. A core has 32 banks of 64 KiB, a
Rink cache 64 quarters, the Lodge 128 sub-arrays, the ring 12 and the Base engine 16 blocks; a row is a word line of
512 words and a block has 8 column groups (DESIGN CHOICE: the spec gives neither). -/
def blocksOf (u : Nat) : Nat :=
  if u < 0x10 then 32 else if u < 0x14 then 64 else if u = 0x18 then 128 else if u = 0x29 then 12
  else if u = 0x2A then 16 else 1

/-- A spare in use for the row or column group. -/
def State.spared (s : State) (u b : Nat) (col : Bool) (i : Nat) : Bool := s.integrity.spares.contains (u, b, col, i)

/-- Spares of a block in use, of one kind. -/
def State.sparesUsed (s : State) (u b : Nat) (col : Bool) : Nat :=
  (s.integrity.spares.filter fun x => x.1 == u && x.2.1 == b && x.2.2.1 == col).length

def State.modInt (s : State) (g : Integrity → Integrity) : State := { s with integrity := g s.integrity }

/-- A spare allocated, if one is free. -/
def State.takeSpare (s : State) (u b : Nat) (col : Bool) (i : Nat) : Option State :=
  if s.sparesUsed u b col < (if col then (sparesOf u).2 else (sparesOf u).1) then
    some (s.modInt fun x => { x with spares := x.spares ++ [(u, b, col, i)] })
  else none

/-- A soft-repair entry (Table 19.6): unit, block, column, index. -/
def entryOf (e : List Byte) : Nat × Nat × Bool × Nat := (field e 0 1, field e 2 2, (field e 1 1).testBit 0, field e 4 2)

/-- How a failing cell is repaired (R480, Table 19.5 RESULT): 0 row, 1 column group, 2 by a soft-repair entry's line,
3 not. DEDUCED: a cell on a line that an entry names takes that entry's spare. -/
def State.repair (s : State) (u : Nat) (c : BistCell) : Nat × State :=
  let named := fun (col : Bool) (i : Nat) =>
    s.integrity.entries.any fun e => entryOf e == (u, c.block.val, col, i)
  if s.spared u c.block false c.row || s.spared u c.block true c.columnGroup then
    (if named false c.row || named true c.columnGroup then 2 else if s.spared u c.block false c.row then 0 else 1, s)
  else
    let row := s.takeSpare u c.block false c.row
    let col := s.takeSpare u c.block true c.columnGroup
    match (if named false c.row then row else none), (if named true c.columnGroup then col else none), row, col with
    | some s, _, _, _ => (2, s)
    | none, some s, _, _ => (2, s)
    | none, none, some s, _ => (0, s)
    | none, none, none, some s => (1, s)
    | none, none, none, none => (3, s)

/-- The fail record of a cell (R481, Table 19.5). -/
def State.failRecord (s : State) (u : Nat) (c : BistCell) (result : Nat) : State :=
  let seq := (s.rd O.BIST_FAILS + 1) % 2 ^ 32
  let slot := (seq + 63) % 64
  let s := if 64 < seq ∧ !s.integrity.failRead.testBit slot then s.put O.BIST_LOG_OVERFLOW (.n 1) else s
  let bs := leBytes 1 u ++ leBytes 1 result ++ leBytes 2 c.block ++ leBytes 4 c.address ++ leBytes 1 c.bit ++ [0] ++
    leBytes 2 c.row ++ leBytes 4 seq
  let s := (s.put (O.BIST_FAIL_LOG slot) (.b bs)).put O.BIST_FAILS (.n seq)
  s.modInt fun x => { x with failRead := clrBit x.failRead slot }

/-- A block that cannot be repaired holds its scope (R480, Table 19.4); the answer says whether the unit is held. -/
def State.holdBlock (s : State) (u b failing : Nat) : Bool × State :=
  let spares := (sparesOf u).1 + (sparesOf u).2
  let s := s.err 0x0306 (if u = 0x18 ∧ b < 8 then 4 else 3) u 0xFF failing spares
  if u < 0x10 then (true, s.put (O.CORE_LOST_CAUSE u) (.n 3))
  else if u < 0x14 then
    let w := setBit (s.rd (O.HELD_WAYS (u - 0x10))) (b / 4)
    (decide (4 ≤ popCount 16 w), s.put (O.HELD_WAYS (u - 0x10)) (.n w))
  else if u = 0x18 then
    let s := (s.put O.HELD_SEGMENTS (.n (setBit (s.rd O.HELD_SEGMENTS) (b / 4)))).put (O.LODGE_SEG_OWNER (b / 4)) (.n 0xFF)
    (false, if b < 8 then s.safeState 7 0x18 else s)
  else (true, s)

/-- What BIST clears (R479): every word of the unit's SRAM. -/
def State.bistClear (s : State) (u : Nat) : State :=
  if u < 0x10 then (s.cclear u 0 (2 ^ 21)).modCore u fun x => { x with holds := none, image := [], pages := [] }
  else if u < 0x14 then s.modRink (u - 0x10) fun x => { x with dirty := [], lines := [] }
  else if u = 0x18 then
    (List.range 32).foldl (fun s t =>
      if s.segments t = [] then s else s.tlose t lodgeBase (lodgeBase + s.lodgeBytes t)) s
  else if u = 0x29 then s.modRing fun r => { r with blocks := [], gapStop := none }
  else if u = 0x2A then { s with bmem := [], base := { started := false } }
  else s

/-- BIST of a unit (R479-R481) with the cells it finds; the answer says whether the unit must be held. -/
def State.runBist (s : State) (u : Nat) (cells : List BistCell) : Bool × State :=
  let cells := if u = 0x18 ∧ !s.power.bringup then cells.filter fun c => decide (8 ≤ c.block.val) else cells
  let s := (s.bistClear u).modInt fun x => { x with spares := x.spares.filter fun p => p.1 != u }
  let (bad, s) := cells.foldl (fun (p : List Nat × State) c =>
    let (r, s) := p.2.repair u c
    (if r = 3 then insNat c.block.val p.1 else p.1, s.failRecord u c r)) ([], s)
  let (held, s) := bad.foldl (fun (p : Bool × State) b =>
    let n := (cells.filter fun c => c.block.val == b).length
    let (h, s) := p.2.holdBlock u b n
    (p.1 || h, s)) (false, s)
  (held, s.put (O.BIST_RESULT u) (.n (if held then 4 else if bad ≠ [] then 3 else if cells ≠ [] then 2 else 1)))

/-- A soft-repair entry applied, satisfied or rejected (R482). -/
def State.applyEntry (s : State) (i : Nat) (e : List Byte) : State :=
  let (u, b, col, idx) := entryOf e
  if s.spared u b col idx then s.modInt fun x => { x with applied := setBit x.applied i }
  else match s.takeSpare u b col idx with
    | some s => s.modInt fun x => { x with applied := setBit x.applied i }
    | none => (s.modInt fun x => { x with applied := clrBit x.applied i }).err 0x0307 0 u 0xFF i 1 |>.inc O.SOFT_REPAIR_REJECTED

/-- Every entry of a unit applied (R482), and the counts of 9013. -/
def State.applyEntries (s : State) (u first : Nat) : State :=
  (s.integrity.entries.foldl (fun (p : State × Nat) e =>
    (if first ≤ p.2 ∧ (entryOf e).1 = u then p.1.applyEntry p.2 e else p.1, p.2 + 1)) (s, 0)).1

/-! ### Readiness -/

/-- The unit is coming up: its domain is On, or bring-up runs, and it has set neither READY nor HELD (R108). A unit of a
die in the Snowplough waits for the die's reset to be released, and PCIe for PERST_N. -/
def State.comingUp (s : State) (u : Nat) : Bool :=
  unitExists u && !s.ready u && !s.held u && (s.power.bringup || s.unitPowered u) && (u != 0x20 || s.pins.perstN) &&
    (decide (0x14 ≤ u) ||
      match s.rd (O.DIE_STATE (if u < 0x10 then u / 8 else (u - 0x10) / 2)) with
      | 0 | 1 => true
      | 3 => (s.rd O.PLL_LOCKED).testBit (if u < 0x10 then 10 + u / 4 else 10 + (u - 0x10))
      | _ => false)

/-- PLLs that run once a unit is up (Table 4.2, Table 4.7). -/
def unitPlls (u : Nat) : List Nat :=
  if u < 0x10 then [10 + u / 4]
  else if u < 0x14 then [10 + (u - 0x10)]
  else if 0x19 ≤ u ∧ u ≤ 0x1C then [4 + (u - 0x19)]
  else match u with
    | 0x20 => [8]
    | 0x21 => [9]
    | 0x22 | 0x25 | 0x26 => [1]
    | 0x27 | 0x28 => [2]
    | 0x2B | 0x2E => [0]
    | 0x33 | 0x32 => [3]
    | _ => []

/-- Bring-up ends at step 15 (R107), and the first budget period starts. -/
def State.endBringup (s : State) : State :=
  if s.power.bringup && s.allUp 4 then
    let s := { s with power := { s.power with bringup := false } }
    let s := s.putDomains 4
    s.roundStart.newPeriod true
  else s

/-- A die whose cores and Rinks are all up is NORMAL after bring-up (9030). -/
def State.dieUp (s : State) (d : Nat) : State :=
  if s.rd (O.DIE_STATE d) = 0 ∧ (dieUnits d).all (fun u => s.ready u || s.held u) then (s.wr (O.DIE_STATE d) 1).checkPicture else s

/-- What a unit starts once it is READY. -/
def State.unitUp (s : State) (u : Nat) : State :=
  if u < 0x10 then s.applyDie (u / 8)
  else if u < 0x14 then (s.applyDie ((u - 0x10) / 2)).refreshAllRinks
  else match u with
    | 0x20 => s
    | 0x27 => s.refreshBias
    | 0x28 => [0, 1].foldl (fun s p => if s.rd (O.TDM_ROLE p) = 2 then s.wr (O.TDM_LOCKED p) 1 else s) s
    | 0x29 =>
      ({ s with audio := { s.audio with ch := s.audio.ch.map fun (c : AudioCh) => { c with blocks := [] } } }).wr O.RING_STATE
        (if s.audio.ring.handover.isSome then s.rd O.RING_STATE else if s.audio.ring.latch.isSome then 2 else 1)
    | 0x2C => s.wr O.PATROL_STATE 1
    | 0x30 | 0x31 | 0x32 =>
      if s.rd (O.REG_STATE (u - 0x30)) = 0 then s.setEv (O.REG_STATE (u - 0x30)) 1 0 u 0 else s
    | 0x33 => (List.range 9).foldl (fun s r => s.wr (O.RAIL_STATUS r) (setBit (s.rd (O.RAIL_STATUS r)) 0)) s
    | _ => s

/-- UNIT_READY (R108, R479, R482): BIST runs except on an exit, which re-initialises nothing (R115). -/
def State.unitReadyNow (s : State) (u : Nat) (selfTestOk : Bool) (cells : List BistCell) : State :=
  let exiting := (s.power.trans.map fun t => decide (t.origin < t.dest)).getD false
  let (held, s) := if hasSram u && !exiting then s.runBist u cells else (false, s)
  if s.on O.DEVICE_SAFE then s
  else
    let s := if held || !selfTestOk then (s.hold u 0).unitDown u
      else
        let s := if s.rd (O.READY_TIME u) ≠ 0 then s else s.put (O.READY_TIME u) (.n ((s.clock - s.porAt) / 1000 % 2 ^ 32))
        let s := s.lockPlls ((unitPlls u).foldl setBit (s.rd O.PLL_LOCKED))
        let s := if s.power.bringup then (unitDomains u).foldl (fun s d => s.put (O.DOMAIN_POWER d) (.n 2)) s else s
        ((s.setReady u true 0).unitUp u).applyEntries u 0
    let s := if u < 0x14 then s.dieUp (if u < 0x10 then u / 8 else (u - 0x10) / 2) else s
    s.endBringup

def execUnitReady (u : Fin 54) (selfTestOk : Bool) (cells : List BistCell) (s : State) : Res :=
  whenOk (s.comingUp u) s fun s => s.unitReadyNow u selfTestOk cells

/-- READY_TIMEOUT (R108): HELD, with a record of severity 3. -/
def execReadyTimeout (u : Fin 54) (s : State) : Res :=
  whenOk (s.comingUp u) s fun s =>
    let s := s.err 0x0105 3 u 0xFF ((s.clock - s.porAt) / 1000 % 2 ^ 32) 0
    let s := s.holdUnit u 0x0105
    let s := if u.val < 0x14 then s.dieUp (if u.val < 0x10 then u.val / 8 else (u.val - 0x10) / 2) else s
    s.endBringup

/-! ### Reset of one unit -/

/-- Unit codes that UNIT_RESET takes (R106). -/
def unitResettable (u : Nat) : Bool :=
  decide (u ≤ 0x13) || decide (0x18 ≤ u ∧ u ≤ 0x28) && unitExists u || u == 0x2F || u == 0x35

/-- The unit holds work of a tenant (R106). -/
def State.unitBusy (s : State) (u : Nat) : Bool :=
  let busy := fun (t : Nat) => s.tenantBusy t || (List.range 8).any fun q => s.queueBusy t q
  if u < 0x10 then (s.core u).act.isSome || s.claimsOf u != []
  else if u < 0x14 then s.compute.acts.any fun p => p.2.set.contains (u - 0x10)
  else if u = 0x18 then (List.range 32).any fun t => (s.segments t).any (fun k => decide (2 ≤ k)) && busy t
  else if 0x19 ≤ u ∧ u ≤ 0x1C then
    (List.range 32).any fun t => (s.channels t).any (fun c => c / 4 == u - 0x19) && busy t
  else if u = 0x20 then (List.range 32).any fun f => (List.range 8).any fun q => s.queueBusy f q
  else if u = 0x23 ∨ u = 0x24 then
    (List.range 8).any fun i => s.camOn (8 * (u - 0x23) + i)
  else if u = 0x25 then s.rd O.INLINE_INPUT < 16 && s.camOn (s.rd O.INLINE_INPUT)
  else if u = 0x26 then (List.range 16).any fun i => s.rd (O.ISP i) == 2 && s.camOn i
  else if u = 0x35 then s.camera.ins.any fun i => i.queue != []
  else (List.range 96).any fun k =>
    let t := s.streamOwner k
    decide (t < 32) && s.rd (O.STR_ENABLE k t) == 1 && (s.streamUnits k t).contains u

/-- An accepted write to UNIT_RESET (R106): READY clears at once, and the unit comes up again by UNIT_READY. A unit
that stays held until the next release of POR_N stays HELD. -/
def State.unitResetNow (s : State) (u : Nat) : State :=
  let s := s.setReady u false 0
  let s := if s.integrity.lost.testBit u then s else s.setHeld u false 0
  let s := { s with everReady := clrBit s.everReady u }
  let s := s.streamsDown u
  if 0x19 ≤ u ∧ u ≤ 0x1C then s.dramLost (u - 0x19)
  else if 0x10 ≤ u ∧ u ≤ 0x13 then s.refreshAllRinks.checkPicture
  else s

/-! ### Rails and phases -/

/-- Nominal current per phase and rail rating in mA (Table 3.4). -/
def phaseMa (g : Nat) : Nat := if g = 2 then 2500 else 4000
def railRating (g : Nat) : Nat := if g = 2 then 7500 else 26000

/-- The highest multiple of 25 MHz, at most `f`, at which the predicted current meets the limit (R89); 0 if 200 MHz
does not. -/
def derated (total fixed limit fnow : Nat) : Nat → Nat → Nat
  | 0, _ => 0
  | n + 1, f =>
    if f < 200 then 0
    else if fixed * fnow + (total - fixed) * f ≤ limit * fnow then f
    else derated total fixed limit fnow n (f - 25)

/-- A compute die enters its safe state (R91); REG_FREQ_CEILING reads 0 where not even 200 MHz meets the limit (R89). -/
def State.regSafe (s : State) (g : Nat) (cannot : Bool) : State :=
  let s := s.setEv (O.REG_STATE g) 4 0x0102 (0x30 + g) 0
  let s := if cannot then (s.modLim g fun x => { x with regCeiling := 0 }).showCeiling g else s
  s.holdDie g 8 0xFF

/-- A phase removed from rotation (R87-R92); causes 1 fail open, 2 sense disagreement, 3 overcurrent. -/
def State.removePhase (s : State) (g p cause : Nat) (load : RailLoad) : State :=
  let map := s.rd (O.REG_PHASE_MAP g)
  if !map.testBit p then s
  else
    let map := clrBit map p
    let left := popCount 8 map
    let limit := min (railRating g) (left * phaseMa g)
    let s := (s.put (O.REG_PHASES_ACTIVE g) (.n left)).put (O.REG_IOUT_MA g) (.n (load.totalMa % 2 ^ 32))
    let s := s.put (O.REG_PHASE_CAUSE g) (.n (s.rd (O.REG_PHASE_CAUSE g) + cause * 4 ^ p))
    let s := s.put (O.REG_ILIMIT_MA g) (.n limit)
    let s := s.setEv (O.REG_PHASE_MAP g) map 0x0102 (0x30 + g) 0
    let d1 := left + cause * 256
    if g = 2 then
      if left < 3 then (s.err 0x0102 4 0x32 0xFF p d1).safeState 2 0x32 else s.err 0x0102 2 0x32 0xFF p d1
    else
      let fnow := max (s.rd (O.RINK_FREQ (2 * g))) (s.rd (O.RINK_FREQ (2 * g + 1)))
      let f := derated load.totalMa load.fixedMa limit fnow 48 fnow
      let cannot := decide (limit < load.totalMa) && f == 0
      if decide (left < 6) || cannot then (s.err 0x0102 3 (0x30 + g) 0xFF p d1).regSafe g cannot
      else
        let s := s.err 0x0102 2 (0x30 + g) 0xFF p d1
        if load.totalMa ≤ limit then s
        else
          let s := (s.modLim g fun x => { x with regCeiling := min x.regCeiling f }).showCeiling g
          let s := s.inc (O.REG_DERATE_COUNT g)
          let s := if s.rd (O.REG_STATE g) = 3 then s else s.setEv (O.REG_STATE g) 2 0 (0x30 + g) 0
          s.applyDie g

/-- A regulator that runs all its phases in rotation (R87). -/
def State.regRuns (s : State) (g : Nat) : Bool := s.rd (O.REG_STATE g) == 1 || s.rd (O.REG_STATE g) == 2

/-- A regulator that runs one phase in burst mode (R86), and that phase. -/
def State.regBursts (s : State) (g : Nat) : Bool := s.rd (O.REG_STATE g) == 3
def State.burstPhase (s : State) (g : Nat) : Nat :=
  ((List.range 8).find? fun p => (s.rd (O.REG_PHASE_MAP g)).testBit p).getD 0

/-- PHASE_FAIL_OPEN, PHASE_SENSE_DISAGREEMENT (R87): outside burst mode. -/
def execPhaseFailOpen (reg : Fin 3) (phase : Fin 8) (load : RailLoad) (s : State) : Res :=
  whenOk (s.regRuns reg) s fun s => s.removePhase reg phase 1 load
def execPhaseSenseDisagreement (reg : Fin 3) (phase : Fin 8) (load : RailLoad) (s : State) : Res :=
  whenOk (s.regRuns reg) s fun s => s.removePhase reg phase 2 load

/-- PHASE_OVERCURRENT (R87, R102): in burst mode too, of the phase that switches. -/
def execPhaseOvercurrent (reg : Fin 3) (phase : Fin 8) (load : RailLoad) (s : State) : Res :=
  whenOk (s.regRuns reg || (s.regBursts reg && s.burstPhase reg == phase)) s fun s => s.removePhase reg phase 3 load

/-- BURST_END (R102): fail open, or sense disagreement over a burst of 50 µs or longer. -/
def execBurstEnd (reg : Fin 3) (failOpen disagreement : Bool) (burstUs : Nat) (load : RailLoad) (s : State) : Res :=
  whenOk (s.regBursts reg) s fun s =>
    if failOpen then s.removePhase reg (s.burstPhase reg) 1 load
    else if disagreement && decide (50 ≤ burstUs) then s.removePhase reg (s.burstPhase reg) 2 load
    else s

/-- HOUSEKEEPING_TICK (R102): sense disagreement over the short bursts since the last tick, in DORMANT and BASE. -/
def execHousekeepingTick (disagreeA disagreeB disagreeIo : Bool) (load : RailLoad) (s : State) : Res :=
  whenOk (decide (s.rd O.POWER_STATE ≤ 2)) s fun s =>
    [(0, disagreeA), (1, disagreeB), (2, disagreeIo)].foldl (fun s p =>
      if p.2 && s.regBursts p.1 then s.removePhase p.1 (s.burstPhase p.1) 2 load else s) s

/-- The action of Table 3.3 for a rail, by its position in Table 3.1. -/
def State.railAction (s : State) (rail : Nat) : State :=
  if rail = 0 then
    ([0, 1, 2].foldl (fun s g => s.setEv (O.REG_STATE g) 0 0x0101 (0x30 + g) 0) s).safeState 1 0x33
  else if 2 ≤ rail ∧ rail ≤ 5 then s.holdUnits [0x19, 0x1A, 0x1B, 0x1C] 0x0101
  else if rail = 6 ∨ rail = 7 then s.holdUnits [0x20, 0x21, 0x22, 0x23, 0x24] 0x0101
  else if rail = 8 then (s.holdUnits [0x27] 0x0101).refreshBias
  else s

/-- RAIL_EXCURSION (R84, Table 3.3): acted on once until the rail has been back in range for 1 ms. VDD_AON has its
own comparator (AON_UNDERVOLTAGE). -/
def execRailExcursion (rail : Fin 9) (high : Bool) (mv : Fin 65536) (s : State) : Res :=
  if rail = 1 ∧ !high ∧ mv.val < 720 ∧ s.released then .next ((s.powerUp 2).startBringup false)
  else whenOk (s.ready 0x33 && rail != 1 && !s.pins.railActed.testBit rail) s fun s =>
    let s := { s with pins := { s.pins with railActed := setBit s.pins.railActed rail } }
    let s := s.put (O.RAIL_MV rail) (.n mv)
    let s := s.railAction rail
    let st := setBit (clrBit (s.rd (O.RAIL_STATUS rail)) 0) (if high then 2 else 1)
    let s := s.setEv (O.RAIL_STATUS rail) st 0x0101 0x33 0
    s.err 0x0101 (if rail = 0 then 4 else 3) 0x33 0xFF (rail + 1) (mv * 65536 + if high then 2 else 1)

/-- RAIL_BACK_IN_RANGE (R84): bit 0 of RAIL_STATUS; after 1 ms in range the rail is acted on again. -/
def execRailBackInRange (rail : Fin 9) (forOneMs : Bool) (s : State) : Res :=
  whenOk (s.ready 0x33) s fun s =>
    let s := s.wr (O.RAIL_STATUS rail) (setBit (s.rd (O.RAIL_STATUS rail)) 0)
    if forOneMs then { s with pins := { s.pins with railActed := clrBit s.pins.railActed rail } } else s

/-! ### Frequency loops and thermal limits -/

/-- POWER_LIMIT_WINDOW (R93): the ceiling falls or rises by 25 MHz a window. -/
def execPowerLimitWindow (die : Fin 2) (powerMw : Fin 4294967296) (s : State) : Res :=
  whenOk (s.ready 0x33 && s.dieServes die) s fun s =>
    let s := s.put (O.DIE_POWER_MW die) (.n powerMw)
    let x := s.lim die
    let top := max (s.rd (O.FREQ_MAX_MHZ (2 * die))) (s.rd (O.FREQ_MAX_MHZ (2 * die + 1)))
    let hot := decide (s.rd (O.DIE_POWER_LIMIT_MW die) < powerMw)
    let c := if hot then max 200 (min x.powerCeiling x.regCeiling - 25)
      else if x.powerCeiling < top then min top (x.powerCeiling + 25) else x.powerCeiling
    let s := if hot then s else s.setMismatch (O.DIE_POWER_LIMIT_MW die) false
    ((s.modLim die fun x => { x with powerCeiling := c }).showCeiling die).applyDie die

/-- VF_LOOP_STEP (R135, R136): each Rink's frequency from demand, each die's voltage; bounds are met again. -/
def execVfLoopStep (demand0 demand1 demand2 demand3 : Fin 2048) (s : State) : Res := whenAlive s fun s =>
  let s := (s.modLim 0 fun x => { x with demand := [demand0, demand1] }).modLim 1 fun x =>
    { x with demand := [demand2, demand3] }
  let s := (s.applyDie 0).applyDie 1
  { s with mismatch := s.mismatch.filter fun k => !decide (0x2230 ≤ keyIdx k ∧ keyIdx k ≤ 0x2233) }

/-- THERMAL_THROTTLE_STEP (R138): at or above the threshold, 25 MHz less. -/
def execThermalThrottleStep (die : Fin 2) (tj : Int) (s : State) : Res :=
  whenOk (decide (s.rdI 16 O.THERMAL_THROTTLE_C ≤ tj) && s.ready 0x33) s fun s =>
    let s := s.put (O.TJ_C die) (.n (toU 16 tj))
    let fs := [s.freqNow (2 * die), s.freqNow (2 * die + 1)]
    (s.modLim die fun x => { x with thermal := fs.map fun f => max 200 (f - 25) }).applyDie die

/-- THERMAL_RECOVERY_STEP (R138): more than 2 °C below the threshold, 25 MHz more until the limit ends. -/
def execThermalRecoveryStep (die : Fin 2) (tj : Int) (s : State) : Res :=
  whenOk (decide (tj + 2 < s.rdI 16 O.THERMAL_THROTTLE_C) && s.ready 0x33) s fun s =>
    let s := s.put (O.TJ_C die) (.n (toU 16 tj))
    let up := fun (i : Nat) =>
      let c := nth (s.lim die).thermal i 1200 + 25
      if s.wanted (2 * die + i) ≤ c then 1200 else c
    (s.modLim die fun x => { x with thermal := [up 0, up 1] }).applyDie die

/-- THERMAL_CRITICAL (R138): the die stops in the Snowplough, or the device for the I/O die (number 2). -/
def execThermalCritical (die : Fin 3) (tj : Int) (s : State) : Res :=
  whenOk (decide (s.rdI 16 O.THERMAL_CRITICAL_C ≤ tj) && s.ready 0x33) s fun s =>
    let s := s.put (O.TJ_C die) (.n (toU 16 tj))
    let s := s.err 0x0106 (if die = 2 then 4 else 2) 0x33 0xFF die (toU 32 tj)
    if die = 2 then s.safeState 5 0x33
    else
      let s := s.snowplough die 6 0xFF
      (s.modLim die fun x => { x with waitCool := true }).applyDie die

/-- THERMAL_COOLED (R138): the die may restart once it is 10 °C or more below the threshold. -/
def execThermalCooled (die : Fin 2) (tj : Int) (s : State) : Res :=
  whenOk (decide (tj + 10 ≤ s.rdI 16 O.THERMAL_THROTTLE_C) && (s.lim die).waitCool) s fun s =>
    (s.put (O.TJ_C die) (.n (toU 16 tj))).modLim die fun x => { x with waitCool := false }

/-! ### Clocks -/

/-- REF38_LOSS (R103, Table 4.4). The check runs against AON_FAST_CLK while the reference is not gated (R101). -/
def execRef38Loss (s : State) : Res :=
  whenOk (decide (3 ≤ s.rd O.POWER_STATE)) s fun s =>
    let s := s.setEv O.REF38_STATE 2 0x0103 0xFF 0
    (s.err 0x0103 4 0xFF 0xFF 0xFF 0).safeState 3 0xFF

/-- The units a PLL feeds and its severity (Tables 4.2 and 4.4). -/
def pllUnits (n : Nat) : List Nat :=
  match n with
  | 1 => [0x22, 0x25, 0x26]
  | 2 => [0x27, 0x28]
  | 8 => [0x20]
  | 9 => [0x21]
  | _ => []

/-- PLL_UNLOCK (R103, Table 4.4). -/
def execPllUnlock (n : Fin 14) (s : State) : Res :=
  whenOk ((s.rd O.PLL_LOCKED).testBit n) s fun s =>
    let unit := if n.val < 1 ∨ n.val = 3 then 0xFF else if 10 ≤ n.val then 0x10 + (n.val - 10)
      else if 4 ≤ n.val ∧ n.val < 8 then 0x19 + (n.val - 4) else (pllUnits n).headD 0xFF
    let s := s.inc O.PLL_UNLOCKS
    let s := s.setEv O.PLL_LOCKED (clrBit (s.rd O.PLL_LOCKED) n) 0x0103 unit 0
    let sev := if n.val = 0 ∨ n.val = 3 then 4 else if 10 ≤ n.val then 2 else 3
    let s := s.err 0x0103 sev unit 0xFF n 0
    if n.val = 0 ∨ n.val = 3 then s.safeState 4 0xFF
    else if 10 ≤ n.val then (s.snowplough ((n.val - 10) / 2) 4 unit).put (O.RINK_FREQ (n.val - 10)) (.n 0)
    else if 4 ≤ n.val ∧ n.val < 8 then s.holdUnit (0x19 + (n.val - 4)) 0x0103
    else (s.holdUnits (pllUnits n) 0x0103).refreshBias

/-- XTAL32K_QUALIFIED (R97): not after a failure, which holds until the next release of POR_N. -/
def execXtal32kQualified (s : State) : Res :=
  whenOk (s.rd O.XTAL32K_STATE == 0) s fun s =>
    (s.put O.XTAL32K_START (.n ((s.clock - s.porAt) / 1000000 % 65536))).wr O.XTAL32K_STATE 1

/-- XTAL32K_FAILURE (R97). -/
def execXtal32kFailure (ppm : Fin 4294967296) (s : State) : Res :=
  whenOk (s.rd O.XTAL32K_STATE == 1) s fun s =>
    (s.setEv O.XTAL32K_STATE 2 0x0104 0x2B 0).err 0x0104 2 0x2B 0xFF 0 ppm

/-! ### Balls -/

/-- HOST_WAKE (R68): request source 2, while the device does not drive the line. -/
def execHostWake (s : State) : Res := whenOk (!s.pins.wakeDriven) s fun s => s.wakeSource 2

/-- PTT_PRESS (R70): source 1, and it latches a ring wake. -/
def execPttPress (s : State) : Res :=
  whenOk (!s.pins.pttPressed && !s.pins.pttBlocked) s fun s =>
    let s := { s with pins := { s.pins with pttPressed := true } }
    (s.wakeSource 1).latchWake 1 false

/-- PTT_RELEASE (R70). -/
def execPttRelease (s : State) : Res := whenAlive s fun s =>
  { s with pins := { s.pins with pttPressed := false, pttBlocked := false } }

/-- SB_CS_N_FALLING (R116): SPI traffic is request source 3; the transaction starts (R39). -/
def execSbCsNFalling (s : State) : Res :=
  .next (if s.released then
      let s := { s with pins := { s.pins with csLow := true }, spi := { s.spi with ignoring := false, sdo := [] } }
      if s.on O.DEVICE_SAFE then s else s.wakeSource 3
    else s)

end Sys2Proof.Machine
end

