-- ==== Sys2Proof/Machine/OpsSpatial.lean ====
section
/-!
DEFINITION. Tiles of class SPATIAL and BOX: direct, depthwise and transposed convolution (R224-R229), the exact
Winograd path (R230-R237), ELEMENTWISE on images (R200), WARP and CROP_RESIZE (R238-R246), and fused groups
(R213-R216).
-/

namespace Sys2Proof.Machine

/-- An input image of one frame: the element of channel `c` at (x, y), padding included (R212). -/
structure Image where
  desc : Desc
  get : Nat → Int → Int → Elem
  /-- Extents along x and y. -/
  w : Nat
  h : Nat

/-- Frame `f` of a tensor in memory. -/
def Ctx.image2 (x : Ctx) (d : Desc) (f : Nat) : Image :=
  { desc := d, w := d.d1, h := d.d2,
    get := fun c i j =>
      if decide (c < d.d0 ∧ 0 ≤ i ∧ i < d.d1 ∧ 0 ≤ j ∧ j < d.d2) then x.env.elem d (ix c i.toNat j.toNat f)
      else padElem d }

/-- A rectangle of positions: origin (which may be negative) and extent. -/
structure Region where
  x0 : Int
  y0 : Int
  w : Nat
  h : Nat
deriving DecidableEq, Repr

/-- The part of a region inside a `w` by `h` extent (R215). -/
def Region.clip (r : Region) (w h : Nat) : Region :=
  let x0 := max 0 r.x0
  let y0 := max 0 r.y0
  { x0, y0, w := (min (w : Int) (r.x0 + r.w) - x0).toNat, h := (min (h : Int) (r.y0 + r.h) - y0).toNat }

/-- Positions in row-major order. -/
def Region.positions (r : Region) : List (Int × Int) :=
  (List.range (r.w * r.h)).map fun k => (r.x0 + ((k % r.w : Nat) : Int), r.y0 + ((k / r.w : Nat) : Int))

/-- The tensor index of a channel at a position of frame `f`. -/
def ixAt (f c : Nat) (p : Int × Int) : Ix := ix c p.1.toNat p.2.toNat f

/-! ### Convolutions -/

/-- The taps of a convolution for an output position: input positions in (ky, kx) order, none where a transposed
convolution's tap does not meet the position (R224, R228, R229). -/
def Macro.tapAt (m : Macro) (p : Int × Int) (ky kx : Nat) : Option (Int × Int) :=
  if m.is .tconv then
    let nx := p.1 + m.pl - kx * m.dw
    let ny := p.2 + m.pt - ky * m.dh
    if nx % (m.sw : Int) = 0 ∧ ny % (m.sh : Int) = 0 then some (nx / (m.sw : Int), ny / (m.sh : Int)) else none
  else some (p.1 * m.sw + kx * m.dw - m.pl, p.2 * m.sh + ky * m.dh - m.pt)

/-- Input channels and output channels per group (R223, R224). -/
def Macro.cg (m : Macro) (cin : Nat) : Nat := if m.is .dwconv then 1 else cin / m.groups
def Macro.gw (m : Macro) (cout : Nat) : Nat := if m.is .dwconv then 1 else cout / m.groups

/-- The operand row of a position for group `g`, in the order of k (R223). -/
def Macro.convRow (m : Macro) (im : Image) (cg g : Nat) (p : Int × Int) : List Elem :=
  (List.range m.kh).flatMap fun ky => (List.range m.kw).flatMap fun kx =>
    match m.tapAt p ky kx with
    | some q => (List.range cg).map fun ci => im.get (g * cg + ci) q.1 q.2
    | none => (List.range cg).map fun _ => padElem im.desc

/-- The weight column of output channel `n`, in the order of k, and its W4 shifts (R170, R223). -/
def Ctx.convCol (x : Ctx) (m : Macro) (st : Staged) (w : Desc) (n : Nat) : List Elem × List Nat :=
  let kl := m.kLen w
  let cg := w.d1
  (((List.range kl).map fun k =>
      x.env.weight w kl 1 0 k n (ix n (k % cg) (k / cg % m.kw) (k / (cg * m.kw)))),
   if w.fmt = .w4 then (List.range kl).map fun k => (nth st.group (k / 128 * w.d0 + n) 0).toNat % 8 else [])

/-- The phases of a transposed convolution, or one phase of everything: positions grouped for the passes (R229).
DEDUCED: phases in ascending (φy, φx). -/
def Macro.phases (m : Macro) (r : Region) : List (List (Int × Int)) :=
  if m.is .tconv then
    (List.range m.sh).flatMap fun (fy : Nat) => (List.range m.sw).map fun (fx : Nat) =>
      r.positions.filter fun p => (p.1 + m.pl) % (m.sw : Int) == (fx : Int) && (p.2 + m.pt) % (m.sh : Int) == (fy : Int)
  else [r.positions]

/-- The positions of a layer in the order they drain: passes of 128 of each phase. -/
def Macro.drainOrder (m : Macro) (r : Region) : List (Int × Int) := (m.phases r).flatten

/-- Accumulators of the direct forms at a position for the channels `chs`, and whether a block partial was large
(R224, R227, R228). -/
def Macro.convCells (m : Macro) (im : Image) (w : Desc) (expT : Int) (cols : List (Nat × Vec)) (cin cout : Nat)
    (init : Nat → Int) (p : Int × Int) : List (Int × Bool) :=
  let cg := m.cg cin
  let gw := m.gw cout
  let bf := blockMode im.desc w
  cols.map fun (n, v) => dot expT (init n) (vecOf im.desc bf m.actWidth (m.convRow im cg (n / gw) p) []) v

/-- The corrected drain of one layer over a region: per position, each channel's accumulator; and statistics. -/
structure LayerAcc where
  rows : List ((Int × Int) × List (Nat × Int))
  stats : TileStats

/-- Initial accumulators (ACC_IN), checked as ACC48 elements. -/
def Ctx.accInit (x : Ctx) (m : Macro) (f : Nat) (p : Int × Int) (n : Nat) : Int :=
  if m.accIn then acc48Val (x.env.elem (x.desc m.c) (ixAt f n p)).code else 0

/-- A direct, depthwise or transposed convolution over a region for channels `chs` (R224-R229). Escapes are counted
once for each operand slot they reach (R226), weight escapes once for each pass. -/
def Ctx.convDirect (x : Ctx) (m : Macro) (st : Staged) (im : Image) (f : Nat) (r : Region) (chs : List Nat)
    (expT : Int) : LayerAcc :=
  let w := x.desc m.b
  let y := x.desc m.out
  let cin := im.desc.d0
  let bf := blockMode im.desc w
  let raw := chs.map fun n => (n, x.convCol m st w n)
  let cols := raw.map fun (n, es, sh) => (n, vecOf w bf 9 es sh)
  let ps := m.drainOrder r
  let rows := ps.map fun p => (p, m.convCells im w expT cols cin y.d0 (fun n => x.accInit m f p n) p)
  let cg := m.cg cin
  let gs := sortDedup (chs.map (· / m.gw y.d0))
  let acts := ps.flatMap fun p => gs.flatMap fun g => m.convRow im cg g p
  { rows := rows.map fun (p, cs) => (p, (List.zip chs cs).map fun (n, c) => (n, c.1)),
    stats := { TileStats.zero with
      escapes := countEsc acts + ceilDiv ps.length 128 * (raw.map fun (_, es, _) => countEsc es).foldl (· + ·) 0,
      nonFinite := anyNonFinite im.desc acts || raw.any fun (_, es, _) => anyNonFinite w es,
      headroom := rows.any fun (_, cs) => cs.any Prod.snd } }

/-! ### Winograd (R230-R237) -/

/-- Table 9.2. -/
def winoBt : List (List Int) := [[1, 0, -1, 0], [0, 1, 1, 0], [0, -1, 1, 0], [0, 1, 0, -1]]
def winoAt : List (List Int) := [[1, 1, 1, 0], [0, 1, -1, -1]]
def winoH : List (List Int) := [[1, 0, 0, 0], [0, 1, -1, 0], [0, 0, 0, 1]]

/-- `l` times `d` times the transpose of `l`, entry (i, j). -/
def sandwich (l : List (List Int)) (d : Nat → Nat → Int) (i j : Nat) : Int :=
  (List.range 4).foldl (fun s a => (List.range 4).foldl (fun s b =>
    s + nth (nth l i []) a 0 * d a b * nth (nth l j []) b 0) s) 0

/-- The transformed weight u at position p of input channel `ci` and output channel `n` (R231). -/
def Ctx.winoU (x : Ctx) (w : Desc) (p ci n : Nat) : Elem :=
  x.env.weight w w.d1 16 p ci n (ix n ci (p % 4) (p / 4))

/-- The kernel operand recovered from u (R235). -/
def Ctx.winoG (x : Ctx) (w : Desc) (ci n ky kx : Nat) : Int :=
  sandwich winoH (fun a b => (x.winoU w (4 * a + b) ci n).exact w) ky kx / 4

/-- The operand patch of a block: rows and columns that serve only discarded outputs are 0 (R237). -/
def Macro.winoPatch (m : Macro) (im : Image) (r : Region) (bx by' ci : Nat) (i j : Nat) : Int :=
  if (i = 3 ∧ r.h ≤ 2 * by' + 1) ∨ (j = 3 ∧ r.w ≤ 2 * bx + 1) then 0
  else (im.get ci (r.x0 + 2 * bx + j - m.pl) (r.y0 + 2 * by' + i - m.pt)).exact im.desc

/-- The transformed value v at position p of a block's channel (R232). -/
def Macro.winoV (m : Macro) (im : Image) (r : Region) (bx by' ci p : Nat) : Int :=
  sandwich winoBt (m.winoPatch im r bx by' ci) (p / 4) (p % 4)

/-- Whether a transformed value fits the multiplier (R232). -/
def winoFits (f : Fmt) (v : Int) : Bool :=
  if f = .q16a then decide (-65536 ≤ v ∧ v ≤ 65535) else decide (-256 ≤ v ∧ v ≤ 255)

/-- The block grid of a region in row-major order. -/
def Region.blocks (r : Region) : List (Nat × Nat) :=
  let bw := ceilDiv r.w 2
  (List.range (bw * ceilDiv r.h 2)).map fun k => (k % bw, k / bw)

/-- The transform-domain list of one 128-channel chunk of pass p, as INDEX values (R232). -/
def Macro.winoList (m : Macro) (im : Image) (r : Region) (bs : List (Nat × Nat)) (cin p ch : Nat) : List Nat :=
  (bs.mapIdx fun k b => ((List.range (min 128 (cin - 128 * ch))).filter fun c =>
      !winoFits im.desc.fmt (m.winoV im r b.1 b.2 (128 * ch + c) p)).map fun c => k * 128 + c).flatten

/-- R236: whether a pass group is computed by direct convolution. -/
def Macro.winoFalls (m : Macro) (im : Image) (r : Region) (bs : List (Nat × Nat)) (cin : Nat) : Bool :=
  (List.range 16).any fun p =>
    ((List.range (ceilDiv cin 128)).any fun ch => decide (255 < (m.winoList im r bs cin p ch).length)) ||
    bs.any fun b => (List.range cin).any fun ci => !decide (-8388608 ≤ m.winoV im r b.1 b.2 ci p ∧
      m.winoV im r b.1 b.2 ci p ≤ 8388607)

/-- The value R of an output of a block (R233, R234), or on the fallback four times the direct sum. -/
def Ctx.winoR (x : Ctx) (m : Macro) (im : Image) (w : Desc) (r : Region) (falls : Bool) (b : Nat × Nat) (n oy ox : Nat) :
    Int :=
  let cis := List.range w.d1
  if falls then
    4 * (cis.foldl (fun s ci => (List.range 3).foldl (fun s ky => (List.range 3).foldl (fun s kx =>
      s + m.winoPatch im r b.1 b.2 ci (oy + ky) (ox + kx) * x.winoG w ci n ky kx) s) s) 0)
  else
    let mm := fun (i j : Nat) => wrap48 (cis.foldl (fun s ci =>
      s + m.winoV im r b.1 b.2 ci (4 * i + j) * (x.winoU w (4 * i + j) ci n).exact w) 0)
    (List.range 4).foldl (fun s a => (List.range 4).foldl (fun s c =>
      s + nth (nth winoAt oy []) a 0 * mm a c * nth (nth winoAt ox []) c 0) s) 0

/-- A WINO layer over a region for channels `chs`, in pass groups of 128 blocks by a 128-channel block. DEDUCED: the
kept outputs of a block drain in row-major order. -/
def Ctx.convWino (x : Ctx) (m : Macro) (im : Image) (f : Nat) (r : Region) (chs : List Nat) : LayerAcc :=
  let w := x.desc m.b
  let groups := (chunksOf 128 r.blocks).map fun bs => (bs, m.winoFalls im r bs w.d1)
  let rows := groups.flatMap fun (bs, falls) => bs.flatMap fun b =>
    [(0, 0), (0, 1), (1, 0), (1, 1)].filterMap fun ((oy, ox) : Nat × Nat) =>
      if 2 * b.1 + ox < r.w ∧ 2 * b.2 + oy < r.h then
        let p : Int × Int := (r.x0 + ((2 * b.1 + ox : Nat) : Int), r.y0 + ((2 * b.2 + oy : Nat) : Int))
        some (p, chs.map fun n =>
          let rr := wrap48 (x.winoR m im w r falls b n oy ox)
          (n, wrap48 (rr / 4 + x.accInit m f p n), big 46 rr && !falls))
      else none
  let blocks := sortDedup (chs.map (· / 128))
  let ws := blocks.length * (groups.length * ((List.range 16).map fun p =>
    countEsc (chs.flatMap fun n => (List.range w.d1).map fun ci => x.winoU w p ci n)).foldl (· + ·) 0)
  let as := blocks.length * (groups.map fun (bs, falls) => if falls then 0 else
    ((List.range 16).map fun p => ((List.range (ceilDiv w.d1 128)).map fun ch =>
      (m.winoList im r bs w.d1 p ch).length).foldl (· + ·) 0).foldl (· + ·) 0).foldl (· + ·) 0
  { rows := rows.map fun (p, cs) => (p, cs.map fun (n, v, _) => (n, v)),
    stats := { TileStats.zero with
      escapes := as + ws / max 1 blocks.length,
      opstat := blocks.length * (groups.filter Prod.snd).length,
      headroom := rows.any fun (_, cs) => cs.any fun (_, _, h) => h } }

/-- A convolution layer over a region. -/
def Ctx.convLayer (x : Ctx) (m : Macro) (st : Staged) (im : Image) (f : Nat) (r : Region) (chs : List Nat)
    (expT : Int) : LayerAcc :=
  if m.wino then x.convWino m im f r chs else x.convDirect m st im f r chs expT

/-! ### ELEMENTWISE on images, and sampling -/

/-- The place in B of an element of OUT, broadcast along extents of 1 (R200). -/
def broadcast (b : Desc) (i : Ix) : Ix :=
  let g := fun (d k : Nat) => if d = 1 then 0 else k
  { i0 := g b.d0 i.i0, i1 := g b.d1 i.i1, i2 := g b.d2 i.i2, i3 := g b.d3 i.i3, i4 := g b.d4 i.i4 }

/-- R238: the tap of an image channel, by the edge rule. -/
def sampleTap (edge : Nat) (w h : Nat) (get : Int → Int → Int) (x y : Int) : Int :=
  if decide (0 ≤ x ∧ x < w ∧ 0 ≤ y ∧ y < h) then get x y
  else if edge = 0 then 0
  else get (clampI 0 ((w : Int) - 1) x) (clampI 0 ((h : Int) - 1) y)

/-- R238. -/
def sampleAt (interp edge w h : Nat) (get : Int → Int → Int) (px py : Int) : Int :=
  let tap := sampleTap edge w h get
  if interp = 0 then tap ((px + 128) / 256) ((py + 128) / 256) * 65536
  else
    let i := px / 256
    let j := py / 256
    let fx := px % 256
    let fy := py % 256
    (256 - fx) * (256 - fy) * tap i j + fx * (256 - fy) * tap (i + 1) j +
    (256 - fx) * fy * tap i (j + 1) + fx * fy * tap (i + 1) (j + 1)

/-- The exact operand of an image's channel in frame `f`. -/
def Ctx.pixel (x : Ctx) (d : Desc) (f c : Nat) (i j : Int) : Int := (x.env.elem d (ix c i.toNat j.toNat f)).exact d

/-- A flow component clamped to MAXDISP, and whether it was clamped (R244). -/
def Ctx.flow (x : Ctx) (m : Macro) (ch f : Nat) (p : Int × Int) : Int × Bool :=
  let d := x.desc m.b
  let c := (x.env.elem d (ix ch p.1.toNat p.2.toNat (if d.d3 = 1 then 0 else f))).code
  let v := ((c : Int) - (d.zp : Int)) * ((2 ^ (d.exp + 8).toNat : Nat) : Int)
  let lim : Int := 256 * (m.p 0x1A 2 : Int)
  let k := clampI (-lim) lim v
  (k, decide (k ≠ v))

/-- The channels of block `cb` of a tensor. -/
def chanBlock (d0 cb : Nat) : List Nat := ((List.range 128).map (· + 128 * cb)).filter (· < d0)

/-- Cells of rows given per position and channel. -/
def Ctx.spatialCells (x : Ctx) (m : Macro) (st : Staged) (f : Nat) (b : Ix → Int)
    (rows : List ((Int × Int) × List (Nat × Int))) : List (List Cell) :=
  rows.map fun (p, cs) => cs.map fun (n, acc) =>
    { at' := ixAt f n p, elem := { acc, b := b (ixAt f n p), entry := x.entryFor m st n } }

/-- The output region of tile `t` (Table 8.8). -/
def Ctx.tileRegion (x : Ctx) (out : Nat) (p : Plan) (t : Nat) : Region :=
  let y := x.desc out
  Region.clip { x0 := ((p.coord 3 t * p.p1 : Nat) : Int), y0 := ((p.coord 2 t * p.p0 : Nat) : Int), w := p.p1, h := p.p0 }
    y.d1 y.d2

/-- The input positions a convolution reads for a region, inside the extents. -/
def Macro.inputPositions (m : Macro) (d : Desc) (r : Region) : List (Int × Int) :=
  (r.positions.flatMap fun p => (List.range m.kh).flatMap fun ky => (List.range m.kw).filterMap fun kx =>
    m.tapAt p ky kx).filter fun q => decide (0 ≤ q.1 ∧ q.1 < d.d1 ∧ 0 ≤ q.2 ∧ q.2 < d.d2)

/-- The input channels a layer's channels need. -/
def Macro.inputChannels (m : Macro) (cin cout : Nat) (chs : List Nat) : List Nat :=
  if m.is .dwconv then chs
  else
    let cg := m.cg cin
    (sortDedup (chs.map (· / m.gw cout))).flatMap fun g => (List.range cg).map (· + g * cg)

/-- The engine-ready tiles of a convolution's weights for channels `chs`. -/
def Ctx.weightTiles (x : Ctx) (m : Macro) (chs : List Nat) : List ErtPos :=
  let w := x.desc m.b
  let kl := m.kLen w
  if w.ert then (List.range (if m.wino then 16 else 1)).flatMap fun p => chs.flatMap fun n =>
    (List.range kl).map fun k => w.weightPos kl (if m.wino then 16 else 1) p k n
  else []

/-- The checks a convolution's tile makes of what it reads (R188, R304): activation tiles if the input is in memory,
weight tiles, group offsets, initial accumulators. -/
def Ctx.convReads (x : Ctx) (m : Macro) (st : Staged) (fromMem : Bool) (f : Nat) (r : Region) (chs : List Nat) :
    Except Bad Nat := do
  let a := x.desc m.a
  let w := x.desc m.b
  let aPos := if fromMem && a.ert then
      (m.inputPositions a r).flatMap fun q => (m.inputChannels a.d0 (x.desc m.out).d0 chs).map fun c =>
        a.ertPos (ixAt f c q)
    else []
  let wPos := x.weightTiles m chs
  x.ertsOk a false false aPos
  x.ertsOk w true m.wino wPos
  if w.fmt == .w4 && chs.any (fun n => (List.range (ceilDiv (m.kLen w) 128)).any fun g => groupBad st w.d0 (128 * g) n) then
    throw (.format 8)
  if m.accIn && r.positions.any (fun p => chs.any fun n =>
      !acc48Ok (x.env.elem (x.desc m.c) (ixAt f n p)).code) then throw (.format 9)
  pure (x.transposed a false aPos + x.transposed w true wPos)

/-- The side lists of a convolution's tile, in the order of R226 (direct) or R233 (Winograd). -/
def Ctx.convEscapes (x : Ctx) (m : Macro) (im : Image) (fromMem : Bool) (f : Nat) (r : Region) (chs : List Nat) :
    List Nat :=
  let a := x.desc m.a
  let w := x.desc m.b
  let wt := x.weightTiles m chs
  let wnt := (wt.head?.map ErtPos.nt).getD 0
  if m.wino then
    (chunksOf 128 r.blocks).flatMap fun bs => (List.range 16).flatMap fun p =>
      ((List.range (ceilDiv w.d1 128)).flatMap fun ch => m.winoList im r bs w.d1 p ch) ++
      x.escIndices ((sortDedup ((chs.flatMap fun n => (List.range w.d1).map fun k =>
        (w.weightPos w.d1 16 p k n).n))).map fun n => (w, wnt, n))
  else
    let aPos := if fromMem && a.ert then
        (m.inputPositions a r).flatMap fun q => (m.inputChannels a.d0 (x.desc m.out).d0 chs).map fun c =>
          a.ertPos (ixAt f c q)
      else []
    x.escIndices ((sortDedup (aPos.map ErtPos.n)).map fun n => (a, (aPos.head?.map ErtPos.nt).getD 0, n)) ++
    x.escIndices ((sortDedup (wt.map ErtPos.n)).map fun n => (w, wnt, n))

/-- A CONV, DWCONV or TCONV tile. -/
def Ctx.evalConv (x : Ctx) (m : Macro) (st : Staged) (img : FabImage) (p : Plan) (t : Nat) : Except Bad TileOut := do
  let y := x.desc m.out
  let f := p.coord 0 t
  let r := x.tileRegion m.out p t
  let chs := chanBlock y.d0 (p.coord 1 t)
  let tr ← x.convReads m st true f r chs
  let im := x.image2 (x.desc m.a) f
  let la := x.convLayer m st im f r chs (x.accExpOf m)
  let (es, s) := finishTile x.env m img y (x.accExpOf m) t (some (x.convEscapes m im true f r chs))
    (x.spatialCells m st f (fun _ => 0) la.rows)
  let o := outWrites x.env y es
  pure { o with stats := { ((o.stats.add s).add la.stats) with transposed := tr } }

/-- The checks of the tiles of an operand read at given indices. -/
def Ctx.readsOk (x : Ctx) (d : Desc) (is : List Ix) : Except Bad Nat := do
  let ps := if d.ert then is.map d.ertPos else []
  x.ertsOk d false false ps
  pure (x.transposed d false ps)

/-- A SPATIAL ELEMENTWISE tile (R200). -/
def Ctx.evalElemSpatial (x : Ctx) (m : Macro) (st : Staged) (img : FabImage) (p : Plan) (t : Nat) :
    Except Bad TileOut := do
  let y := x.desc m.out
  let a := x.desc m.a
  let b := x.desc m.b
  let f := p.coord 0 t
  let r := x.tileRegion m.out p t
  let chs := chanBlock y.d0 (p.coord 1 t)
  let is := r.positions.flatMap fun q => chs.map fun c => ixAt f c q
  let t1 ← x.readsOk a is
  let t2 ← if m.b = 0xFFFF then pure 0 else x.readsOk b (is.map (broadcast b))
  let rows := r.positions.map fun q => (q, chs.map fun c => (c, x.env.val a (ixAt f c q)))
  let bv := fun i => if m.b = 0xFFFF then 0 else x.env.val b (broadcast b i)
  let (es, s) := finishTile x.env m img y (x.accExpOf m) t none (x.spatialCells m st f bv rows)
  let o := outWrites x.env y es
  pure { o with stats := { o.stats.add s with transposed := t1 + t2 } }

/-- A WARP tile (R243-R245). -/
def Ctx.evalWarp (x : Ctx) (m : Macro) (st : Staged) (img : FabImage) (p : Plan) (t : Nat) : Except Bad TileOut := do
  let y := x.desc m.out
  let a := x.desc m.a
  let f := p.coord 0 t
  let r := x.tileRegion m.out p t
  let chs := chanBlock y.d0 (p.coord 1 t)
  let b := x.desc m.b
  let fb := if b.d3 = 1 then 0 else f
  let t1 ← x.readsOk b (r.positions.flatMap fun q => [ixAt fb 0 q, ixAt fb 1 q])
  let at' := fun (q : Int × Int) => (256 * q.1 + (x.flow m 0 f q).1, 256 * q.2 + (x.flow m 1 f q).1)
  let near := fun (w : Nat) (v : Int) => (List.range 2).map fun (k : Nat) => (clampI 0 ((w : Int) - 1) (v / 256 + k))
  let t2 ← x.readsOk a (r.positions.flatMap fun q => (near a.d1 (at' q).1).flatMap fun i =>
    (near a.d2 (at' q).2).flatMap fun j => chs.map fun c => ixAt f c (i, j))
  let rows := r.positions.map fun q => (q, chs.map fun c =>
    (c, wrap48 (sampleAt (m.p 0x18 1) (m.p 0x19 1) a.d1 a.d2 (x.pixel a f c) (at' q).1 (at' q).2)))
  let clamped := (if p.coord 1 t = 0 then r.positions else []).foldl (fun n q =>
    n + (if (x.flow m 0 f q).2 then 1 else 0) + (if (x.flow m 1 f q).2 then 1 else 0)) 0
  let (es, s) := finishTile x.env m img y (x.accExpOf m) t none (x.spatialCells m st f (fun _ => 0) rows)
  let o := outWrites x.env y es
  pure { o with stats := { o.stats.add s with transposed := t1 + t2, opstat := clamped } }

/-- A box of the staged list (Table 9.4). -/
structure Box where
  x0 : Int
  y0 : Int
  x1 : Int
  y1 : Int
  frame : Nat
  valid : Bool
deriving DecidableEq, Repr

def Staged.box (st : Staged) (n : Nat) : Box :=
  let b := slice st.boxes (32 * n) 32
  { x0 := sx 32 (field b 0 4), y0 := sx 32 (field b 4 4), x1 := sx 32 (field b 8 4), y1 := sx 32 (field b 12 4),
    frame := field b 0x10 2, valid := (field b 0x12 1).testBit 0 }

/-- A nonzero reserved field in a box (R240). -/
def boxReserved (bs : List Byte) (n : Nat) : Bool :=
  let b := slice bs (32 * n) 32
  decide (2 ≤ field b 0x12 1) || field b 0x13 13 != 0

/-- Skipped for geometry or frame (R241). -/
def Box.bad (b : Box) (frames : Nat) : Bool := decide (b.x1 ≤ b.x0 ∨ b.y1 ≤ b.y0 ∨ frames ≤ b.frame)

/-- A CROP_RESIZE tile (R240-R242): one box, one channel block, H_b rows. A skipped box counts in the tile of its
first row block and channel block. -/
def Ctx.evalCrop (x : Ctx) (m : Macro) (st : Staged) (img : FabImage) (p : Plan) (t : Nat) : Except Bad TileOut := do
  let y := x.desc m.out
  let a := x.desc m.a
  let n := p.coord 0 t
  let bx := st.box n
  let chs := chanBlock y.d0 (p.coord 1 t)
  let r := Region.clip { x0 := 0, y0 := ((p.coord 2 t * p.p0 : Nat) : Int), w := y.d1, h := p.p0 } y.d1 y.d2
  let skip := !bx.valid || bx.bad a.d3
  let px := fun (o : Int) => bx.x0 - 128 + divRhe ((2 * o + 1) * (bx.x1 - bx.x0)) (2 * y.d1)
  let py := fun (o : Int) => bx.y0 - 128 + divRhe ((2 * o + 1) * (bx.y1 - bx.y0)) (2 * y.d2)
  let near := fun (w : Nat) (v : Int) => (List.range 2).map fun (k : Nat) => (clampI 0 ((w : Int) - 1) (v / 256 + k))
  let tr ← if skip then pure 0 else
    x.readsOk a (r.positions.flatMap fun q => (near a.d1 (px q.1)).flatMap fun i =>
      (near a.d2 (py q.2)).flatMap fun j => chs.map fun c => ixAt bx.frame c (i, j))
  let rows := r.positions.map fun q => (q, chs.map fun c => (c, if skip then 0 else
    wrap48 (sampleAt (m.p 0x18 1) (m.p 0x19 1) a.d1 a.d2 (x.pixel a bx.frame c) (px q.1) (py q.2))))
  let cells := rows.map fun (q, cs) => cs.map fun (c, acc) =>
    { at' := ixAt n c q, elem := { acc, b := 0, entry := x.entryFor m st c } : Cell }
  let (es, s) := finishTile x.env m img y (x.accExpOf m) t none cells
  -- R241: a skipped crop holds the code that the rescale gives for a sum of 0.
  let es := if skip then
      (rows.flatMap fun (q, cs) => cs.map fun (c, _) =>
        { at' := ixAt n c q, v := ((st.entry c).output y.fmt 0 (x.accExpOf m)).1, keep := false : OutElem })
    else es
  let o := outWrites x.env y es
  let first := p.coord 1 t == 0 && p.coord 2 t == 0
  pure { o with stats := { o.stats.add s with
    transposed := tr, opstat := if first && bx.valid && bx.bad a.d3 then 1 else 0 } }

/-! ### Fused groups -/

/-- An intermediate of a group: the elements of one layer over its clipped region (R215). -/
structure Store where
  r : Region
  ch : Nat
  arr : Array Elem

/-- The intermediate as an input image; outside the extent it is padding (R212). -/
def Store.image (s : Store) (d : Desc) : Image :=
  { desc := d, w := d.d1, h := d.d2,
    get := fun c i j =>
      if decide (c < s.ch ∧ s.r.x0 ≤ i ∧ i < s.r.x0 + s.r.w ∧ s.r.y0 ≤ j ∧ j < s.r.y0 + s.r.h) then
        s.arr.getD (((j - s.r.y0).toNat * s.r.w + (i - s.r.x0).toNat) * s.ch + c) (padElem d)
      else padElem d }

/-- The stored elements of an intermediate's outputs (R215): quantised to the descriptor, with the escapes of R174
chosen per engine-ready tile of the region. -/
def quantised (d : Desc) (es : List OutElem) : List (Ix × Elem) :=
  if d.fmt = .q8e then
    let ps := es.map fun o => (d.ertPos o.at', o)
    (sortDedup (ps.map fun p => p.1.n)).flatMap fun n =>
      let here := ps.filter fun p => p.1.n == n
      let out := sortBy Prod.fst ((here.filter fun p => decide (p.2.v < 0 ∨ 254 < p.2.v)).map fun p =>
        (p.1.r * 128 + p.1.c, p.2.v))
      let kept := (out.take 255).map Prod.fst
      here.map fun p =>
        if kept.contains (p.1.r * 128 + p.1.c) then
          (p.2.at', { code := 255, esc := some (satI 24 (p.2.v - (d.zp : Int))) })
        else (p.2.at', { code := d.fmt.pattern p.2.v, esc := none })
  else es.map fun o => (o.at', { code := d.fmt.pattern o.v, esc := none })

/-- An intermediate from a layer's outputs. -/
def Store.ofOutputs (d : Desc) (r : Region) (es : List OutElem) : Store :=
  let arr := Array.replicate (r.w * r.h * d.d0) (padElem d)
  { r, ch := d.d0,
    arr := (quantised d es).foldl (fun (a : Array Elem) (i, e) =>
      a.setIfInBounds ((((i.i2 : Int) - r.y0).toNat * r.w + ((i.i1 : Int) - r.x0).toNat) * d.d0 + i.i0) e) arr }

/-- The regions of layers 1 to L for a tile's output region, unclipped (R214). -/
def layerRegions (layers : List Macro) (last : Region) : List Region :=
  ((layers.drop 1).foldr (fun m acc =>
    match acc with
    | [] => []
    | r :: rest =>
      let (kx, dx, sx', px) := m.axisX
      let (ky, dy, sy', py) := m.axisY
      { x0 := r.x0 * sx' - px, y0 := r.y0 * sy' - py,
        w := inExtent false (kx, dx, sx', px) r.w, h := inExtent false (ky, dy, sy', py) r.h } :: r :: rest)
    [last])

/-- What the layers of a group have produced so far. -/
structure GroupAcc where
  stores : List Store
  out : TileOut

/-- One layer of a group's tile: its inputs are the group input or earlier intermediates (R213-R216). -/
def Ctx.evalLayer (x : Ctx) (layers : List Macro) (sts : List Staged) (imgs : List FabImage) (f t : Nat)
    (regs : List Region) (tile : Region) (g : GroupAcc) (l : Nat) : Except Bad GroupAcc := do
  let m := nth layers l (x.instr 0)
  let st := nth sts l { rescale := [], group := [], boxes := [] }
  let img := nth imgs l { length := 0, digest := [], luts := [], words := [], loopWord := 0 }
  let y := x.desc m.out
  let inD := (layers.head?.map Macro.a).getD 0xFFFF
  let r := (nth regs l tile).clip y.d1 y.d2
  let chs := List.range y.d0
  let imageOf := fun (i : Nat) =>
    match (List.range l).reverse.find? fun k => (layers[k]?.map Macro.out) == some i with
    | some k => (nth g.stores k { r, ch := 0, arr := #[] }).image (x.desc i)
    | none => x.image2 (x.desc i) f
  let im := imageOf m.a
  let conv := m.convWeight
  let tr ← if conv then x.convReads m st (m.a == inD && l == 0) f r chs
    else if l == 0 then x.readsOk (x.desc m.a) (r.positions.flatMap fun q => chs.map fun c => ixAt f c q)
    else pure 0
  let _ ← if !conv && m.b == inD && m.b != 0xFFFF then
      x.readsOk (x.desc m.b) (r.positions.flatMap fun q => chs.map fun c => broadcast (x.desc m.b) (ixAt f c q))
    else pure 0
  let la : LayerAcc := if conv then
      let parts := (List.range (ceilDiv y.d0 128)).map fun cb =>
        x.convLayer m st im f r (chanBlock y.d0 cb) (x.accExpOf m)
      { rows := parts.flatMap LayerAcc.rows, stats := parts.foldl (fun s p => s.add p.stats) TileStats.zero }
    else
      { rows := (List.range (ceilDiv y.d0 128)).flatMap fun cb => r.positions.map fun q =>
          (q, (chanBlock y.d0 cb).map fun c => (c, (im.get c q.1 q.2).exact im.desc)),
        stats := TileStats.zero }
  let b := x.desc m.b
  let bIm := imageOf m.b
  let bv := fun (i : Ix) => if conv || m.b == 0xFFFF then 0 else
    let j := broadcast b i
    (bIm.get j.i0 j.i1 j.i2).exact b
  let esc := if conv then some (x.convEscapes m im (l == 0) f r chs) else none
  let (es, s) := finishTile x.env m img y (x.accExpOf m) t esc (x.spatialCells m st f bv la.rows)
  let last := l + 1 == layers.length
  let mine := es.filter fun o =>
    decide (tile.x0 ≤ o.at'.i1 ∧ (o.at'.i1 : Int) < tile.x0 + tile.w ∧ tile.y0 ≤ o.at'.i2 ∧ (o.at'.i2 : Int) < tile.y0 + tile.h)
  let o := if last || m.emit then outWrites x.env y mine else TileOut.empty
  let o := { o with stats := { (o.stats.add s).add la.stats with transposed := tr } }
  pure { stores := g.stores ++ [Store.ofOutputs y r es], out := g.out.add o }

/-- A tile of a fused group (R213-R216). -/
def Ctx.evalGroup (x : Ctx) (layers : List Macro) (sts : List Staged) (imgs : List FabImage) (p : Plan) (t : Nat) :
    Except Bad TileOut := do
  let f := p.coord 0 t
  let outD := (layers.getLast?.map Macro.out).getD 0
  let full : Region :=
    { x0 := ((p.coord 3 t * p.p1 : Nat) : Int), y0 := ((p.coord 2 t * p.p0 : Nat) : Int), w := p.p1, h := p.p0 }
  let tile := x.tileRegion outD p t
  let regs := layerRegions layers full
  let g ← (List.range layers.length).foldlM (fun g l => x.evalLayer layers sts imgs f t regs tile g l)
    { stores := [], out := TileOut.empty }
  pure g.out

end Sys2Proof.Machine
end

