-- ==== Sys2Proof/Machine/OpsData.lean ====
section
/-!
DEFINITION. Tiles of class STREAM and ROW: ELEMENTWISE on streams (R200), REDUCE (R201), GATHER and SCATTER (R202),
COPY (R203).
-/

namespace Sys2Proof.Machine

/-- The elements of engine-ready tile `n` of a tensor inside its extents, by tile row (R302). -/
def Desc.ertRowsOf (d : Desc) (n : Nat) : List (List Ix) :=
  let h := d.fmt.ertRows
  let rb := ceilDiv d.d1 h
  let cb := ceilDiv d.d0 128
  let beta := n / cb / rb
  (List.range h).map fun r =>
    ((List.range 128).map fun c =>
      ix (n % cb * 128 + c) (n / cb % rb * h + r) (beta % d.d2) (beta / d.d2 % d.d3) (beta / (d.d2 * d.d3))).filter
      fun i => d.has i

/-- The elements of a STREAM tile in rows of at most 128: an engine-ready tile of OUT, or consecutive elements in
dense order (Table 8.8, R495). -/
def streamRows (y : Desc) (p : Plan) (t : Nat) : List (List Ix) :=
  if p.p1 = 1 then (y.ertRowsOf t).filter (· != [])
  else
    let n := min p.p0 (y.count - t * p.p0)
    (chunksOf 128 (List.range n)).map fun ks => ks.map fun k => y.ixOf (t * p.p0 + k)

/-- A STREAM ELEMENTWISE tile (R200). -/
def Ctx.evalElemStream (x : Ctx) (m : Macro) (st : Staged) (img : FabImage) (p : Plan) (t : Nat) :
    Except Bad TileOut := do
  let y := x.desc m.out
  let a := x.desc m.a
  let b := x.desc m.b
  let rows := streamRows y p t
  let t1 ← x.readsOk a rows.flatten
  let t2 ← if m.b = 0xFFFF then pure 0 else x.readsOk b (rows.flatten.map (broadcast b))
  let cells := rows.map fun r => r.map fun i =>
    { at' := i, elem := { acc := x.env.val a i, b := if m.b = 0xFFFF then 0 else x.env.val b (broadcast b i),
                          entry := x.entryFor m st i.i0 } : Cell }
  let (es, s) := finishTile x.env m img y (x.accExpOf m) t none cells
  let o := outWrites x.env y es
  pure { o with stats := { o.stats.add s with transposed := t1 + t2 } }

/-- Index `i` with coordinate `ax` set. -/
def Ix.set (i : Ix) (ax k : Nat) : Ix :=
  match ax with
  | 0 => { i with i0 := k }
  | 1 => { i with i1 := k }
  | 2 => { i with i2 := k }
  | 3 => { i with i3 := k }
  | _ => { i with i4 := k }

/-- The reduction of a list of operands (R201). -/
def reduceOf (op : Nat) (vs : List Int) : Int :=
  match op, vs with
  | 0, vs => wrap48 (vs.foldl (· + ·) 0)
  | 3, vs => wrap48 (vs.foldl (fun s v => s + v * v) 0)
  | 1, v :: vs => vs.foldl max v
  | 2, v :: vs => vs.foldl min v
  | _, _ => 0

/-- A REDUCE tile (R201). -/
def Ctx.evalReduceOp (x : Ctx) (m : Macro) (st : Staged) (img : FabImage) (p : Plan) (t : Nat) :
    Except Bad TileOut := do
  let y := x.desc m.out
  let a := x.desc m.a
  let ax := m.p 0x18 1
  let n := nth a.dims ax 1
  let rows := streamRows y p t
  let along := fun (i : Ix) => (List.range n).map fun k => i.set ax k
  let tr ← x.readsOk a (rows.flatten.flatMap along)
  let cells := rows.map fun r => r.map fun i =>
    { at' := i, elem := { acc := reduceOf (m.p 0x19 1) ((along i).map (x.env.val a)), b := 0,
                          entry := x.entryFor m st i.i0 } : Cell }
  let (es, s) := finishTile x.env m img y (x.accExpOf m) t none cells
  let o := outWrites x.env y es
  pure { o with stats := { o.stats.add s with transposed := tr } }

/-- An element passed on unchanged: its code, or its escape kept (R202, R203). -/
def keepElem (d : Desc) (i : Ix) (e : Elem) : OutElem :=
  match e.esc with
  | some v => { at' := i, v := v + (d.zp : Int), keep := true }
  | none =>
    { at' := i, keep := false,
      v := match d.fmt with
        | .acc48 => acc48Val e.code
        | _ => (e.code : Int) }

/-- An ACC48 element that is no sign extension (R181). -/
def Ctx.acc48Bad (x : Ctx) (d : Desc) (is : List Ix) : Bool :=
  d.fmt == .acc48 && is.any fun i => !acc48Ok (x.env.elem d i).code

/-- The rows of destination block `t`. -/
def rowBlock (n t : Nat) : List Nat := ((List.range 128).map (· + 128 * t)).filter (· < n)

/-- Index `p` of the index tensor, in dense order. -/
def Ctx.indexOf (x : Ctx) (b : Desc) (p : Nat) : Nat := (x.env.elem b (b.ixOf p)).code

/-- A GATHER tile (R202). -/
def Ctx.evalGather (x : Ctx) (m : Macro) (t : Nat) : Except Bad TileOut := do
  let y := x.desc m.out
  let a := x.desc m.a
  let b := x.desc m.b
  let rows := rowBlock y.d1 t
  let t1 ← x.readsOk b (rows.map b.ixOf)
  if rows.any fun p => decide (a.d1 ≤ x.indexOf b p) then throw (.instr 13)
  let is := rows.flatMap fun p => (List.range a.d0).map fun c => (ix c p, ix c (x.indexOf b p))
  let t2 ← x.readsOk a (is.map Prod.snd)
  if x.acc48Bad a (is.map Prod.snd) then throw (.format 9)
  let o := outWrites x.env y (is.map fun (o, i) => keepElem a o (x.env.elem a i))
  pure { o with stats := { o.stats with transposed := t1 + t2 } }

/-- A SCATTER tile (R202): REPLACE takes the largest p that names the row, ADD the sum over ascending p. -/
def Ctx.evalScatter (x : Ctx) (m : Macro) (t : Nat) : Except Bad TileOut := do
  let y := x.desc m.out
  let a := x.desc m.a
  let b := x.desc m.b
  let ps := List.range b.count
  let t1 ← x.readsOk b (ps.map b.ixOf)
  if ps.any fun p => decide (y.d1 ≤ x.indexOf b p) then throw (.instr 13)
  let rows := (rowBlock y.d1 t).map fun r => (r, ps.filter fun p => x.indexOf b p == r)
  let rows := rows.filter fun r => r.2 != []
  let used := rows.flatMap fun (_, qs) => qs.flatMap fun p => (List.range a.d0).map fun c => ix c p
  let t2 ← x.readsOk a used
  if x.acc48Bad a used then throw (.format 9)
  let es := rows.flatMap fun (r, qs) => (List.range a.d0).map fun c =>
    if m.p 0x18 1 = 1 then
      { at' := ix c r, v := wrap48 ((qs.map fun p => x.env.val a (ix c p)).foldl (· + ·) 0), keep := false : OutElem }
    else keepElem a (ix c r) (x.env.elem a (ix c (qs.getLastD 0)))
  let o := outWrites x.env y es
  pure { o with stats := { o.stats with transposed := t1 + t2 } }

/-- The source index of an element of COPY's output (R203). -/
def Macro.copySource (m : Macro) (a y : Desc) (i : Ix) : Ix :=
  let r := m.p 0x19 1
  match m.p 0x18 1 with
  | 1 => ix ((i.i2 % r * r + i.i1 % r) * y.d0 + i.i0) (i.i1 / r) (i.i2 / r) i.i3 i.i4
  | 2 => ix (i.i0 % a.d0) (r * i.i1 + i.i0 / a.d0 % r) (r * i.i2 + i.i0 / a.d0 / r) i.i3 i.i4
  | _ => i

/-- A COPY tile (R203). -/
def Ctx.evalCopy (x : Ctx) (m : Macro) (p : Plan) (t : Nat) : Except Bad TileOut := do
  let y := x.desc m.out
  let a := x.desc m.a
  let is := (streamRows y p t).flatten.map fun i => (i, m.copySource a y i)
  let tr ← x.readsOk a (is.map Prod.snd)
  if x.acc48Bad a (is.map Prod.snd) then throw (.format 9)
  let o := outWrites x.env y (is.map fun (o, i) => keepElem a o (x.env.elem a i))
  pure { o with stats := { o.stats with transposed := tr } }

end Sys2Proof.Machine
end

