-- ==== Sys2Proof/Machine/OpsRecur.lean ====
section
/-!
DEFINITION. Tiles of class CHUNK: SCAN (R279, R280) and FILTER (R281, R282), the state of a chain (R287) and the
directions (R289).
-/

namespace Sys2Proof.Machine

/-- The state of a chain per column: for SCAN one int48, for FILTER yh[1..N] then xh[1..N]. -/
abbrev ChainState := List (List Int)

/-- What a chunk's tile works on: batch, channel block, direction, chunk. -/
structure Chunk where
  b : Nat
  cb : Nat
  dir : Nat
  tc : Nat
deriving DecidableEq, Repr

def Plan.chunk (p : Plan) (t : Nat) : Chunk := { b := p.coord 0 t, cb := p.coord 1 t, dir := p.coord 2 t, tc := p.coord 3 t }

/-- Whether the tile's direction is backward (R289). -/
def Macro.backward (m : Macro) (k : Chunk) : Bool := m.p 0x18 1 == 1 || k.dir == 1

/-- The original step of row `i` of a chunk; rows past the last step have none (R275, R289). -/
def Macro.stepOf (m : Macro) (s : Nat) (k : Chunk) (i : Nat) : Option Nat :=
  let q := 128 * k.tc + i
  if q < s then some (if m.backward k then s - 1 - q else q) else none

/-- The last real row of a chunk. -/
def lastRow (s : Nat) (k : Chunk) : Nat := min 127 (s - 1 - 128 * k.tc)

/-- The input operand of row `i` and channel `c`; 0 past the last step (R279, R285). -/
def Ctx.chunkX (x : Ctx) (m : Macro) (k : Chunk) (c i : Nat) : Int :=
  let a := x.desc m.a
  match m.stepOf a.d1 k i with
  | some s => x.env.val a (ix c s k.b)
  | none => 0

/-- The decay of R279 before its clamps. -/
def Ctx.decayRaw (x : Ctx) (m : Macro) (k : Chunk) (head i : Nat) : Int :=
  let d := x.desc m.b
  match m.stepOf (x.desc m.a).d1 k i with
  | some s => (((x.env.elem d (ix head s k.b)).code : Int) - (d.zp : Int)) * ((2 ^ (d.exp + 16).toNat : Nat) : Int)
  | none => 0

def Ctx.decay (x : Ctx) (m : Macro) (k : Chunk) (head i : Nat) : Int := clampI (-2147483648) 0 (x.decayRaw m k head i)

/-- The running sums A of a chunk's decays (R280). -/
def Ctx.decaySums (x : Ctx) (m : Macro) (k : Chunk) (head : Nat) : List Int :=
  ((List.range 128).foldl (fun (s : Int × List Int) i =>
    let r := s.1 + x.decay m k head i
    (r, r :: s.2)) (0, [])).2.reverse

/-- A decay factor in units of 2^-15 (R280). -/
def decayFactor (a : Int) : Int := shrRhe (exp2Fix (satI 32 a) : Nat) 16

/-- One channel of a SCAN chunk: the carry and accumulator of each row (R280). -/
def scanColumn (sums us : List Int) (h : Int) : List (Int × Int) :=
  (List.range 128).map fun i =>
    let ai := nth sums i 0
    let carry := shrRhe (decayFactor ai * h) 15
    (carry, wrap48 (carry + (List.range (i + 1)).foldl (fun s k =>
      s + decayFactor (ai - nth sums k 0) * nth us k 0) 0))

/-- The tables of channel `c` (R281). -/
def Ctx.filterCoef (x : Ctx) (m : Macro) (c k : Nat) : Int := x.env.val (x.desc m.b) (ix k c)

/-- One channel of a FILTER chunk (R282): the carry and accumulator of each row. -/
def Ctx.filterColumn (x : Ctx) (m : Macro) (c : Nat) (xs yh xh : List Int) : List (Int × Int) :=
  let n := m.order
  let f := (-(x.desc m.b).exp).toNat
  let r := (List.range 128).map (x.filterCoef m c)
  (List.range 128).map fun i =>
    let carry := (List.range n).foldl (fun s k =>
      wrap48 (s + shrRhe (x.filterCoef m c (128 + 128 * k + i) * nth yh k 0) f +
        x.filterCoef m c (128 + 128 * n + 128 * k + i) * nth xh k 0)) 0
    (carry, wrap48 (carry + (List.range (i + 1)).foldl (fun s d => s + nth r d 0 * nth xs (i - d) 0) 0))

/-- The history after a chunk whose last real row is `last` (R282). -/
def shiftHistory (n last : Nat) (now old : List Int) : List Int :=
  (List.range n).map fun k => if k ≤ last then nth now (last - k) 0 else nth old (k - last - 1) 0

/-- The state that enters a chain (R287): SRC_C's slots, or zeros. An xh outside its range, or an ACC48 element that
is no sign extension, rejects the tile. -/
def Ctx.chainStart (x : Ctx) (m : Macro) (k : Chunk) : Except Bad ChainState := do
  let a := x.desc m.a
  let c := x.desc m.c
  let ws := if m.is .scan then 1 else 2 * m.order
  let chs := chanBlock a.d0 k.cb
  if m.c = 0xFFFF then pure (chs.map fun _ => List.replicate ws 0)
  else
    let is := chs.flatMap fun j => (List.range ws).map fun n => ix n (k.dir * a.d0 + j) k.b
    if x.acc48Bad c is then throw (.format 9)
    let st := chs.map fun j => (List.range ws).map fun n => x.env.val c (ix n (k.dir * a.d0 + j) k.b)
    if !m.is .scan && st.any (fun s => (s.drop m.order).any fun v => decide (v < -65535 ∨ 65535 < v)) then throw (.format 9)
    pure st

/-- A CHUNK tile from the state that enters it: its outputs, and the state that leaves (R275-R289). The last chunk
of a chain writes its slots of STATE_OUT. -/
def Ctx.evalChunk (x : Ctx) (m : Macro) (st : Staged) (img : FabImage) (p : Plan) (t : Nat) (s0 : ChainState) :
    Except Bad (TileOut × ChainState) := do
  let a := x.desc m.a
  let y := x.desc m.out
  let so := m.p 0x1C 2
  let k := p.chunk t
  let chs := chanBlock a.d0 k.cb
  let steps := (List.range 128).filterMap fun i => (m.stepOf a.d1 k i).map fun s => (i, s)
  let is := steps.flatMap fun (_, s) => chs.map fun c => ix c s k.b
  let tr ← x.readsOk a is
  let pw := if m.is .scan then a.d0 / (x.desc m.b).d0 else 1
  let _ ← x.readsOk (x.desc m.b) (if m.is .scan then
      steps.flatMap fun (_, s) => (sortDedup (chs.map (· / pw))).map fun h => ix h s k.b
    else chs.map fun c => ix 0 c)
  let last := lastRow a.d1 k
  let cols : List (List (Int × Int)) := (List.zip chs s0).map fun (c, s) =>
    let us := (List.range 128).map (x.chunkX m k c)
    if m.is .scan then scanColumn (x.decaySums m k (c / pw)) us (nth s 0 0)
    else x.filterColumn m c us (s.take m.order) (s.drop m.order)
  let next := (List.zip (List.zip chs s0) cols).map fun ((c, s), col) =>
    if m.is .scan then [(nth col last (0, 0)).2]
    else shiftHistory m.order last (col.map Prod.snd) (s.take m.order) ++
      shiftHistory m.order last ((List.range 128).map (x.chunkX m k c)) (s.drop m.order)
  let rows := steps.map fun (i, s) => (List.zip chs cols).map fun (c, col) =>
    { at' := ix (k.dir * a.d0 + c) s k.b,
      elem := { acc := (nth col i (0, 0)).2, b := 0, entry := x.entryFor m st (k.dir * a.d0 + c) } : Cell }
  let esc := if a.ert then
      let ps := is.map a.ertPos
      x.escIndices ((sortDedup (ps.map ErtPos.n)).map fun n => (a, (ps.head?.map ErtPos.nt).getD 0, n))
    else []
  let (es, s) := finishTile x.env m img y (x.accExpOf m) t (some esc) rows
  let o := outWrites x.env y es
  let fin := k.tc + 1 == nth p.dims 3 1
  let sd := x.desc so
  let so' := if fin && so != 0xFFFF then
      outWrites x.env sd ((List.zip chs next).flatMap fun (c, vs) =>
        vs.mapIdx fun n v => { at' := ix n (k.dir * a.d0 + c) k.b, v, keep := false : OutElem })
    else TileOut.empty
  let raised := if m.is .scan && k.dir == 0 then
      ((sortDedup (chs.map (· / pw))).filter fun h => h * pw / 128 == k.cb).foldl (fun n h =>
        n + (steps.filter fun (i, _) => decide (0 < x.decayRaw m k h i)).length) 0
    else 0
  let o := o.add so'
  pure ({ o with stats := { o.stats.add s with
      transposed := tr, opstat := raised, escapes := countEsc (is.map (x.env.elem a)),
      headroom := s.headroom || cols.any fun col => steps.any fun (i, _) => big 46 (nth col i (0, 0)).1 } }, next)

end Sys2Proof.Machine
end

