-- ==== Sys2Proof/Machine/OpsAttend.lean ====
section
/-!
DEFINITION. Attention (chapter 10): masks (R250), pages in the pool (R251-R253), the tile of ATTEND (R260-R265), the
tiles of ATTEND_BWD (R267-R270), and the page step with its swaps (R255-R259).
-/

namespace Sys2Proof.Machine

/-- Heads per KV head, G (R247). -/
def Macro.grp (m : Macro) : Nat := m.qHeads / m.kvHeads

/-- The packed row of an entry's first new token (R247). -/
def packedBase (es : List LenEntry) (s : Nat) : Nat := (es.take s).foldl (fun n e => n + e.new) 0

/-- A query row: token i of entry s and query head h. -/
structure QRow where
  s : Nat
  i : Nat
  h : Nat
deriving DecidableEq, Repr

/-- The rows of block `rb` of entry `s` and KV head `g` (R260). -/
def Macro.qRows (m : Macro) (es : List LenEntry) (s g rb : Nat) : List QRow :=
  let e := nth es s { seqId := 0, length := 0, new := 0, ptOff := 0 }
  ((List.range 128).map (· + 128 * rb)).filterMap fun r =>
    if r < m.grp * e.new then some { s, i := r / m.grp, h := g * m.grp + r % m.grp } else none

/-- Every row of an entry and KV head, in ascending number. -/
def Macro.allRows (m : Macro) (es : List LenEntry) (s g : Nat) : List QRow :=
  (List.range (m.rowBlocks (nth es s { seqId := 0, length := 0, new := 0, ptOff := 0 }))).flatMap fun rb =>
    m.qRows es s g rb

/-- R250: whether key j is allowed for a row, and the score adjustment of MASK 3. -/
def Ctx.maskAt (x : Ctx) (m : Macro) (es : List LenEntry) (q : QRow) (j : Nat) : Option Int :=
  let e := nth es q.s { seqId := 0, length := 0, new := 0, ptOff := 0 }
  let pos := e.length - e.new + q.i
  if e.length ≤ j then none
  else match m.p 0x1C 1 with
    | 0 => some 0
    | 1 => if j ≤ pos then some 0 else none
    | 2 => if j ≤ pos ∧ pos < j + m.p 0x1E 2 then some 0 else none
    | _ =>
      let d := x.desc (m.p 0x26 2)
      let c := (x.env.elem d (ix j (packedBase es q.s + q.i))).code
      if c = 0 then none else some (((c : Int) - (d.zp : Int)) * ((2 ^ (d.exp + 16).toNat : Nat) : Int))

/-- The score entry, and the dS entry (R263, R268). -/
def Ctx.scoreEntry (x : Ctx) (m : Macro) (st : Staged) : Rescale :=
  st.entry ((x.rescaleFmts m).length - (if m.is .attendBwd then 2 else 1))
def Ctx.dsEntry (x : Ctx) (m : Macro) (st : Staged) : Rescale := st.entry ((x.rescaleFmts m).length - 1)

/-- A row's query operand. -/
def Ctx.qOp (x : Ctx) (m : Macro) (es : List LenEntry) (q : QRow) (d : Nat) : Int :=
  x.env.val (x.desc m.a) (ix d q.h (packedBase es q.s + q.i))

/-- The score z of an allowed key (R263), none for a key not allowed; `key` gives its operand per head dimension. -/
def Ctx.scoreOf (x : Ctx) (m : Macro) (st : Staged) (es : List LenEntry) (key : Nat → Nat → Int) (q : QRow) (j : Nat) :
    Option Int :=
  (x.maskAt m es q j).map fun adj =>
    let a := wrap48 ((List.range m.headDim).foldl (fun s d => s + x.qOp m es q d * key j d) 0)
    satI 32 ((x.scoreEntry m st).score a + adj)

/-! ### Pages -/

/-- A page-table entry (Table 10.5). -/
structure PtEntry where
  frame : Nat
  state : Nat
  evictable : Bool
  gen : Nat
deriving DecidableEq, Repr

def PtEntry.ofNat (w : Nat) : PtEntry :=
  { frame := bits w 31 0, state := bits w 33 32, evictable := w.testBit 34, gen := bits w 63 40 }

def PtEntry.toNat (p : PtEntry) : Nat :=
  p.frame + p.state * 2 ^ 32 + (if p.evictable then 2 ^ 34 else 0) + p.gen * 2 ^ 40

/-- The page-table index of the key page (`v` 0) or value page (`v` 1) of page π and KV head g (R253). -/
def Macro.pageIndex (m : Macro) (e : LenEntry) (page g v : Nat) : Nat := 4 * e.ptOff + (page * m.kvHeads + g) * 2 + v

/-- The tile and place of an element in its page (R251): position in the page and head dimension. -/
def pagePlace (headDim : Nat) (isValue : Bool) (pos d : Nat) : Nat × Nat × Nat :=
  let db := ceilDiv headDim 128
  let j := pos / 128 * db + d / 128
  if isValue then (j, pos % 128, d % 128) else (j, d % 128, pos % 128)

/-- The addresses of tile j of frame f: payload and header (R252). -/
def KvBlock.payload (k : KvBlock) (f j : Nat) : Nat := k.poolBase + f * 65536 + j * 16384
def KvBlock.header (k : KvBlock) (f j : Nat) : Nat := k.poolBase + k.frames * 65536 + f * 256 + j * 64

/-- The operand of a cached key or value: position `pos` of the sequence, KV head, head dimension. -/
def Ctx.cached (x : Ctx) (m : Macro) (k : KvBlock) (e : LenEntry) (g : Nat) (isValue : Bool) (pos d : Nat) : Int :=
  let tp := tokensPerPage m.headDim
  let pe := PtEntry.ofNat (leNat (x.tableBytes
    (m.p 0x20 4 + 0x80 + 8 * m.pageIndex e (pos / tp) g (if isValue then 1 else 0)) 8))
  let (j, r, c) := pagePlace m.headDim isValue (pos % tp) d
  let l1 := (leNat (x.env.bytes (k.header pe.frame j + 0x0E) 2)).testBit 0
  let code := (x.env.mem (k.payload pe.frame j + ertOffset l1 .q8a r c)).toNat
  (code : Int) - ((if isValue then k.vZp else k.kZp : Nat) : Int)

/-- The message of R450 for a page's tile. -/
def pageMessage (rd : Nat → Nat → List Byte) (k : KvBlock) (f j : Nat) : List Byte :=
  rd (k.payload f j) 16384 ++ rd (k.header f j) 48

/-- A failed tag or header of a page's tile (R304). DEDUCED: SEQ is the tile's number in its page, so that a page
keeps its headers when it moves to another frame. -/
def Ctx.pageCheck (x : Ctx) (k : KvBlock) (isValue : Bool) (f j : Nat) : Option Bad :=
  let h := x.env.bytes (k.header f j) 64
  if x.env.tagOf (k.payload f j) (pageMessage x.env.bytes k f j) ≠ slice h 0x30 16 then
    some (.tag (x.env.loc (k.payload f j) / 256) (field h 8 4))
  else if field h 0 1 ≠ x.env.tenant ∨ field h 1 1 ≠ 1 ∨ sx 8 (field h 2 1) ≠ (if isValue then k.vExp else k.kExp) ∨
      field h 0x0C 2 ≠ (if isValue then k.vZp else k.kZp) ∨ field h 8 4 ≠ j ∨ 2 ≤ field h 0x0E 2 ∨
      field h 0x10 32 ≠ 0 ∨ field h 3 1 ≠ 0 ∨ field h 4 4 ≠ 0 then some (.instr 5)
  else none

/-! ### The tile of ATTEND -/

/-- A row's running soft maximum (R264): m (none: NONE), l, and the output accumulators. -/
structure SoftRow where
  m : Option Int
  l : Nat
  o : List Int
deriving DecidableEq, Repr

/-- One key block folded into a row (R264): the scores of its allowed keys, and the value operands. -/
def softBlock (val : Nat → Nat → Int) (headDim : Nat) (zs : List (Nat × Int)) (r : SoftRow) : SoftRow :=
  match zs with
  | [] => r
  | z0 :: _ =>
    let zb := (zs.map Prod.snd).foldl max z0.2
    let mn := match r.m with
      | none => zb
      | some mm => max mm zb
    let alpha : Nat := match r.m with
      | none => 0
      | some mm => exp2Fix (satI 32 (mm - mn))
    let ps := zs.map fun (j, z) => (j, shrRhe (exp2Fix (satI 32 (z - mn)) : Nat) 16)
    { m := some mn,
      l := (shrRhe ((r.l : Int) * (alpha : Int)) 31 + (ps.map Prod.snd).foldl (· + ·) 0).toNat % 2 ^ 32,
      o := (List.range headDim).map fun d =>
        wrap48 (shrRhe (nth r.o d 0 * (alpha : Int)) 31 + ps.foldl (fun s (j, p) => s + p * val j d) 0) }

/-- A row after every key block, in ascending order (R261, R264). -/
def Ctx.softRow (x : Ctx) (m : Macro) (st : Staged) (es : List LenEntry) (key val : Nat → Nat → Int) (q : QRow) :
    SoftRow :=
  let e := nth es q.s { seqId := 0, length := 0, new := 0, ptOff := 0 }
  (List.range (ceilDiv e.length 128)).foldl (fun r b =>
    softBlock val m.headDim (((List.range 128).map (· + 128 * b)).filterMap fun j =>
      (x.scoreOf m st es key q j).map fun z => (j, z)) r)
    { m := none, l := 0, o := List.replicate m.headDim 0 }

/-- The normalised outputs of a row (R265); zeros where no key was allowed. -/
def SoftRow.normal (r : SoftRow) : List Int :=
  if r.l = 0 then r.o.map fun _ => 0
  else
    let (mr, er) := recipFix r.l
    r.o.map fun v => scaleRhe (v * (mr : Int)) ((er : Int) - 46)

/-- The row statistics entry (Table 10.9). -/
def statBytes (m : Option Int) (l : Nat) : List Byte := leBytes 4 (toU 32 (m.getD (-2147483648))) ++ leBytes 4 l

/-- The writes of a row's statistics, if SAVE_STATS asks for them (R265). -/
def Ctx.statWrites (x : Ctx) (m : Macro) (es : List LenEntry) (q : QRow) (mx : Option Int) (l : Nat) : List Wr :=
  if m.p 0x1D 1 % 2 = 1 then
    wrBytes ((x.desc (m.p 0x24 2)).addr (ix 0 ((packedBase es q.s + q.i) * m.qHeads + q.h))) (statBytes mx l)
  else []

/-- Rows of the drain: at most 128 head dimensions each. -/
def headCells (x : Ctx) (m : Macro) (st : Staged) (base : Nat) (place : Nat → Ix) (vs : List Int) : List (List Cell) :=
  chunksOf 128 (vs.mapIdx fun d v =>
    { at' := place d, elem := { acc := wrap48 v, b := 0, entry := x.entryFor m st (base + d) } : Cell })

/-- A tile of ATTEND (R260-R266). `preempted` holds the entries that the page step preempted. -/
def Ctx.evalAttend (x : Ctx) (m : Macro) (st : Staged) (img : FabImage) (preempted : List Nat) (t : Nat) :
    Except Bad TileOut := do
  let es := x.lengths m
  let k := x.kv m
  let y := x.desc m.out
  let (s, g, rb) := headCoord m m.rowBlocks es t
  let e := nth es s { seqId := 0, length := 0, new := 0, ptOff := 0 }
  let rows := m.qRows es s g rb
  let at' := fun (q : QRow) (d : Nat) => ix d q.h (packedBase es q.s + q.i)
  if preempted.contains s then
    let out := rows.flatMap fun q => (List.range m.headDim).map fun d =>
      { at' := at' q d, v := ((st.entry (q.h * m.headDim + d)).output y.fmt 0 (x.accExpOf m)).1, keep := false : OutElem }
    let o := outWrites x.env y out
    pure { o with lines := o.lines ++ rows.flatMap fun q => x.statWrites m es q none 0 }
  else
    let tp := tokensPerPage m.headDim
    let pages := List.range (ceilDiv e.length tp)
    let bad := pages.findSome? fun pg => [0, 1].findSome? fun v =>
      let pe := PtEntry.ofNat (leNat (x.tableBytes (m.p 0x20 4 + 0x80 + 8 * m.pageIndex e pg g v) 8))
      (List.range 4).findSome? fun j => x.pageCheck k (v == 1) pe.frame j
    match bad with
    | some b => throw b
    | none =>
      let rs := rows.map fun q => (q, x.softRow m st es (x.cached m k e g false) (x.cached m k e g true) q)
      let cells := rs.flatMap fun (q, r) => headCells x m st (q.h * m.headDim) (at' q) r.normal
      let (os, s) := finishTile x.env m img y (x.accExpOf m) t none cells
      let o := outWrites x.env y os
      pure { o with lines := o.lines ++ rs.flatMap (fun (q, r) => x.statWrites m es q r.m r.l), stats := o.stats.add s }

/-! ### The tiles of ATTEND_BWD -/

/-- An element of a packed tensor by KV head or query head. -/
def Ctx.packed (x : Ctx) (i : Nat) (es : List LenEntry) (s head tok d : Nat) : Int :=
  x.env.val (x.desc i) (ix d head (packedBase es s + tok))

/-- A row's saved statistics (Table 10.9). -/
def Ctx.savedStats (x : Ctx) (m : Macro) (es : List LenEntry) (q : QRow) : Int × Nat :=
  let d := x.desc (m.p 0x24 2)
  let a := d.addr (ix 0 ((packedBase es q.s + q.i) * m.qHeads + q.h))
  (sx 32 (leNat ((List.range 4).map fun k => x.env.at d (a + k))), leNat ((List.range 4).map fun k => x.env.at d (a + 4 + k)))

/-- pn, dS and whether dS was clamped, for a row and an allowed key (R269); none for a key not allowed or L = 0. -/
def Ctx.bwdPair (x : Ctx) (m : Macro) (st : Staged) (es : List LenEntry) (g : Nat) (q : QRow) (j : Nat) :
    Option (Int × Int × Bool) :=
  let (mm, l) := x.savedStats m es q
  let hd := List.range m.headDim
  let dO := fun d => x.packed (m.p 0x2C 2) es q.s q.h q.i d
  if l = 0 then none
  else (x.scoreOf m st es (fun j d => x.packed m.b es q.s g j d) q j).map fun z =>
    let (mr, er) := recipFix l
    let p := shrRhe (exp2Fix (satI 32 (z - mm)) : Nat) 16
    let pn := scaleRhe (p * (mr : Int)) ((er : Int) - 47)
    let dr := wrap48 (hd.foldl (fun s d => s + dO d * x.packed (m.p 0x2E 2) es q.s q.h q.i d) 0)
    let dp := wrap48 (hd.foldl (fun s d => s + dO d * x.packed m.c es q.s g j d) 0)
    let ev := (x.desc m.c).exp
    let eo := (x.desc (m.p 0x2E 2)).exp
    let t := min ev eo
    let dl := wrap48 (dp * ((2 ^ (ev - t).toNat : Nat) : Int) - dr * ((2 ^ (eo - t).toNat : Nat) : Int))
    let gg := scaleRhe (p * dl * (mr : Int)) ((er : Int) - 62)
    let r := x.dsEntry m st
    let v := shrRhe (gg * (r.m : Int)) r.shift
    let ds := clampI (-65536) 65535 v
    (pn, ds, decide (ds ≠ v))

/-- Phase 1 (R270): dQ of a row block. -/
def Ctx.evalBwd1 (x : Ctx) (m : Macro) (st : Staged) (img : FabImage) (expT : Int) (t : Nat) : TileOut :=
  let es := x.lengths m
  let y := x.desc m.out
  let (s, g, rb) := headCoord m m.rowBlocks es t
  let e := nth es s { seqId := 0, length := 0, new := 0, ptOff := 0 }
  let rows := (m.qRows es s g rb).map fun q =>
    (q, (List.range e.length).filterMap fun j => (x.bwdPair m st es g q j).map fun r => (j, r))
  let cells := rows.flatMap fun (q, js) => headCells x m st (q.h * m.headDim)
    (fun d => ix d q.h (packedBase es q.s + q.i))
    ((List.range m.headDim).map fun d => js.foldl (fun v (j, _, ds, _) => v + ds * x.packed m.b es s g j d) 0)
  let (os, f) := finishTile x.env m img y expT t none cells
  let o := outWrites x.env y os
  { o with stats := { o.stats.add f with
      opstat := rows.foldl (fun n (_, js) => n + (js.filter fun (_, _, _, c) => c).length) 0 } }

/-- Phase 2 (R270): dK and dV of 128 keys. DEDUCED: dK drains first, then dV, each from fresh fabric registers. -/
def Ctx.evalBwd2 (x : Ctx) (m : Macro) (st : Staged) (img : FabImage) (expK expV : Int) (t : Nat) : TileOut :=
  let es := x.lengths m
  let (s, g, kb) := headCoord m (fun e => ceilDiv e.length 128) es (t - x.phase1 m)
  let e := nth es s { seqId := 0, length := 0, new := 0, ptOff := 0 }
  let keys := ((List.range 128).map (· + 128 * kb)).filter (· < e.length)
  let rows := m.allRows es s g
  let pairs := keys.map fun j => (j, rows.filterMap fun q => (x.bwdPair m st es g q j).map fun r => (q, r))
  let side := fun (dI : Nat) (off : Nat) (ex : Int) (term : QRow → Int × Int × Bool → Nat → Int) =>
    let y := x.desc dI
    let cells := pairs.flatMap fun (j, qs) => headCells x m st (off + g * m.headDim)
      (fun d => ix d g (packedBase es s + j))
      ((List.range m.headDim).map fun d => qs.foldl (fun v (q, r) => v + term q r d) 0)
    let (os, f) := finishTile x.env m img y ex t none cells
    let o := outWrites x.env y os
    { o with stats := o.stats.add f }
  let dk := side (m.p 0x28 2) (m.qHeads * m.headDim) expK (fun q r d => r.2.1 * x.qOp m es q d)
  let dv := side (m.p 0x2A 2) (m.qHeads * m.headDim + m.kvHeads * m.headDim) expV
    (fun q r d => r.1 * x.packed (m.p 0x2C 2) es q.s q.h q.i d)
  dk.add dv

/-! ### The page step -/

/-- What the page step reads and writes besides the tenant's memory: host memory, the swap cipher and tag of R257,
and whether the host link takes transfers. -/
structure SwapEnv where
  host : Nat → Byte
  enc : Nat → List Byte → List Byte
  dec : Nat → List Byte → List Byte
  tag : List Byte → List Byte
  linkUp : Bool

/-- The page step in progress: memory as it changes, the writes made so far (newest first), and the counters. -/
structure PageRun where
  dev : Nat → Byte
  host : Nat → Byte
  devWrites : List Wr
  hostWrites : List Wr
  freeTop : Nat
  swapOuts : Nat
  swapIns : Nat
  discards : Nat
  preemptions : Nat
  preempted : List Nat
  fail : Option Bad

/-- A write to device memory. -/
def PageRun.put (r : PageRun) (a : Nat) (bs : List Byte) : PageRun :=
  let n := bs.length
  let arr := bs.toArray
  { r with dev := fun k => if a ≤ k ∧ k < a + n then arr.getD (k - a) 0 else r.dev k,
           devWrites := (wrBytes a bs).reverse ++ r.devWrites }

/-- A write to host memory. -/
def PageRun.putHost (r : PageRun) (a : Nat) (bs : List Byte) : PageRun :=
  let n := bs.length
  let arr := bs.toArray
  { r with host := fun k => if a ≤ k ∧ k < a + n then arr.getD (k - a) 0 else r.host k,
           hostWrites := (wrBytes a bs).reverse ++ r.hostWrites }

def PageRun.bytes (r : PageRun) (a n : Nat) : List Byte := (List.range n).map fun i => r.dev (a + i)
def PageRun.hostBytes (r : PageRun) (a n : Nat) : List Byte := (List.range n).map fun i => r.host (a + i)

/-- Where the control block lies, its fields, and the swap environment. -/
structure PageCtx where
  x : Ctx
  m : Macro
  k : KvBlock
  sw : SwapEnv
  /-- Device address of the control block. -/
  cb : Nat

def PageCtx.pteAddr (p : PageCtx) (i : Nat) : Nat := p.cb + 0x80 + 8 * i
def PageCtx.stackAddr (p : PageCtx) (i : Nat) : Nat := p.cb + 0x80 + 8 * p.k.ptEntries + 4 * i
def PageCtx.pte (p : PageCtx) (r : PageRun) (i : Nat) : PtEntry := PtEntry.ofNat (leNat (r.bytes (p.pteAddr i) 8))
def PageCtx.setPte (p : PageCtx) (r : PageRun) (i : Nat) (e : PtEntry) : PageRun :=
  r.put (p.pteAddr i) (leBytes 8 e.toNat)

/-- Pushing a frame on the free stack, and popping its top (Table 10.4). -/
def PageCtx.push (p : PageCtx) (r : PageRun) (f : Nat) : PageRun :=
  { r.put (p.stackAddr r.freeTop) (leBytes 4 f) with freeTop := r.freeTop + 1 }
def PageCtx.pop (p : PageCtx) (r : PageRun) : Nat × PageRun :=
  (leNat (r.bytes (p.stackAddr (r.freeTop - 1)) 4), { r with freeTop := r.freeTop - 1 })

/-- The header of a page's tile, with its tag formed (R251, R302, R303). -/
def PageCtx.sealTile (p : PageCtx) (r : PageRun) (isValue : Bool) (f j : Nat) : PageRun :=
  let head : List Byte := leBytes 1 p.x.env.tenant ++ [1] ++ leBytes 1 (toU 8 (if isValue then p.k.vExp else p.k.kExp)) ++
    [0] ++ leBytes 4 0 ++ leBytes 4 j ++ leBytes 2 (if isValue then p.k.vZp else p.k.kZp) ++
    r.bytes (p.k.header f j + 0x0E) 2 ++ List.replicate 32 0
  let tag := p.x.env.tagOf (p.k.payload f j) (r.bytes (p.k.payload f j) 16384 ++ head)
  r.put (p.k.header f j) (head ++ slice tag 0 16)

/-- The tags of a frame's four tiles hold (R259). -/
def PageCtx.frameOk (p : PageCtx) (r : PageRun) (f : Nat) : Bool :=
  (List.range 4).all fun j =>
    p.x.env.tagOf (p.k.payload f j) (pageMessage r.bytes p.k f j) == r.bytes (p.k.header f j + 0x30) 16

/-- The bytes the swap tag covers (Table 10.7). -/
def swapMessage (payload headers tail : List Byte) : List Byte := payload ++ headers ++ tail

/-- R257: page-table entry `i` out to its host slot; its frame is pushed. -/
def PageCtx.swapOut (p : PageCtx) (r : PageRun) (i seqId : Nat) : PageRun :=
  let e := p.pte r i
  let a := p.k.swapBase + i * 69632
  if r.fail.isSome then r
  else if !p.frameOk r e.frame then
    let j := ((List.range 4).find? fun j =>
      p.x.env.tagOf (p.k.payload e.frame j) (pageMessage r.bytes p.k e.frame j) != r.bytes (p.k.header e.frame j + 0x30) 16).getD 0
    { r with fail := some (.tag (p.x.env.loc (p.k.payload e.frame j) / 256) (leNat (r.bytes (p.k.header e.frame j + 8) 4))) }
  else if !p.sw.linkUp then { r with fail := some (.swap i 4) }
  else
    let gen := (e.gen + 1) % 2 ^ 24
    let payload := p.sw.enc a (r.bytes (p.k.payload e.frame 0) 65536)
    let heads := p.sw.enc (a + 0x10000) (r.bytes (p.k.header e.frame 0) 256)
    let tail := leBytes 4 i ++ leBytes 4 gen ++ leBytes 2 seqId ++ List.replicate 38 0
    let r := r.putHost a (payload ++ heads ++ slice (p.sw.tag (swapMessage payload heads tail)) 0 16 ++ tail)
    let r := p.setPte r i { frame := 0, state := 2, evictable := e.evictable, gen }
    { p.push r e.frame with swapOuts := r.swapOuts + 1 }

/-- R258: page-table entry `i` back from its host slot into frame `f`. -/
def PageCtx.swapIn (p : PageCtx) (r : PageRun) (i f : Nat) : PageRun :=
  let e := p.pte r i
  let a := p.k.swapBase + i * 69632
  let isValue := i % 2 = 1
  if !p.sw.linkUp then { p.push r f with fail := some (.swap i 4) }
  else
    let payload := r.hostBytes a 65536
    let heads := r.hostBytes (a + 0x10000) 256
    let tail := r.hostBytes (a + 0x10110) 48
    let bad := if field tail 4 4 ≠ e.gen then 1 else if leNat (tail.take 4) ≠ i then 2
      else if p.sw.tag (swapMessage payload heads tail) ≠ r.hostBytes (a + 0x10100) 16 then 3 else 0
    if bad ≠ 0 then { p.push r f with fail := some (.swap i bad) }
    else
      let r := r.put (p.k.payload f 0) (p.sw.dec a payload)
      let r := r.put (p.k.header f 0) (p.sw.dec (a + 0x10000) heads)
      let r := (List.range 4).foldl (fun r j => p.sealTile r (decide isValue) f j) r
      { p.setPte r i { frame := f, state := 1, evictable := e.evictable, gen := e.gen } with swapIns := r.swapIns + 1 }

/-- The pages an entry's range holds. -/
def PageCtx.range (p : PageCtx) (e : LenEntry) : List Nat :=
  let (a, n) := p.m.ptRange e
  (List.range n).map (· + a)

/-- Whether an entry not preempted needs page-table index `i` (R255). -/
def PageCtx.needed (p : PageCtx) (es : List LenEntry) (r : PageRun) (i : Nat) : Bool :=
  (List.range es.length).any fun s => !r.preempted.contains s &&
    decide ((p.m.ptRange (nth es s { seqId := 0, length := 0, new := 0, ptOff := 0 })).1 ≤ i ∧
      i < (p.m.ptRange (nth es s { seqId := 0, length := 0, new := 0, ptOff := 0 })).1 +
        (p.m.ptRange (nth es s { seqId := 0, length := 0, new := 0, ptOff := 0 })).2)

/-- The lowest victim page (R255). -/
def PageCtx.victim (p : PageCtx) (es : List LenEntry) (r : PageRun) : Option Nat :=
  (List.range p.k.ptEntries).find? fun i =>
    let e := p.pte r i
    e.state == 1 && e.evictable && !p.needed es r i

/-- R256: an entry is preempted. -/
def PageCtx.preempt (p : PageCtx) (es : List LenEntry) (r : PageRun) (s : Nat) : PageRun :=
  let e := nth es s { seqId := 0, length := 0, new := 0, ptOff := 0 }
  let r := { r with preempted := s :: r.preempted, preemptions := r.preemptions + 1 }
  if p.k.swapBase = 0 then r
  else (p.range e).foldl (fun r i => if (p.pte r i).state = 1 then p.swapOut r i e.seqId else r) r

/-- Steps P3 and P4 for entry `s` that wants `need` frames; each turn frees a frame or preempts an entry. -/
def PageCtx.makeRoom (p : PageCtx) (es : List LenEntry) (s need : Nat) : Nat → PageRun → PageRun
  | 0, r => r
  | fuel + 1, r =>
    if r.fail.isSome || decide (need ≤ r.freeTop) || r.preempted.contains s then r
    else match p.victim es r with
      | some i =>
        let e := p.pte r i
        let owner := (nth es s { seqId := 0, length := 0, new := 0, ptOff := 0 }).seqId
        if p.k.swapBase = 0 then
          let r := p.setPte r i { frame := 0, state := 0, evictable := e.evictable, gen := e.gen }
          p.makeRoom es s need fuel { p.push r e.frame with discards := r.discards + 1 }
        else p.makeRoom es s need fuel (p.swapOut r i owner)
      | none =>
        match (List.range es.length).reverse.find? fun q => !r.preempted.contains q with
        | some q => p.makeRoom es s need fuel (p.preempt es r q)
        | none => r

/-- A page made RESIDENT with its tiles at the zero-point code (P5). -/
def PageCtx.freshPage (p : PageCtx) (r : PageRun) (i f : Nat) : PageRun :=
  let isValue := i % 2 == 1
  let zp : Byte := BitVec.ofNat 8 (if isValue then p.k.vZp else p.k.kZp)
  let r := r.put (p.k.payload f 0) (List.replicate 65536 zp)
  let r := r.put (p.k.header f 0) (List.replicate 256 0)
  let r := (List.range 4).foldl (fun r j => p.sealTile r isValue f j) r
  let e := p.pte r i
  p.setPte r i { frame := f, state := 1, evictable := e.evictable, gen := e.gen }

/-- P6 for one entry: the new keys and values into its pages. -/
def PageCtx.append (p : PageCtx) (es : List LenEntry) (s : Nat) (r : PageRun) : PageRun :=
  let e := nth es s { seqId := 0, length := 0, new := 0, ptOff := 0 }
  let tp := tokensPerPage p.m.headDim
  let cells := (List.range e.new).flatMap fun i => (List.range p.m.kvHeads).flatMap fun g =>
    [0, 1].flatMap fun v => (List.range p.m.headDim).map fun d => (i, g, v, d)
  let place := fun ((i, g, v, d) : Nat × Nat × Nat × Nat) =>
    let pos := e.length - e.new + i
    let f := (p.pte r (p.m.pageIndex e (pos / tp) g v)).frame
    (f, pagePlace p.m.headDim (v == 1) (pos % tp) d)
  let r' := cells.foldl (fun r c =>
    let (f, j, row, col) := place c
    let (i, g, v, d) := c
    let code := (p.x.env.elem (p.x.desc (if v = 1 then p.m.c else p.m.b)) (ix d g (packedBase es s + i))).code
    let l1 := (leNat (r.bytes (p.k.header f j + 0x0E) 2)).testBit 0
    r.put (p.k.payload f j + ertOffset l1 .q8a row col) [BitVec.ofNat 8 code]) r
  (sortDedup (cells.map fun c => let (f, j, _, _) := place c; (f * 4 + j) * 2 + c.2.2.1)).foldl (fun r n =>
    p.sealTile r (n % 2 == 1) (n / 8) (n / 2 % 4)) r'

/-- P2-P6 for one entry. -/
def PageCtx.stepEntry (p : PageCtx) (es : List LenEntry) (r : PageRun) (s : Nat) : PageRun :=
  let e := nth es s { seqId := 0, length := 0, new := 0, ptOff := 0 }
  if r.fail.isSome || r.preempted.contains s then r
  else
    let missing := (p.range e).filter fun i => (p.pte r i).state != 1
    let r := p.makeRoom es s missing.length (p.k.ptEntries + es.length + 1) r
    if r.fail.isSome || r.preempted.contains s then r
    else
      let r := missing.foldl (fun r i =>
        if r.fail.isSome then r
        else
          let (f, r) := p.pop r
          if (p.pte r i).state = 2 then p.swapIn r i f else p.freshPage r i f) r
      if r.fail.isSome then r else p.append es s r

/-- The page step (R255, Table 10.6), after the checks of P1; P7 writes the status bytes, FREE_TOP and counters also
when it stops early (R259). -/
def PageCtx.run (p : PageCtx) (es : List LenEntry) (lenTable : Nat) (r0 : PageRun) : PageRun :=
  let uncovered := (List.range es.length).any fun s =>
    let e := nth es s { seqId := 0, length := 0, new := 0, ptOff := 0 }
    let tp := tokensPerPage p.m.headDim
    (List.range (ceilDiv (e.length - e.new) tp)).any fun pg => (List.range p.m.kvHeads).any fun g =>
      [0, 1].any fun v => (p.pte r0 (p.m.pageIndex e pg g v)).state == 0
  if uncovered then { r0 with fail := some (.instr 4) }
  else
    let r := (List.range es.length).foldl (p.stepEntry es) r0
    let add := fun (off n : Nat) (r : PageRun) => r.put (p.cb + off) (leBytes 4 (leNat (r.bytes (p.cb + off) 4) + n))
    let r := (List.range es.length).foldl (fun (r : PageRun) s =>
      r.put (lenTable + 8 + 8 * es.length + s) [if r.preempted.contains s then 1 else 0]) r
    let r := r.put (p.cb + 0x24) (leBytes 4 r.freeTop)
    let r := add 0x28 r.swapOuts r
    let r := add 0x2C r.swapIns r
    let r := add 0x30 r.discards r
    add 0x34 r.preemptions r

end Sys2Proof.Machine
end

