-- ==== Sys2Proof/Machine/Sequencer.lean ====
section
/-!
DEFINITION. The Slalom sequencer: the program an activity runs (R190-R198), the Rink set in force (R156, R157, R220),
starting an instruction with its checks, staged tables and page step (R186, R208, R255), its completion and the end of
the job (R217-R219, R246, R418-R420), the program log (R453), and the stream window (R306-R309).
-/

namespace Sys2Proof.Machine

/-- The number of an activity. -/
def actNo (t : Nat) (lc : Bool) : Nat := if lc then t + 32 else t

/-- What a program of activity `a` reads on core `c`: the tenant's memory as the core's Rink sees it, and the core's own
memory. -/
def State.progCtx (s : State) (g : Prog) (a c : Nat) : Ctx :=
  let t := actTenant a
  let tb := s.rd (O.TABLE_BASE t)
  let ts := s.rd (O.TABLE_SIZE t)
  { prog := g, env := s.envOf c t, read := fun i => s.rbyte (c / 4) t (g.image + i), alloc := s.allocOk t,
    dramOk := s.inDram t, table := fun o => s.rbyte (c / 4) t (tb + o), tableOk := fun o n => decide (o + n ≤ ts),
    tableNone := ts == 0, tagged := true }

/-- The cores of a Rink that serve an activity and are not in a switch. -/
def State.coresOf (s : State) (a r : Nat) : List Nat :=
  ((List.range 4).map (· + 4 * r)).filter fun c => (s.core c).act == some a && s.coreServes c

/-- The core whose view of memory the sequencer of a Rink takes. -/
def State.viewCore (s : State) (a r : Nat) : Nat := (s.coresOf a r).headD (4 * r)

/-- The cores that belong to a tenant (R140). -/
def State.tenantCores (s : State) (t : Nat) : List Nat :=
  (List.range 16).filter fun c => (s.core c).act.map actTenant == some t

/-- Claims and starts have stopped for an entry (step E1 of Table 5.4). -/
def State.claimsStopped (s : State) : Bool :=
  match s.power.trans with
  | some t => decide (t.dest < t.origin ∧ 0x11 ≤ t.step)
  | none => false

/-! ### Measurement -/

/-- A digest extends PROG_DIGEST unless the tenant's program log holds it (R453). -/
def State.logProgram (s : State) (t : Nat) (d : List Byte) : State :=
  let log := nth s.security.progLogs t []
  if log.contains d then s
  else
    let s := s.put (O.PROG_DIGEST t) (.b (sha384 (s.rdB (O.PROG_DIGEST t) ++ d)))
    if 256 ≤ log.length then s
    else ({ s with security := { s.security with progLogs := modNth s.security.progLogs t (· ++ [d]) } }).wr
      (O.PROG_COUNT t) (log.length + 1)

/-- The bytes of an image that its digest covers: to the end of the instructions or descriptors (R453). -/
def Prog.measured (g : Prog) : Nat := max (g.instrOff + 64 * g.instrCount) (g.descOff + 32 * g.descCount)

/-! ### Rejections -/

/-- The failure of an instruction found by Rink `r`, with the tile if a tile found it: the records and counters of R198,
R188, R304, R259 and R186, and the job's end. -/
def State.reject (s : State) (a r : Nat) (b : Bad) (tile : Option Nat) (idx : Nat) : State :=
  let t := actTenant a
  if ((s.activity a).bind Activity.failed).isSome then s
  else match b with
    | .instr c =>
      let tl := match tile with
        | some n => if 0xFFFFFE < n then 0xFFFFFF else n
        | none => 0xFFFFFF
      (s.err 0x0202 0 (0x10 + r) t (c + 256 * tl) idx).failRun a .outOfRange idx
    | .format c =>
      let s := s.err 0x0201 0 (0x10 + r) t c (tile.getD 0xFFFFFFFF)
      ((s.inc (O.FORMAT_REJECTS t)).wr (O.LAST_REJECT_CAUSE t) c).failRun a .outOfRange idx
    | .tag l q =>
      let s := s.err 0x0303 2 (0x10 + r) t (l % 2 ^ 32) q
      ((s.inc (O.TAG_FAULTS t)).inc O.TAG_FAULTS_ALL).failRun a .integrityFault idx
    | .swap i k =>
      (s.err 0x0304 2 0x20 t i k).failRun a (if k = 4 then .notReady else .integrityFault) idx
    | .notConfigured => s.failRun a .notConfigured idx

/-! ### The Rink set of a program -/

/-- The next boundary at which every Rink of the set stands or comes to stand. -/
def Activity.boundary (x : Activity) : Nat :=
  x.set.foldl (fun n r =>
    let p := x.pos r
    max n (p.pc + if p.run.isSome || p.arrived || p.inGroup then 1 else 0)) 0

/-- Every Rink of the set has completed the earlier instructions and starts none. -/
def Activity.level (x : Activity) : Bool :=
  let b := x.boundary
  x.set.all fun r => let p := x.pos r; p.pc == b && p.run.isNone && !p.arrived && !p.inGroup

/-- Whether Rink `r` may start its next instruction. -/
def State.mayStart (s : State) (a r : Nat) (x : Activity) : Bool :=
  let p := x.pos r
  x.failed.isNone && !x.paused && x.set.contains r && p.run.isNone && !p.arrived && decide (p.pc < x.prog.instrCount) &&
  s.ready (0x10 + r) && s.rinkOn r && !s.claimsStopped &&
  (s.rinkList (actTenant a) == x.set || decide (p.pc < x.boundary))

/-! ### Completion of instructions -/

/-- PER_INSTR of the RUN's job (Table 17.3). -/
def State.perInstr (s : State) (x : Activity) : Bool :=
  match (s.queue x.fn x.q).job with
  | some j => j.sflags.testBit 0
  | none => false

/-- The INSTR completions of instructions that the whole set has passed (R419). -/
def State.noteCompleted (s : State) (a : Nat) : State :=
  match s.activity a with
  | none => s
  | some x =>
    let past := fun (i : Nat) => x.set.all fun r => decide (i < (x.pos r).pc)
    let done := x.perInstr.filter fun e => past e.1
    let cid := ((s.queue x.fn x.q).job.map Job.cid).getD 0
    let s := if s.perInstr x then
        done.foldl (fun s e => s.complete x.fn x.q
          (completionBytes cid (s.queue x.fn x.q).sqHead 3 e.2.1 0 e.1 (sat32 e.2.2))) s
      else s
    s.modActivity a fun x =>
      { x with perInstr := x.perInstr.filter fun e => !past e.1,
               completed := x.set.foldl (fun n r => min n (x.pos r).pc) x.prog.instrCount }

/-- The job ends once every Rink of the set is past the last instruction (R418); a reserved opcode that comes next is
rejected (R198). With an empty set the work waits (R157). -/
def State.settleNext (s : State) (a r : Nat) : State :=
  match s.activity a with
  | none => s
  | some x =>
    if x.failed.isSome || x.set == [] then s
    else if x.set.all fun q => decide (x.prog.instrCount ≤ (x.pos q).pc) then s.endRun a 0 0 0 (sat32 x.opstat)
    else
      let p := x.pos r
      let m := (s.progCtx x.prog a (s.viewCore a r)).instr p.pc
      if p.run.isNone ∧ p.pc < x.prog.instrCount ∧ m.opc.isNone then s.reject a r (.instr 1) none p.pc else s

/-- A changed Rink set takes effect at the implicit barrier of R220, once it is not empty (R157). -/
def State.resplit (s : State) (a : Nat) : State :=
  match s.activity a with
  | none => s
  | some x =>
    let new := s.rinkList (actTenant a)
    if new = x.set ∨ new = [] ∨ x.failed.isSome ∨ x.paused ∨ !x.level then s
    else
      let pc := if x.set = [] then (x.rinks.headD RinkPos.reset).pc else x.boundary
      (((s.commitAll (actTenant a)).modActivity a fun x =>
        { x with set := new, rinks := x.rinks.map fun _ => { RinkPos.reset with pc } }).applySet
          (actTenant a) new).settleNext a (new.headD 0)

/-- Flags and statistics of an instruction, added to its entry and the job's. -/
def Activity.addStats (x : Activity) (idx ff op : Nat) : Activity :=
  let old := (kvGet idx x.perInstr).getD (0, 0)
  { x with perInstr := kvPut idx (Nat.lor old.1 ff, old.2 + op) x.perInstr, fflags := Nat.lor x.fflags ff,
           opstat := x.opstat + op }

/-- Rink `r` passes to instruction `pc` (R217). -/
def State.passTo (s : State) (a r pc : Nat) : State :=
  let s := s.modActivity a fun x => x.modPos r fun p =>
    { p with pc, run := none, arrived := false, inGroup := false }
  let s := match s.ctxSlot r (actTenant a) with
    | some i => s.inc (O.CTX_INSTRUCTIONS r i)
    | none => s
  (s.noteCompleted a).settleNext a r

/-- The instruction in progress on Rink `r` completes once its share is done; a group waits for its FUSE_END (R213). -/
def State.settleInstr (s : State) (a r : Nat) : State :=
  match s.activity a with
  | none => s
  | some x =>
    match (x.pos r).run with
    | none => s
    | some u =>
      if u.left = 0 ∧ x.failed.isNone then
        let s := s.modActivity a fun x => x.addStats u.idx u.fflags u.opstat
        if ((s.progCtx x.prog a (s.viewCore a r)).instr u.idx).is .fuseBegin then
          s.modActivity a fun x => x.modPos r fun p => { p with run := none, inGroup := true }
        else s.passTo a r (u.idx + 1)
      else s

/-! ### Weight streaming -/

/-- The stream operand of an instruction (R306): its SRC_B, if engine-ready and in the Lodge or DRAM. -/
def Ctx.streamDesc (x : Ctx) (m : Macro) : Option Desc :=
  if (m.opc.getD .barrier).array then
    let d := x.desc m.b
    if d.ert && !d.clm && m.b != 0xFFFF then some d else none
  else none

/-- The stream ERTs that tile `t` of an instruction reads, in the order it first reads them. For a group, `m` is a
layer and every channel block is read. -/
def Ctx.streamReads (x : Ctx) (m : Macro) (p : Plan) (grouped : Bool) (t : Nat) : List Nat :=
  match x.streamDesc m with
  | none => []
  | some w =>
    if m.convWeight then
      let kl := m.kLen w
      let kb := ceilDiv kl w.fmt.ertRows
      let nb := ceilDiv w.d0 128
      let cols := if grouped then List.range nb else [p.coord 1 t]
      cols.flatMap fun c => (List.range (if m.wino then 16 else 1)).flatMap fun q =>
        (List.range kb).map fun k => (q * kb + k) * nb + c
    else
      let tl := x.matrixTile m p t
      let v := x.matrixView m tl.b
      let rows := if m.is .matmulBwd ∧ m.p 0x18 1 = 1 then tl.rows else tl.cols
      ((List.range (tl.k1 - tl.k0)).map fun q => (w.ertPos (v.wIx (rows.headD 0) (q + tl.k0))).n).eraseDups

/-- The layers of the instruction at `idx`, or itself alone. -/
def Ctx.unitOf (x : Ctx) (idx : Nat) : List Macro :=
  if (x.instr idx).is .fuseBegin then x.layers idx else [x.instr idx]

/-- The plan of the instruction or group at `idx`. -/
def Ctx.planOf (x : Ctx) (idx : Nat) : Option Plan :=
  if (x.instr idx).is .fuseBegin then x.groupPlan (x.layers idx) else x.plan (x.instr idx)

/-- Stream ERTs of a tile as (layer, number). -/
def Ctx.tileStream (x : Ctx) (idx : Nat) (p : Plan) (t : Nat) : List (Nat × Nat) :=
  let ls := x.unitOf idx
  (List.range ls.length).flatMap fun l =>
    (x.streamReads (nth ls l (x.instr idx)) p (decide (1 < ls.length)) t).map fun n => (l, n)

/-- The stream ERTs of a share in fetch order (R306). -/
def Ctx.streamOrder (x : Ctx) (idx : Nat) (p : Plan) (share : List Nat) : List (Nat × Nat) :=
  (share.flatMap (x.tileStream idx p)).eraseDups

/-- R307: whether the instruction runs in pass-through with a window of `ways` ways. -/
def Ctx.passThrough (x : Ctx) (idx : Nat) (p : Plan) (share : List Nat) (ways : Nat) : Bool :=
  let tiles := share.map (x.tileStream idx p)
  let d := (List.range tiles.length).foldl (fun n i =>
    max n ((tiles.drop i).take 5).flatten.eraseDups.length) 0
  decide (ways * 524288 < d * 18688)

/-- A stream ERT named by its layer and number, as one number. -/
def streamKey (l n : Nat) : Nat := l * 2 ^ 32 + n

/-- The tile's stream ERTs stand in the window, where one is used. -/
def State.streamReady (s : State) (a r : Nat) (u : Running) (x : Ctx) (p : Plan) (t : Nat) : Bool :=
  u.passThrough ||
  match s.activity a with
  | none => false
  | some y => (x.tileStream u.idx p t).all fun (l, n) =>
      (y.pos r).stream.any fun e => e.idx == u.idx && e.n == streamKey l n

/-- Completion of a tile releases the stream ERTs that no later tile reads (R306). -/
def RinkPos.release (q : RinkPos) (idx : Nat) (ns : List Nat) : RinkPos :=
  { q with stream := (q.stream.map fun e =>
      if e.idx = idx ∧ ns.contains e.n then { e with uses := e.uses - 1 } else e).filter fun e => e.uses != 0 }

/-! ### Starting an instruction -/

/-- Bytes written to device memory past the caches; they replace dirty bytes of the writing Rink. -/
def State.devPut (s : State) (r t : Nat) (ws : List Wr) : State :=
  let s := { s with tmem := ws.foldl (fun (m : List Host.Cell) (w : Wr) => kvPut (tkey t w.addr) (BitVec.ofNat 8 w.val) m) s.tmem }
  s.modRink r fun x => { x with dirty := ws.foldl (fun (m : List Host.Cell) (w : Wr) => kvDel (tkey t w.addr) m) x.dirty }

/-- The page step of the ATTEND at `idx`, run by position 0 (R255): its writes, its transfers charged (Table 13.3) and
the failure that stopped it. -/
def State.pageStep (s : State) (a r : Nat) (x : Ctx) (m : Macro) : State × Option Bad :=
  let t := actTenant a
  let tb := s.rd (O.TABLE_BASE t)
  let sw : SwapEnv :=
    { host := s.hbyte t, enc := s.swapCrypt false t, dec := s.swapCrypt true t, tag := s.swapTag t, linkUp := s.ready 0x20 }
  let k := x.kv m
  let pc : PageCtx := { x, m, k, sw, cb := tb + m.p 0x20 4 }
  let r0 : PageRun :=
    { dev := x.env.mem, host := sw.host, devWrites := [], hostWrites := [], freeTop := k.freeTop, swapOuts := 0,
      swapIns := 0, discards := 0, preemptions := 0, preempted := [], fail := none }
  let q := pc.run (x.lengths m) (tb + m.aux) r0
  let s := s.devPut r t q.devWrites.reverse
  let s := { s with hmem := q.hostWrites.reverse.foldl (fun (h : List Host.Cell) (w : Wr) =>
    kvPut (hkey t w.addr) (BitVec.ofNat 8 w.val) h) s.hmem }
  ((s.charge a 10 (q.swapIns * 65856)).charge a 11 (q.swapOuts * 65856), q.fail)

/-- The tables staged for one layer (R186, R240). -/
def Ctx.stage (x : Ctx) (m : Macro) : Staged :=
  { rescale := x.tableBytes m.rescale (16 * (x.rescaleFmts m).length),
    group := if x.groupTable m = 0 then [] else x.tableBytes (x.desc m.b).esc (x.groupTable m),
    boxes := if m.is .cropResize then 
      (List.range (32 * (x.desc m.out).d3)).map fun i => x.env.at (x.desc m.b) ((x.desc m.b).base + i)
    else [] }

/-- Entries whose status byte says PREEMPTED (Table 10.3). -/
def Ctx.preemptedEntries (x : Ctx) (m : Macro) : List Nat :=
  let n := (x.lengths m).length
  (List.range n).filter fun i => (x.table (m.aux + 8 + 8 * n + i)).toNat == 1

/-- The page step of an ATTEND has run: position 0 is at work on it or past it. -/
def Activity.pagesDone (x : Activity) (idx : Nat) : Bool :=
  match x.set.head? with
  | none => false
  | some h => decide (idx < (x.pos h).pc) || ((x.pos h).run.map Running.idx) == some idx

/-- The instruction in progress at its start (R208): its share with, for CHUNK, one ticket for each chain. -/
def Ctx.begin (x : Ctx) (idx : Nat) (p : Plan) (share : List Nat) (i k ways : Nat) : Running :=
  let m := x.instr idx
  let pre := if m.is .attend then x.preemptedEntries m else []
  { idx, pos := i, k,
    todo := if p.cls = .chunk then share.filter fun t => p.coord 3 t == 0 else share,
    claimed := [], left := share.length, staged := (x.unitOf idx).map x.stage, images := [], partials := [], chains := [],
    preempted := pre, fflags := 0, opstat := if m.is .attend ∧ i = 0 then pre.length else 0,
    passThrough := x.passThrough idx p share ways }

/-- Instruction `idx` starts on Rink `r`, after its checks (R198, R208). -/
def State.beginInstr (s : State) (a r : Nat) (x : Activity) (idx : Nat) (p : Plan) (share : List Nat) : State :=
  let c := s.progCtx x.prog a (s.viewCore a r)
  let u := c.begin idx p share (x.set.idxOf r) x.set.length (s.rd (O.WINDOW_WAYS r (actTenant a)))
  let hasStream := (share.any fun t => c.tileStream idx p t != [])
  let s := if u.passThrough && hasStream then s.inc (O.PASS_THROUGH (actTenant a)) else s
  (s.modActivity a fun x => (x.addStats idx 0 0).modPos r fun q => { q with run := some u }).settleInstr a r

/-- A non-control instruction or a group comes up on Rink `r` (R156, R198, R208, R217): a Rink without a share passes
it at once, a Rink with one checks it, runs or awaits the page step of an ATTEND, and starts. -/
def State.comeUp (s : State) (a r : Nat) (x : Activity) : State :=
  let idx := (x.pos r).pc
  let c := s.progCtx x.prog a (s.viewCore a r)
  let m := c.instr idx
  let plan := c.planOf idx
  let i := x.set.idxOf r
  let share := match plan with
    | none => [0]
    | some p => c.share m p m.split x.set.length i
  let none' := share = [] ∧ !(i = 0 ∧ (plan.map Plan.total).getD 0 = 0)
  let past := if m.is .fuseBegin then idx + (c.layers idx).length + 2 else idx + 1
  if none' then (s.modActivity a fun x => x.addStats idx 0 0).passTo a r past
  else if s.coresOf a r = [] then s
  else match c.check idx with
    | some (b, j) => s.reject a r b none j
    | none => match plan with
      | none => s
      | some p =>
        if m.is .attend then
          if i = 0 then
            match s.pageStep a r c m with
            | (s, some b) => s.reject a r b none idx
            | (s, none) => s.beginInstr a r x idx p share
          else if x.pagesDone idx then s.beginInstr a r x idx p share else s
        else s.beginInstr a r x idx p share

/-- A control instruction other than FUSE_BEGIN, after its check: FUSE_END closes the group, BARRIER and CHECKPOINT
arrive and commit, FENCE commits (R213, R218, R219). -/
def State.control (s : State) (a r : Nat) (x : Activity) (o : Opc) : State :=
  let p := x.pos r
  let c := s.progCtx x.prog a (s.viewCore a r)
  if p.inGroup then
    if o = .fuseEnd then s.passTo a r (p.pc + (c.layers p.pc).length + 2) else s
  else match c.check p.pc with
    | some (b, j) => s.reject a r b none j
    | none => match o with
      | .barrier | .checkpoint => (s.commit r (actTenant a)).modActivity a fun x => x.modPos r fun p => { p with arrived := true }
      | .fence => (s.commit r (actTenant a)).passTo a r (p.pc + 1)
      | _ => s

/-- The sequencer of Rink `r` takes up the next instruction of an activity, which must have opcode `o`. -/
def State.sequence (s : State) (r t : Nat) (lc : Bool) (o : Opc) : State :=
  let a := actNo t lc
  let s := s.resplit a
  match s.activity a with
  | none => s
  | some x =>
    if s.mayStart a r x then
      let c := s.progCtx x.prog a (s.viewCore a r)
      let p := x.pos r
      let m := if p.inGroup then c.instr (p.pc + (c.layers p.pc).length + 1) else c.instr p.pc
      if m.opc = some o then
        if o.control && o != .fuseBegin then s.control a r x o else s.comeUp a r x
      else s
    else s

/-- The program waits no longer at its BARRIER or CHECKPOINT: every Rink proceeds (R218, R420). -/
def State.proceed (s : State) (a : Nat) : State :=
  match s.activity a with
  | none => s
  | some x =>
    x.set.foldl (fun s r => s.passTo a r ((x.pos r).pc + 1)) (s.modActivity a fun x => { x with paused := false })

/-- BARRIER_RELEASE (R218, R219): once every Rink of the set has arrived. A CHECKPOINT writes its progress completion,
and with PAUSE the program stays there. -/
def State.releaseBarrier (s : State) (a : Nat) : State :=
  match s.activity a with
  | none => s
  | some x =>
    if x.set = [] ∨ x.paused ∨ x.failed.isSome ∨ !x.set.all fun r => (x.pos r).arrived then s
    else
      let pc := (x.pos (x.set.headD 0)).pc
      let m := (s.progCtx x.prog a (s.viewCore a (x.set.headD 0))).instr pc
      if m.is .checkpoint then
        let pause := m.p 0x1C 1 == 1
        let cid := ((s.queue x.fn x.q).job.map Job.cid).getD 0
        let s := s.complete x.fn x.q
          (completionBytes cid (s.queue x.fn x.q).sqHead 2 0 (if pause then 2 else 0) (m.p 0x18 4) pc)
        if pause then
          (s.modActivity a fun x => { x with paused := true }).wr (O.Q_STATE x.q x.fn) 2
        else s.proceed a
      else s.proceed a

/-! ### Commands -/

/-- The device attends to a command of the sequencer of Rink `r`. -/
def seqCmd (s : State) (r : Fin 4) (t : Fin 32) (lc : Bool) (o : Opc) : Res :=
  whenOk (s.rinkOn r.val) s fun s => s.sequence r.val t.val lc o

def execMatmul (r : Fin 4) (t : Fin 32) (lc : Bool) (s : State) : Res := seqCmd s r t lc .matmul
def execMatmulBwd (r : Fin 4) (t : Fin 32) (lc : Bool) (s : State) : Res := seqCmd s r t lc .matmulBwd
def execConv (r : Fin 4) (t : Fin 32) (lc : Bool) (s : State) : Res := seqCmd s r t lc .conv
def execDwconv (r : Fin 4) (t : Fin 32) (lc : Bool) (s : State) : Res := seqCmd s r t lc .dwconv
def execTconv (r : Fin 4) (t : Fin 32) (lc : Bool) (s : State) : Res := seqCmd s r t lc .tconv
def execAttend (r : Fin 4) (t : Fin 32) (lc : Bool) (s : State) : Res := seqCmd s r t lc .attend
def execAttendBwd (r : Fin 4) (t : Fin 32) (lc : Bool) (s : State) : Res := seqCmd s r t lc .attendBwd
def execScan (r : Fin 4) (t : Fin 32) (lc : Bool) (s : State) : Res := seqCmd s r t lc .scan
def execFilter (r : Fin 4) (t : Fin 32) (lc : Bool) (s : State) : Res := seqCmd s r t lc .filter
def execCropResize (r : Fin 4) (t : Fin 32) (lc : Bool) (s : State) : Res := seqCmd s r t lc .cropResize
def execWarp (r : Fin 4) (t : Fin 32) (lc : Bool) (s : State) : Res := seqCmd s r t lc .warp
def execElementwise (r : Fin 4) (t : Fin 32) (lc : Bool) (s : State) : Res := seqCmd s r t lc .elementwise
def execReduce (r : Fin 4) (t : Fin 32) (lc : Bool) (s : State) : Res := seqCmd s r t lc .reduce
def execGather (r : Fin 4) (t : Fin 32) (lc : Bool) (s : State) : Res := seqCmd s r t lc .gather
def execScatter (r : Fin 4) (t : Fin 32) (lc : Bool) (s : State) : Res := seqCmd s r t lc .scatter
def execCopy (r : Fin 4) (t : Fin 32) (lc : Bool) (s : State) : Res := seqCmd s r t lc .copy
def execFuseBegin (r : Fin 4) (t : Fin 32) (lc : Bool) (s : State) : Res := seqCmd s r t lc .fuseBegin
def execFuseEnd (r : Fin 4) (t : Fin 32) (lc : Bool) (s : State) : Res := seqCmd s r t lc .fuseEnd
def execBarrier (r : Fin 4) (t : Fin 32) (lc : Bool) (s : State) : Res := seqCmd s r t lc .barrier
def execFence (r : Fin 4) (t : Fin 32) (lc : Bool) (s : State) : Res := seqCmd s r t lc .fence
def execCheckpoint (r : Fin 4) (t : Fin 32) (lc : Bool) (s : State) : Res := seqCmd s r t lc .checkpoint
def execBarrierRelease (t : Fin 32) (lc : Bool) (s : State) : Res :=
  whenAlive s fun s => s.releaseBarrier (actNo t.val lc)

end Sys2Proof.Machine
end

