-- ==== Sys2Proof/Machine/Audio.lean ====
section
/-!
DEFINITION. The audio front end (chapter 14): calibration (R339, R340), the Base engine's input buffer (R342), noise
floors and thresholds (R343, R344), the history ring and its handover (R346-R356), microphone bias (R336) and the TDM
ports (R357-R359).
-/

namespace Sys2Proof.Machine

/-! ### Samples and calibration -/

/-- A decimator output saturated to int24 (R339). -/
def sat24 (i : Int) : Int := satI 24 i

/-- A decimator output that reaches the int24 limits (R339). -/
def clips (i : Int) : Bool := decide (8388607 ≤ i ∨ i ≤ -8388608)

/-- R340 at one sample: `x` holds decimator outputs newest first, `g` the gain and `d` the delay at the output rate. -/
def calibrate (x : List Int) (g d : Nat) : Int :=
  let k := d / 256 + 1
  let y := fun (i : Nat) => sat24 (shrRhe (nth x (k - 1 + i) 0 * (g : Int)) 22)
  let f : Int := (d % 256 : Nat)
  let c0 := -f * (f - 256) * (f - 512)
  let c1 := 3 * (f + 256) * (f - 256) * (f - 512)
  let c2 := -3 * (f + 256) * f * (f - 512)
  let c3 := (f + 256) * f * (f - 256)
  sat24 (divRhe (c0 * y 0 + c1 * y 1 + c2 * y 2 + c3 * y 3) 100663296)

/-- The calibrated outputs for `xs`, oldest first, after the outputs `hist`, newest first; and the new history of
`keep` outputs. -/
def calibrateAll (g d keep : Nat) : List Int → List Int → List Int × List Int
  | hist, [] => ([], hist)
  | hist, x :: rest =>
    let h := (sat24 x :: hist).take keep
    let (ys, h') := calibrateAll g d keep h rest
    (calibrate h g d :: ys, h')

/-- The rate in kHz of a rate code (Tables 14.10). -/
def rateKhz (c : Nat) : Nat := if c = 0 then 16 else if c = 1 then 32 else 48

def State.modCh (s : State) (c : Nat) (g : AudioCh → AudioCh) : State :=
  { s with audio := { s.audio with ch := modNth s.audio.ch c g } }
def State.ch (s : State) (c : Nat) : AudioCh := nth s.audio.ch c AudioCh.reset

/-- The calibrated stream block of an ADC channel (R337, R340): `raw` holds the 27 decimator outputs before the block
and then the block's. -/
def State.adcBlock (s : State) (c : Nat) (raw : List Int) : List Int :=
  let d := (s.ch c).delay * rateKhz (s.rd O.SAMPLE_RATE) / 16
  (calibrateAll (s.ch c).gain d 28 ((raw.take 27).map sat24).reverse (raw.drop 27)).1

/-! ### Noise floors and the threshold loop -/

/-- A comparator-enabled channel (R341). -/
def State.compOn (s : State) (c : Nat) : Bool := s.rd (O.CH_MODE c) == 2 && (s.rd O.COMP_ENABLE).testBit c

/-- ESTIMATOR_STATE and SETTLE_REMAINING_MS (R343). -/
def State.refreshEstimator (s : State) : State :=
  let left := (List.range 4).foldl (fun n c => if s.compOn c then max n (125 - (s.ch c).blocks.length) else n) 0
  (s.put O.SETTLE_REMAINING_MS (.n (12 * left))).wr O.ESTIMATOR_STATE (if left = 0 then 1 else 0)

/-- 100·log10(`num` / `den`) rounded to the nearest integer at or above -`fuel`; no tie occurs with an odd power of ten
under an even root, so none is broken. -/
def log100 (num den : Nat) : Nat → Int → Int
  | 0, n => n
  | fuel + 1, n =>
    -- n is right once 10^(2n - 1) ≤ (num / den)^200
    let e := 1 - 2 * n
    if den ^ 200 ≤ num ^ 200 * 10 ^ e.toNat then n else log100 num den fuel (n - 1)

/-- A noise floor in 0.1 dBFS from a sum of squares over 192 samples (R343): 0 dBFS is a mean square of 2^46. -/
def floorOf (sum : Nat) : Int := log100 sum (192 * 2 ^ 46) 2000 0

/-- NOISE_FLOOR_BLOCK (R343): the last 192 frames of the channel's tap. The logarithm of 0 is a free value. -/
def State.noiseBlock (s : State) (c : Nat) : State :=
  let sum := ((s.audio.input.take 192).map fun f => (nth f c 0).natAbs ^ 2).foldl (· + ·) 0
  let s := s.modCh c fun x => { x with blocks := (sum :: x.blocks).take 125 }
  let least := (s.ch c).blocks.foldl min sum
  let s := if least = 0 then
      let (v, s) := s.freeVal 16
      s.put (O.NOISE_FLOOR c) (.n v)
    else s.put (O.NOISE_FLOOR c) (.n (toU 16 (floorOf least)))
  s.refreshEstimator

def execNoiseFloorBlock (channel : Fin 4) (s : State) : Res :=
  whenOk (s.converting channel && s.ready 0x29) s fun s => s.noiseBlock channel

/-- The nearest multiple of 0.5 dB, a tie upward (R344). -/
def toHalfDb (v : Int) : Int := (2 * v + 5) / 10 * 5

/-- THRESHOLD_LOOP_STEP (R344). -/
def execThresholdLoopStep (s : State) : Res :=
  whenOk (decide (2 ≤ s.rd O.POWER_STATE)) s fun s =>
    let lo := s.rdI 16 O.THRESH_MIN
    let hi := s.rdI 16 O.THRESH_MAX
    let s := (List.range 4).foldl (fun s c =>
      if s.compOn c then
        let v := if (s.ch c).blocks.length = 125 then toHalfDb (s.rdI 16 (O.NOISE_FLOOR c) + (s.rd O.COMP_MARGIN : Int))
          else s.rdI 16 O.COMP_FIXED
        s.put (O.COMP_THRESH c) (.n (toU 16 (clampI lo hi v)))
      else s) s
    (s.setMismatch O.THRESH_MIN false).setMismatch O.THRESH_MAX false

/-! ### The history ring -/

/-- A sample as the ring keeps it (R346). -/
def ringSample (bits : Nat) (v : Int) : Int := satI bits (shrRhe v (24 - bits))

/-- Bytes of a block stored raw. -/
def rawBytes (channels absent bits : Nat) : Nat := popCount 8 (channels - Nat.land channels absent) * 64 * bits / 8

/-- The oldest blocks leave the ring until its 4,096 entries and 786,432 B suffice (R346, R347). Delivery finds by the
frame numbers what it lost (R353). -/
def evict : Nat → List RingBlock → List RingBlock
  | 0, bs => bs
  | n + 1, bs =>
    if 4096 < bs.length ∨ 786432 < (bs.map RingBlock.size).foldl (· + ·) 0 then evict n (bs.drop 1) else bs

/-- The ring records one block of 64 frames of eight channels (R346). The bytes that lossless coding takes are a free
value, at most the raw size. -/
def State.recordBlock (s : State) (taps : List (List Int)) : State :=
  let chans := s.rd O.RING_CHANNELS
  if chans = 0 then s
  else
    let bits := s.rd O.RING_BITS
    let absent := (List.range 8).foldl (fun v c => if chans.testBit c && !s.converting c then v + 2 ^ c else v) 0
    let raw := rawBytes chans absent bits
    let (v, s) := s.freeVal 32
    let sel := (List.range 8).filter fun c => chans.testBit c
    let b : RingBlock := {
      frame := s.audio.ring.nextFrame, time := s.timeNow - 4 * unitsPerMs, channels := chans, absent, bits,
      samples := (List.range 64).map fun i => sel.map fun c =>
        if absent.testBit c then 0 else ringSample bits (nth (nth taps c []) i 0),
      size := v % (raw + 1), gapStop := s.audio.ring.gapStop }
    let all := s.audio.ring.blocks ++ [b]
    let kept := evict all.length all
    let s := s.modRing fun r => { r with blocks := kept, nextFrame := r.nextFrame + 64, gapStop := none }
    let s := if kept.length < all.length then s.put O.RING_WRAPPED (.n 1) else s
    s.ringReport

/-! ### Handover -/

/-- The AUDIO record of a block (R356). -/
def RingBlock.payload (b : RingBlock) : List Byte :=
  b.samples.flatMap fun f => f.flatMap fun v => leBytes 4 (toU 32 (v * 2 ^ (32 - b.bits)))

/-- Bit i set: the i-th selected channel was absent. -/
def RingBlock.absentFlags (b : RingBlock) : Nat :=
  (((List.range 8).filter fun c => b.channels.testBit c).mapIdx fun i c =>
    if b.absent.testBit c then 2 ^ i else 0).foldl (· + ·) 0

def gapPayload (stop restart : Nat) (overrun : Bool) : List Byte :=
  time96Bytes stop ++ time96Bytes restart ++ leBytes 1 (if overrun then 1 else 0) ++ [0, 0, 0]

/-- The kept or later wakes that fall in the block are delivered after it (R352). -/
def State.pushMarkers (s : State) (last : Nat) : State :=
  let due := s.audio.ring.markers.filter fun m => decide (m.frame < last)
  let s := due.foldl (fun s m =>
    (s.pushRecord 3 0 m.frame m.time (time96Bytes m.time ++ leBytes 1 m.source ++ leBytes 1 (if m.early then 1 else 0) ++
      [0, 0])).inc O.MARKERS) s
  s.modRing fun r => { r with markers := r.markers.filter fun m => !decide (m.frame < last) }

/-- The next whole block not yet delivered goes to the stream, after the GAP record it needs (R352, R353). -/
def State.deliverBlock (s : State) : State :=
  match s.audio.ring.handover with
  | none => s
  | some h =>
    match s.audio.ring.blocks.find? fun b => decide (h.next ≤ b.frame) with
    | none => s
    | some b =>
      let s := if h.next < b.frame then s.pushRecord 4 0 b.frame b.time (gapPayload h.lastEnd b.time true)
        else match b.gapStop with
          | some stop => if h.lastEnd = b.time then s else s.pushRecord 4 0 b.frame b.time (gapPayload stop b.time false)
          | none => s
      let s := s.pushRecord 2 b.absentFlags b.frame b.time b.payload
      let s := s.modRing fun r => { r with handover := r.handover.map fun h =>
        { h with next := b.frame + 64, lastEnd := b.finish } }
      s.pushMarkers (b.frame + 64)

/-- Room in the consumer's stream buffer: descriptors of its sink ring that no waiting record takes. -/
def State.streamRoom (s : State) (k : Nat) : Bool :=
  let x := s.stream k
  let n := x.active.snkEntries
  n != 0 && decide (x.waiting.length < (x.snkTail + n - x.snkHead) % n)

/-- Delivery (R352, R353): at most `n` blocks, while the consumer's stream buffer has room and its ROUTER pass is not
spent. -/
def State.deliver (s : State) : Nat → State
  | 0 => s
  | n + 1 =>
    match s.audio.ring.handover with
    | none => s
    | some h =>
      if s.streamRoom h.stream && !s.spent (actNo h.tenant (s.rd (O.STR_CLASS h.stream h.tenant) == 1)) 12 then
        s.deliverBlock.deliver n
      else s

/-- The START of a handover (R351, R352, R355) by its owner, all conditions met. -/
def State.startHandover (s : State) (t : Nat) : State :=
  match s.audio.ring.latch with
  | none => s
  | some w =>
    let k := s.rd (O.HANDOVER_STREAM t)
    let pre := s.rd O.HANDOVER_PREROLL_MS
    let bs := s.audio.ring.blocks
    let from_ := w.time - pre * unitsPerMs
    let first := if pre = 0 then bs.head? else bs.find? fun b => decide (from_ < b.finish)
    let start := (first.map RingBlock.time).getD w.time
    let next := (first.map RingBlock.frame).getD s.audio.ring.nextFrame
    let notFull := pre != 0 && decide (from_ < (bs.head?.map RingBlock.time).getD w.time)
    let gaps := (bs.filter fun b => decide (next < b.frame)).any fun b => b.gapStop.isSome
    let body := time96Bytes w.time ++ time96Bytes start ++ leBytes 4 ((w.time - start) / unitsPerMs) ++
      leBytes 1 (s.rd O.RING_CHANNELS) ++ leBytes 1 (s.rd O.RING_BITS) ++ leBytes 1 w.source ++
      leBytes 1 ((if w.early then 1 else 0) + (if notFull then 2 else 0) + (if gaps then 4 else 0))
    let s := s.modRing fun r =>
      { r with handover := some { tenant := t, stream := k, seq := 0, next, live := false, lastEnd := start },
               markers := r.markers.filter fun m => decide (next ≤ m.frame) }
    ((s.pushRecord 1 0 next s.timeNow body).wr O.RING_STATE 3).inc O.HANDOVERS

/-- RING_BLOCK_BOUNDARY (R338, R340, R342, R346, R352): `taps` holds 64 decimator outputs of each channel. The new gains
and delays take effect from here. -/
def State.blockBoundary (s : State) (taps : List (List Int)) : State :=
  let cal := (List.range 8).map fun c =>
    let x := s.ch c
    if s.converting c then calibrateAll x.gain x.delay 11 x.hist ((List.range 64).map fun i => nth (nth taps c []) i 0)
    else (List.replicate 64 0, [])
  let outs := cal.map Prod.fst
  let s := (List.range 8).foldl (fun s c =>
    if s.converting c then s.addTo (O.CH_CLIPS c) ((nth taps c []).take 64 |>.filter clips).length else s) s
  let full := fun (c : Nat) => s.domOn 66 && decide (s.audio.adcOnAt + 2000000 ≤ s.clock) && s.rd (O.CH_MODE c) != 0
  let frames := (List.range 64).map fun i => (List.range 4).map fun c => nth (nth outs c []) i 0
  let s := { s with audio := { s.audio with
    ch := s.audio.ch.mapIdx fun c (x : AudioCh) =>
      { x with gain := s.rd (O.CH_GAIN c), delay := s.rd (O.CH_DELAY c), hist := (nth cal c ([], [])).2, full := full c },
    input := (frames.reverse ++ s.audio.input).take 4096 } }
  let s := s.recordBlock outs
  match s.audio.ring.handover with
  | some h => s.deliver (if h.live then 4096 else 16)
  | none => s

def execRingBlockBoundary (taps : List (List Int)) (s : State) : Res :=
  whenOk (s.ready 0x29 && decide (2 ≤ s.rd O.POWER_STATE)) s fun s => s.blockBoundary taps

/-- HANDOVER_LIVE (R352): the last complete block has been delivered. -/
def execHandoverLive (s : State) : Res := whenAlive s fun s =>
  match s.audio.ring.handover with
  | some h =>
    if !h.live && h.next == s.audio.ring.nextFrame then
      let s := s.pushRecord 5 0 h.next s.timeNow []
      (s.modRing fun r => { r with handover := r.handover.map fun h => { h with live := true } }).wr O.RING_STATE 4
    else s
  | none => s

/-- LATCH_EXPIRY (R350): no handover has started. -/
def execLatchExpiry (s : State) : Res :=
  whenOk (s.audio.ring.latch.isSome && s.audio.ring.handover.isNone) s fun s =>
    ((s.modRing fun r => { r with latch := none, markers := [] }).wr O.RING_STATE 1).inc O.LATCHES_EXPIRED

/-- An accepted write to RING_CHANNELS or RING_BITS (R348, R354). -/
def State.ringReset (s : State) : State :=
  let s := (s.endHandover 4).modRing fun r => { r with blocks := [], gapStop := none }
  ((s.put O.RING_WRAPPED (.n 0)).ringReport).inc O.RING_RESETS

/-! ### Bias -/

/-- MICBIAS_FAULT (R336). -/
def execMicbiasFault (b : Fin 2) (s : State) : Res :=
  let st := s.rd O.MICBIAS_STATE
  whenOk (st.testBit b && !st.testBit (2 + b)) s fun s =>
    (s.setEv O.MICBIAS_STATE (setBit st (2 + b)) 0x0501 0x27 0).err 0x0501 1 0x27 0xFF b 0

/-- MICBIAS_FAULT_CLEAR (R336). -/
def execMicbiasFaultClear (b : Fin 2) (s : State) : Res :=
  let st := s.rd O.MICBIAS_STATE
  whenOk (st.testBit (2 + b)) s fun s => s.wr O.MICBIAS_STATE (clrBit st (2 + b))

/-! ### TDM ports -/

/-- The endpoint of a TDM slot (Table 17.6), and the claim of a slot (R359). -/
def tdmEndpoint (port slot : Nat) : Nat := (4 + port) * 4096 + slot
def slotClaim (port slot : Nat) : Nat := if port = 0 then O.TDM_A_SLOT_CLAIM slot else O.TDM_B_SLOT_CLAIM slot

/-- TDM_CLOCK_LOSS (R358). -/
def execTdmClockLoss (port : Fin 2) (s : State) : Res :=
  whenOk (s.rd (O.TDM_LOCKED port) == 1) s fun s =>
    (s.wr (O.TDM_LOCKED port) 0).inc (O.TDM_CLOCK_LOSSES port)

/-- TDM_RELOCK (R358): eight valid frames of a target's clocks within ±200 ppm, at the measured rate. -/
def execTdmRelock (port : Fin 2) (ppm : Int) (s : State) : Res :=
  whenOk (s.ready 0x28 && s.domOn 61 && s.rd (O.TDM_ROLE port) != 0 && s.rd (O.TDM_LOCKED port) == 0 &&
      decide (-20000 ≤ ppm ∧ ppm ≤ 20000)) s fun s =>
    let s := if s.rd (O.TDM_ROLE port) = 1 then s.put (O.TDM_RATE_PPM port) (.n (toU 32 ppm)) else s
    s.wr (O.TDM_LOCKED port) 1

/-- A slot whose output its owner has enabled, on a port whose clocks run (R359). -/
def State.slotOut (s : State) (port slot : Nat) : Bool :=
  let t := s.rd (slotClaim port slot)
  decide (t < 32) && (s.rd (O.TDM_TX_SLOTS port t)).testBit slot && s.rd (O.TDM_LOCKED port) == 1

/-- The enabled context that feeds an endpoint. -/
def State.feeder (s : State) (e : Nat) : Option Nat :=
  (List.range 96).find? fun k =>
    let t := s.streamOwner k
    decide (t < 32) && s.rd (O.STR_ENABLE k t) == 1 && (s.stream k).active.sink == e

/-- TDM_UNDERRUN (R359, R423): the slot's route delivers no block in time. -/
def execTdmUnderrun (port : Fin 2) (slot : Fin 8) (frames : Nat) (s : State) : Res :=
  whenOk (s.slotOut port slot) s fun s =>
    match s.feeder (tdmEndpoint port slot) with
    | none => s
    | some k =>
      let x := s.stream k
      let t := s.streamOwner k
      let s := if x.active.srcEntries ≠ 0 ∧ x.srcHead = x.srcTail ∧ (s.rd (O.STR_SOURCE k t) / 4096 = 1 ∨
          s.rd (O.STR_SOURCE k t) / 4096 = 2) then s.addTo (O.STR_UNDERRUNS k t) frames else s
      (s.addTo (O.TDM_UNDERRUNS port) frames).emitOut (.tdm port slot (List.replicate frames 0))

end Sys2Proof.Machine
end

