-- ==== Sys2Proof/Machine/Streams.lean ====
section
/-!
DEFINITION. Stream contexts (R421-R427): endpoints, the checks of enabling and committing, rings and descriptors, the
movement of blocks, route changes with their crossfade (R360), frames from and to the network ports and the transmit
timestamps of R401.
-/

namespace Sys2Proof.Machine

/-! ### Endpoints (Table 17.6) -/

def epKind (e : Nat) : Nat := e / 4096
def epInst (e : Nat) : Nat := e % 4096
def isRing (e : Nat) : Bool := epKind e == 1 || epKind e == 2
def isTdm (e : Nat) : Bool := epKind e == 4 || epKind e == 5
def isAudio (e : Nat) : Bool := epKind e == 3 || isTdm e
def isNet (e : Nat) : Bool := epKind e == 7 || epKind e == 8

/-- An endpoint that exists: the instance lies in its range. -/
def epExists (e : Nat) : Bool :=
  decide (1 ≤ epKind e ∧ epKind e ≤ 8) && (if isAudio e then decide (epInst e < 8) else epInst e == 0)

/-- The permitted pairings of R422. -/
def pairing (src snk : Nat) : Bool :=
  epExists src && epExists snk &&
  (isRing src && isRing snk || isAudio src && (isTdm snk || isRing snk) || isRing src && isTdm snk ||
   epKind src == 6 && isRing snk || isNet src && (isRing snk || isNet snk) || isRing src && isNet snk)

/-- The rate of an audio endpoint in kHz. -/
def State.audioKhz (s : State) (e : Nat) : Nat :=
  rateKhz (if epKind e = 3 then s.rd O.SAMPLE_RATE else s.rd (O.TDM_RATE (epKind e - 4)))

/-- The source lies on the audio grid (R427, Table 17.8): ADC, or TDM whose port is CONTROLLER. -/
def State.onGrid (s : State) (e : Nat) : Bool :=
  epKind e == 3 || isTdm e && s.rd (O.TDM_ROLE (epKind e - 4)) == 2

/-- The owner holds the endpoint's claim (R51, R422). -/
def State.epClaimed (s : State) (t e : Nat) : Bool :=
  if isTdm e then s.rd (slotClaim (epKind e - 4) (epInst e)) == t
  else if epKind e = 6 then s.rd O.RING_CONSUMER_CLAIM == t
  else true

/-- A ring's size or place is refused (R422). -/
def State.ringBad (s : State) (t e base n : Nat) : Bool :=
  isRing e && (!([2, 4, 8, 16, 32, 64, 128, 256, 512, 1024, 2048, 4096].contains n) ||
    epKind e == 2 && !s.allocOk t base (32 * n))

/-- The unit of an endpoint, or of the memory that holds its ring. -/
def State.epUnit (s : State) (t e base : Nat) : Nat :=
  if epKind e = 2 then (if base < lodgeBase then 0x19 + s.channelOf t base / 4 else 0x18)
  else (endpointUnit e).getD 0x29

/-! ### Checks of R422 -/

/-- The route fields of an instance: the shadows of an enabled context (R426). -/
def State.shadow (s : State) (k t : Nat) : Route :=
  { sink := s.rd (O.STR_SINK k t), smooth := s.on (O.STR_SMOOTH k t), srcBase := s.rd (O.STR_SRC_RING_BASE k t),
    srcEntries := s.rd (O.STR_SRC_RING_ENTRIES k t), snkBase := s.rd (O.STR_SNK_RING_BASE k t),
    snkEntries := s.rd (O.STR_SNK_RING_ENTRIES k t) }

def State.strEnabled (s : State) (k : Nat) : Bool :=
  let t := s.streamOwner k
  decide (t < 32) && s.rd (O.STR_ENABLE k t) == 1

/-- The contexts of a tenant that are enabled. -/
def State.ownStreams (s : State) (t : Nat) : List Nat :=
  (List.range 96).filter fun k => s.streamOwner k == t && s.strEnabled k

/-- The checks of R422 on a context's own fields. -/
def State.routeAborts (s : State) (k t : Nat) (r : Route) : List Abort :=
  let src := s.rd (O.STR_SOURCE k t)
  (if pairing src r.sink then [] else [.outOfRange]) ++
  (if s.epClaimed t src && s.epClaimed t r.sink then [] else [.notOwned]) ++
  (if s.ringBad t src r.srcBase r.srcEntries || s.ringBad t r.sink r.snkBase r.snkEntries then [.notConfigured] else []) ++
  (if s.ready (s.epUnit t src r.srcBase) && s.ready (s.epUnit t r.sink r.snkBase) then [] else [.notReady]) ++
  (if isAudio src && isTdm r.sink && s.audioKhz src != s.audioKhz r.sink then [.outOfRange] else []) ++
  (if s.rd (O.STR_CLASS k t) = 1 ∧ !s.on (O.LC_PERMITTED t) then [.tenantDenied] else [])

/-- A sink that only one context may feed. DEDUCED: a ring belongs to its context. -/
def soleSink (e : Nat) : Bool := isTdm e || isNet e

/-- Some context other than `k` for which `p` holds feeds the sink, now or from its next boundary. -/
def State.sinkTaken (s : State) (k e : Nat) (p : Nat → Bool) : Bool :=
  soleSink e && (List.range 96).any fun j =>
    j != k && p j && s.strEnabled j &&
      ((s.stream j).active.sink == e || ((s.stream j).pending.map Route.sink) == some e)

/-- The aborts of a write of 1 to ENABLE by tenant `w` to instance `t` (R421, R422). -/
def State.enableAborts (s : State) (k t w : Nat) : List Abort :=
  (if s.streamOwner k = t ∧ (w = t ∨ w = 0) then [] else [.notOwned]) ++
  s.routeAborts k t (s.shadow k t) ++
  (if s.sinkTaken k (s.rd (O.STR_SINK k t)) (fun _ => true) then [.outOfRange] else [])

/-- The aborts of a STREAM_COMMIT (R426, R427). -/
def State.commitAborts (s : State) (t : Nat) : List Abort :=
  let mine := s.ownStreams t
  mine.flatMap fun k =>
    let r := s.shadow k t
    s.routeAborts k t r ++
    (if s.sinkTaken k r.sink (fun j => s.streamOwner j != t) then [.outOfRange] else []) ++
    (if soleSink r.sink && mine.any (fun j => j != k && s.rd (O.STR_SINK j t) == r.sink) then [.outOfRange] else []) ++
    (if soleSink r.sink && mine.any (fun j => j != k && (s.stream j).active.sink == r.sink &&
        !(s.onGrid (s.rd (O.STR_SOURCE j t)) && s.onGrid (s.rd (O.STR_SOURCE k t)))) then [.outOfRange] else [])

/-! ### Enabling, disabling and committing -/

/-- A context starts (R422). Writing 1 to one that runs changes nothing (DEDUCED). -/
def State.enableStream (s : State) (k t : Nat) : State :=
  if s.rd (O.STR_ENABLE k t) = 1 ∧ s.rd (O.STR_STATE k t) ≠ 3 then s
  else
    let r := s.shadow k t
    let s := s.modStream k fun _ => { StreamCtx.reset with active := r }
    let s := ((s.put (O.STR_ENABLE k t) (.n 1)).put (O.STR_BLOCK_SEQ k t) (.n 0)).put (O.STR_COMMIT_PENDING k t) (.n 0)
    (s.put (O.STR_FAULT_CAUSE k t) (.n 0)).wr (O.STR_STATE k t) (if isRing (s.rd (O.STR_SOURCE k t)) then 2 else 1)

/-- A context is disabled; a handover that it carries ends (R354). -/
def State.disableStream (s : State) (k t : Nat) : State :=
  if s.rd (O.STR_ENABLE k t) = 1 then
    let s := if s.audio.ring.handover.map Handover.stream = some k then s.endHandover 3 else s
    let s := s.modStream k fun _ => StreamCtx.reset
    ((s.put (O.STR_ENABLE k t) (.n 0)).put (O.STR_COMMIT_PENDING k t) (.n 0)).wr (O.STR_STATE k t) 0
  else s

/-- Every context of a tenant is disabled (R430, R447). -/
def State.disableStreams (s : State) (t : Nat) : State :=
  (List.range 96).foldl (fun s k => s.disableStream k t) s

/-- An accepted STREAM_COMMIT (R426). -/
def State.commitStreams (s : State) (t : Nat) : State :=
  (s.ownStreams t).foldl (fun s k =>
    let s := if (s.stream k).pending.isSome then s.inc (O.STR_SUPERSEDED k t) else s
    (s.modStream k fun x => { x with pending := some (s.shadow k t) }).put (O.STR_COMMIT_PENDING k t) (.n 1)) s

/-! ### Doorbells and posts (R423) -/

/-- The fields of a STREAM_DOORBELL: context, ring (true: sink) and tail; none with a reserved bit or no context. -/
def doorbellOf (v : Nat) : Option (Nat × Bool × Nat) :=
  if bits v 15 8 ≠ 0 ∨ bits v 31 28 ≠ 0 ∨ 96 ≤ bits v 6 0 then none else some (bits v 6 0, v.testBit 7, bits v 27 16)

/-- Ring positions from `a` up to `b`. -/
def ringSpan (a b n : Nat) : List Nat := (List.range ((b + n - a) % n)).map fun i => (a + i) % n

/-- A tail of the tenant's context moves, from a doorbell or a post; an abort where it cannot. -/
def State.moveTail (s : State) (t v : Nat) (post invalid : Bool) : Except Abort State :=
  match doorbellOf v with
  | none => .error .outOfRange
  | some (k, sink, tail) =>
    if !(s.strEnabled k) || s.streamOwner k != t then .error .notOwned
    else
      let x := s.stream k
      let e := if sink then x.active.sink else s.rd (O.STR_SOURCE k t)
      let n := if sink then x.active.snkEntries else x.active.srcEntries
      if !isRing e || n ≤ tail || post && epKind e != 2 then .error .outOfRange
      else if sink then .ok (s.modStream k fun x => { x with snkTail := tail })
      else
        let span := ringSpan x.srcTail tail n
        .ok (s.modStream k fun x =>
          { x with srcTail := tail,
                   invalidFrom := x.invalidFrom.filter (fun i => !span.contains i) ++ if invalid then span else [] })

/-! ### Network frames -/

/-- The UDP destination port of a frame over IPv4 or IPv6, and where its payload starts. -/
def udpPort (f : List Byte) : Option (Nat × Nat) :=
  let ty := beNat (slice f 12 2)
  if ty = 0x0800 ∧ field f 23 1 = 17 then
    let o := 14 + field f 14 1 % 16 * 4
    some (beNat (slice f (o + 2) 2), o + 8)
  else if ty = 0x86DD ∧ field f 20 1 = 17 then some (beNat (slice f 56 2), 62)
  else none

/-- Where a PTP message starts in a frame; none for other frames. -/
def ptpAt (f : List Byte) : Option Nat :=
  if beNat (slice f 12 2) = 0x88F7 then some 14
  else match udpPort f with
    | some (p, o) => if p = 319 ∨ p = 320 then some o else none
    | none => none

/-- NYP, PTP and ARP traffic, which reaches no context (R423). -/
def State.ownTraffic (s : State) (f : List Byte) : Bool :=
  beNat (slice f 12 2) == 0x0806 || (ptpAt f).isSome || (udpPort f).map Prod.fst == some (s.rd O.UDP_PORT)

/-- The frame matches a NET_FILTER (R423). -/
def matchesFilter (flt f : List Byte) : Bool :=
  slice f 12 2 == slice flt 0 2 &&
    (beNat (slice f 12 2) != 0x0800 || (udpPort f).map Prod.fst == some (beNat (slice flt 2 2)))

/-- The transmit timestamp of a PTP event message of tenant 0 (R401, R396). -/
def State.txStamp (s : State) (port t : Nat) (f : List Byte) : State :=
  match ptpAt f with
  | none => s
  | some o =>
    let ty := field f o 1 % 16
    if t ≠ 0 ∨ 4 ≤ ty then s
    else
      let lat := s.rdI 32 (if port = 0 then O.NET0_TX_LATENCY else O.NET1_PHY_TX_LATENCY)
      let q := if port = 0 then s.net.txts0 else s.net.txts1
      if 16 ≤ q.length then
        (s.inc (if port = 0 then O.NET0_TXTS_DROPS else O.NET1_TXTS_DROPS)).put
          (if port = 0 then O.NET0_TXTS_OVERFLOW else O.NET1_TXTS_OVERFLOW) (.n 1)
      else
        let id := port + 16 * ty + 256 * field f (o + 4) 1 + 65536 * beNat (slice f (o + 30) 2)
        let e := leBytes 4 id ++ time96Bytes ((s.timeNow : Int) + lat).toNat
        if port = 0 then { s with net := { s.net with txts0 := q ++ [e] } }
        else { s with net := { s.net with txts1 := q ++ [e] } }

/-- The port may transmit (R394, R402). -/
def State.netSends (s : State) (port : Nat) : Bool :=
  s.ready (0x21 + port) && s.domOn (57 + port) &&
    (s.rdB (if port = 0 then O.NET0_MAC else O.NET1_MAC)).any (· != 0)

/-! ### Blocks into a sink -/

/-- The activity that a context's transfers are charged to (R331, R422). -/
def State.strAct (s : State) (k t : Nat) : Nat := actNo t (s.rd (O.STR_CLASS k t) == 1)

/-- Bytes of a ring's memory written: host or device by the ring's kind. -/
def State.ringPut (s : State) (e t a : Nat) (bs : List Byte) : State :=
  if epKind e = 1 then s.hput t a bs else s.tput t a bs

/-- A descriptor's reserved bits (Table 17.7), or an address out of place: the FAULT_CAUSE, 0 if none. -/
def State.descFault (s : State) (e t : Nat) (d : List Byte) : Nat :=
  let a := field d 0 8
  if 128 ≤ field d 0x14 2 ∨ field d 0x16 2 ≠ 0 then 4
  else if a % 64 ≠ 0 ∨ (epKind e = 2 ∧ !s.allocOk t a (field d 8 4)) then 3
  else 0

/-- A descriptor finishes (R423): USED, BLOCK_SEQ, TIME and DFLAGS, and vector 9 with IRQ. -/
def State.finishDesc (s : State) (e t a used seq time flags : Nat) : State :=
  let s := s.ringPut e t (a + 0x0C) (leBytes 4 used ++ leBytes 4 seq ++ leBytes 2 flags)
  let s := s.ringPut e t (a + 0x18) (leBytes 8 time)
  if flags.testBit 4 then s.msix t 9 else s

/-- Data moved to or from a ring's buffer, charged (R331). -/
def State.chargeRing (s : State) (e act a n : Nat) (write : Bool) : State :=
  if epKind e = 1 then s.charge act (if write then 11 else 10) n else s.trafficRange act a n write

/-- A block into a sink ring (R423, R424, R426). -/
def State.toRing (s : State) (k t time seq : Nat) (data : List Byte) (valid : Bool) (snk : List Byte) : State :=
  let x := s.stream k
  let e := x.active.sink
  if x.snkHead = x.snkTail then
    (s.inc (O.STR_DROPS k t)).modStream k fun x => { x with gapNext := true }
  else
    let at_ := x.active.snkBase + 32 * x.snkHead
    let d := if epKind e = 1 then slice snk 0 32 else s.tbytes t at_ 32
    let c := s.descFault e t d
    if c ≠ 0 then s.streamFault k c
    else
      let n := min (field d 8 4) data.length
      let flags := 1 + (if valid then 2 else 0) + (if x.gapNext then 4 else 0) + (if x.routeChange then 8 else 0) +
        (if (field d 0x14 2).testBit 4 then 16 else 0) + (if n < data.length then 32 else 0)
      let s := s.ringPut e t (field d 0 8) (data.take n)
      let s := (s.chargeRing e (s.strAct k t) (field d 0 8) n true).finishDesc e t at_ n seq time flags
      s.modStream k fun x =>
        { x with snkHead := (x.snkHead + 1) % x.active.snkEntries, gapNext := false, routeChange := false }

/-- The samples of a block of int32 (R339, R359). -/
def samplesOf (data : List Byte) : List Int := (List.range (data.length / 4)).map fun i => sx 32 (field data (4 * i) 4)

/-- The crossfade of R360 over the first 64 samples; a side that delivers nothing counts as 0. -/
def crossfade (prev next : List Int) : List Int :=
  (List.range 64).map fun i => shrRhe (nth prev i 0 * (64 - (i : Int)) + nth next i 0 * (i : Int)) 6

/-- Samples sent on a TDM slot, if its output is enabled (R359). -/
def State.toSlot (s : State) (e : Nat) (xs : List Int) : State :=
  if s.slotOut (epKind e - 4) (epInst e) then s.emitOut (.tdm (epKind e - 4) (epInst e) xs) else s

/-- A block to the context's sink. `valid` is VALID as far as its source and its post decide it (R424). -/
def State.deliverTo (s : State) (k t : Nat) (w : List Byte) (valid : Bool) (snk : List Byte) : State :=
  let x := s.stream k
  let e := x.active.sink
  let data := w.drop 12
  let s := s.charge (s.strAct k t) 12 (ceilDiv data.length 64)
  if isRing e then s.toRing k t (field w 0 8) (field w 8 4) data (valid && !s.on (O.OUTPUT_INVALID t)) snk
  else if isTdm e then
    let xs := samplesOf data
    let out := if x.hist = [] then xs else crossfade x.hist xs ++ xs.drop 64
    (s.toSlot e out).modStream k fun x => { x with hist := [], routeChange := false }
  else
    let port := epKind e - 7
    if s.netSends port then
      (s.emitOut (.streamFrame port (data ++ leBytes 4 (crc32 data)))).txStamp port t data
    else s

/-! ### Route changes (R426, R427) -/

/-- The context that takes over sink `e` from `k` in the commit that waits. -/
def State.taker (s : State) (k e : Nat) : Option Nat :=
  (List.range 96).find? fun j => j != k && s.strEnabled j && ((s.stream j).pending.map Route.sink) == some e

/-- The sample time is a boundary of a grid of `ms` milliseconds from E, to the nearest millisecond. -/
def State.onBoundary (s : State) (time ms : Nat) : Bool :=
  (time - s.audio.alignedAt + unitsPerMs / 2) / unitsPerMs % ms == 0

/-- The pending set may take effect at this boundary: a sink that moves between contexts waits for an instant that is a
boundary of both, and is given before it is taken. -/
def State.mayApply (s : State) (k t time : Nat) (r : Route) : Bool :=
  let e := (s.stream k).active.sink
  let gives := match if soleSink e ∧ r.sink ≠ e then s.taker k e else none with
    | some j => s.onBoundary time (max (s.rd (O.STR_BLOCK_MS k t)) (s.rd (O.STR_BLOCK_MS j t)))
    | none => true
  gives && !(soleSink r.sink && r.sink != e &&
    (List.range 96).any fun j => j != k && s.strEnabled j && (s.stream j).active.sink == r.sink)

/-- A pending set takes effect; `block` holds the samples of the first block on the new route. -/
def State.applyRoute (s : State) (k t time : Nat) (block : List Int) : State :=
  let x := s.stream k
  match x.pending with
  | none => s
  | some r =>
    if !s.mayApply k t time r then s
    else
      let old := x.active.sink
      let moved := r.sink != old
      let s := match if moved ∧ isTdm old then s.taker k old else none with
        | some j => s.modStream j fun y => { y with hist := (block ++ List.replicate 64 0).take 64 }
        | none => if moved && isTdm old && r.smooth then s.toSlot old (crossfade block []) else s
      let srcNew := decide (r.srcBase ≠ x.active.srcBase ∨ r.srcEntries ≠ x.active.srcEntries)
      let snkNew := decide (r.snkBase ≠ x.active.snkBase ∨ r.snkEntries ≠ x.active.snkEntries)
      let s := s.modStream k fun x => { x with
        active := r, pending := none, routeChange := true,
        hist := if moved ∧ isTdm r.sink ∧ r.smooth then (if x.hist = [] then List.replicate 64 0 else x.hist) else [],
        srcHead := if srcNew then 0 else x.srcHead, srcTail := if srcNew then 0 else x.srcTail,
        snkHead := if snkNew then 0 else x.snkHead, snkTail := if snkNew then 0 else x.snkTail,
        invalidFrom := if srcNew then [] else x.invalidFrom }
      let s := (s.put (O.STR_COMMIT_PENDING k t) (.n 0)).put (O.STR_APPLIED_SEQ k t) (.n (s.rd (O.STR_BLOCK_SEQ k t)))
      s.event (O.STR_APPLIED_SEQ k t) 0 0x2F 0

/-! ### Block boundaries -/

/-- A block from a source ring (R423): the next descriptor is taken, delivered and finished. -/
def State.ringBlock (s : State) (k t : Nat) (block srcDesc snkDesc : List Byte) (time : Nat) : State :=
  let x := s.stream k
  let src := s.rd (O.STR_SOURCE k t)
  if x.srcHead = x.srcTail then s.wr (O.STR_STATE k t) 2
  else if s.spent (s.strAct k t) 12 then s
  else
    let s := s.wr (O.STR_STATE k t) 1
    let at_ := x.active.srcBase + 32 * x.srcHead
    let d := if epKind src = 1 then slice srcDesc 0 32 else s.tbytes t at_ 32
    let c := s.descFault src t d
    if c ≠ 0 then s.streamFault k c
    else
      let size := field d 8 4
      let data := if epKind src = 1 then slice block 0 size else s.tbytes t (field d 0 8) size
      let seq := s.rd (O.STR_BLOCK_SEQ k t)
      let e := x.active.sink
      let bad := isTdm e && size != 4 * s.rd (O.STR_BLOCK_MS k t) * s.audioKhz e ||
        isNet e && !decide (60 ≤ size ∧ size ≤ 1514)
      let flags := Nat.lor (field d 0x14 2) (if bad then 0x41 else 1)
      let valid := (field d 0x14 2).testBit 1 && !x.invalidFrom.contains x.srcHead
      let s := if bad then s
        else (s.chargeRing src (s.strAct k t) (field d 0 8) size false).deliverTo k t (waitBlock time seq data) valid snkDesc
      if s.rd (O.STR_STATE k t) = 3 then s
      else
        let s := s.finishDesc src t at_ (if bad then 0 else size) seq (time % 2 ^ 64) flags
        (s.modStream k fun x =>
          { x with srcHead := (x.srcHead + 1) % x.active.srcEntries,
                   invalidFrom := x.invalidFrom.filter (· != x.srcHead) }).put (O.STR_BLOCK_SEQ k t) (.n ((seq + 1) % 2 ^ 32))

/-- Waiting blocks are delivered while the ROUTER pass is not spent (R423); the records of a handover wait for
descriptors, other blocks do not. -/
def State.deliverWaiting (s : State) (k t : Nat) (snkDesc : List Byte) : Nat → State
  | 0 => s
  | n + 1 =>
    let x := s.stream k
    match x.waiting with
    | [] => s
    | w :: rest =>
      if s.spent (s.strAct k t) 12 || s.rd (O.STR_STATE k t) == 3 ||
          epKind (s.rd (O.STR_SOURCE k t)) == 6 && x.snkHead == x.snkTail then s
      else
        ((s.modStream k fun x => { x with waiting := rest }).deliverTo k t w true snkDesc).deliverWaiting k t
          (if x.snkHead = x.snkTail then snkDesc else snkDesc.drop 32) n

/-- While the ROUTER pass is spent, an audio or NET source keeps two blocks waiting (R423). -/
def State.limitWaiting (s : State) (k t : Nat) : State :=
  let n := (s.stream k).waiting.length
  if s.spent (s.strAct k t) 12 && decide (2 < n) then
    (s.addTo (O.STR_DROPS k t) (n - 2)).modStream k fun x => { x with waiting := x.waiting.drop (n - 2) }
  else s

/-- The samples of an audio source's block, as int32 (R339, R359); none where the source delivers none. -/
def State.audioBlock (s : State) (src t : Nat) (block : List Byte) : Option (List Int) :=
  if epKind src = 3 then
    if s.converting (epInst src) && decide (3 ≤ s.rd O.POWER_STATE) then
      some ((s.adcBlock (epInst src) (samplesOf block)).map (· * 256))
    else none
  else if s.rd (O.TDM_LOCKED (epKind src - 4)) = 1 ∧ (s.rd (O.TDM_RX_SLOTS (epKind src - 4) t)).testBit (epInst src) then
    some (samplesOf block)
  else none

/-- A block boundary of an enabled context (R425). -/
def State.streamBoundary (s : State) (k : Nat) (block srcDesc snkDesc : List Byte) (time : Nat) : State :=
  let t := s.streamOwner k
  let src := s.rd (O.STR_SOURCE k t)
  if isRing src then
    let x := s.stream k
    let d := s.tbytes t (x.active.srcBase + 32 * x.srcHead) 32
    let first := if epKind src = 1 then block
      else if x.srcHead = x.srcTail then [] else s.tbytes t (field d 0 8) (min 256 (field d 8 4))
    (s.applyRoute k t time (samplesOf first)).ringBlock k t block srcDesc snkDesc time
  else if isAudio src then
    match s.audioBlock src t block with
    | none => s
    | some xs =>
      let s := (s.applyRoute k t time xs).sourceBlock k time (xs.flatMap fun v => leBytes 4 (toU 32 v))
      (s.limitWaiting k t).deliverWaiting k t snkDesc 3
  else (s.applyRoute k t time []).deliverWaiting k t snkDesc 1

/-- STREAM_BLOCK_BOUNDARY (R425). For an ADC source `block` holds the 27 decimator outputs before the block and the
block's; for TDM the received samples; for a host ring the buffer that `srcDesc` names. -/
def execStreamBlockBoundary (ctx : Fin 96) (block srcDesc snkDesc : List Byte) (sampleTime : Nat) (s : State) : Res :=
  let t := s.streamOwner ctx
  whenOk (s.strEnabled ctx && s.rd (O.STR_STATE ctx t) != 3 && s.admitted t && s.ready 0x2F &&
      !(s.rd (O.TDI_STATE t) == 3 && (epKind (s.rd (O.STR_SOURCE ctx t)) == 1 || epKind (s.stream ctx).active.sink == 1)))
    s fun s => s.streamBoundary ctx block srcDesc snkDesc sampleTime

/-- NET_FRAME_RX (R423): a frame joins every context that takes it; the device's own traffic reaches none. -/
def execNetFrameRx (port : Fin 2) (frame : List Byte) (s : State) : Res :=
  whenOk (s.ready (0x21 + port) && s.domOn (57 + port) && !s.ownTraffic frame) s fun s =>
    (List.range 96).foldl (fun s k =>
      let t := s.streamOwner k
      if s.strEnabled k && s.rd (O.STR_STATE k t) != 3 && s.admitted t &&
          s.rd (O.STR_SOURCE k t) == (7 + port.val) * 4096 && matchesFilter (s.rdB (O.STR_NET_FILTER k t)) frame then
        (s.sourceBlock k s.timeNow frame).limitWaiting k t
      else s) s

end Sys2Proof.Machine
end

