-- ==== Sys2Proof/Machine/Grants.lean ====
section
/-!
DEFINITION. Grants and claims: cores, ways, channels, Lodge segments, save regions, stream windows and pass shares
(R295, R296, R316-R319, R327, R330, R334, Table 12.8), and the release of claims (R49, R50).
-/

namespace Sys2Proof.Machine

/-! ### Cores -/

/-- The slot of a core in a save region lies inside it (R327). -/
def slotCovered (size core : Nat) : Bool := decide ((core + 1) * 2228224 ≤ size)

/-- The cores of a tenant's grant, as core numbers. -/
def State.grantedCores (s : State) (t : Nat) : List Nat :=
  (List.range 16).filter fun c => (s.rd (O.CORE_GRANT (c / 4) t)).testBit (c % 4)

/-- The LC-permitted tenant other than `t` that holds core `c` in its grant (R316). -/
def State.otherLc (s : State) (t c : Nat) : Option Nat :=
  (List.range 32).find? fun u => u != t && s.on (O.LC_PERMITTED u) && (s.rd (O.CORE_GRANT (c / 4) u)).testBit (c % 4)

/-- The first of some cores that another LC tenant holds. -/
def State.lcClash (s : State) (t : Nat) (cs : List Nat) : List Abort :=
  match cs.filterMap (s.otherLc t) with
  | u :: _ => [.ownedBy u]
  | [] => []

/-- A write to CORE_GRANT of tenant `t` in Rink `r` (R316). -/
def State.coreGrantAborts (s : State) (t r v : Nat) : List Abort :=
  if v = 0 then []
  else
    let cs := ((List.range 4).filter fun c => v.testBit c).map fun c => 4 * r + c
    let hosts := (List.range 32).filter fun u => u != t && s.rd (O.CORE_GRANT r u) != 0
    (if 4 ≤ hosts.length then [.outOfRange] else []) ++
    (if s.on (O.LC_PERMITTED t) then s.lcClash t cs else []) ++
    (if s.rd (O.WAY_GRANT r t) = 0 then [.notConfigured] else []) ++
    (if cs.all (slotCovered (s.rd (O.SAVE_SIZE t))) then [] else [.notConfigured])

/-- An accepted CORE_GRANT: the context forms or dissolves, and TEN_RINKS follows (R153, R315). -/
def State.setCoreGrant (s : State) (t r v : Nat) : State := (s.put (O.CORE_GRANT r t) (.n v)).refreshContext t r

/-- A write to LC_PERMITTED (R316). -/
def State.lcPermittedAborts (s : State) (t v : Nat) : List Abort :=
  if v = 1 then s.lcClash t (s.grantedCores t) else []

/-! ### Ways and windows -/

/-- The other tenant that owns way `w` of Rink `r`. -/
def State.otherWay (s : State) (t r w : Nat) : Option Nat :=
  (List.range 32).find? fun u => u != t && (s.rd (O.WAY_GRANT r u)).testBit w

/-- A write to WAY_GRANT (R317); one that names a held way is refused (Table 19.4). -/
def State.wayGrantAborts (s : State) (t r v : Nat) : List Abort :=
  (if Nat.land v (s.rd (O.HELD_WAYS r)) ≠ 0 then [.outOfRange] else []) ++
  (match ((List.range 16).filter v.testBit).filterMap (s.otherWay t r) with
   | u :: _ => [.ownedBy u]
   | [] => []) ++
  (if v = 0 ∧ s.rd (O.CORE_GRANT r t) ≠ 0 then [.outOfRange] else []) ++
  (if v ≠ 0 ∧ popCount 16 v < s.rd (O.WINDOW_WAYS r t) + 1 then [.outOfRange] else [])

/-- An accepted WAY_GRANT (R317): the dirty lines of a lost way are written back before it is cleared. The lines are
not kept by way, so every dirty line of the tenant in the Rink is written back. -/
def State.setWays (s : State) (t r v : Nat) : State :=
  let old := s.rd (O.WAY_GRANT r t)
  let lost := (List.range 16).any fun w => old.testBit w && !v.testBit w
  let s := if lost then s.commit r t else s
  let s := s.put (O.WAY_GRANT r t) (.n v)
  if v = 0 then s.put (O.WINDOW_WAYS r t) (.n 0) else s

/-- The tenant has an instruction in progress or to come in the Rink (Table 12.8). -/
def State.busyIn (s : State) (t r : Nat) : Bool :=
  [t, t + 32].any fun a => match s.activity a with
    | some x => x.set.contains r
    | none => false

/-- A write to WINDOW_WAYS (Table 12.8). -/
def State.windowAborts (s : State) (t r v : Nat) : List Abort :=
  (if popCount 16 (s.rd (O.WAY_GRANT r t)) ≤ v then [.outOfRange] else []) ++
  (if s.busyIn t r then [.unitNotIdle] else [])

/-! ### DRAM channels and Lodge segments -/

/-- A region of nonzero size ends beyond `limit`. -/
def beyond (base size limit : Nat) : Bool := size != 0 && decide (limit < base + size)

/-- A write to CHANNEL_GRANT (R318, Table 13.4). -/
def State.channelAborts (s : State) (t v : Nat) : List Abort :=
  let bytes := popCount 16 v * 2 ^ 30
  let owners := ((List.range 16).filter v.testBit).filterMap fun c =>
    (List.range 32).find? fun u => u != t && (s.rd (O.CHANNEL_GRANT u)).testBit c
  (match owners with
   | u :: _ => [.ownedBy u]
   | [] => []) ++
  (if beyond (s.rd (O.SAVE_BASE t)) (s.rd (O.SAVE_SIZE t)) bytes ||
      beyond (s.rd (O.TABLE_BASE t)) (s.rd (O.TABLE_SIZE t)) bytes then [.outOfRange] else []) ++
  (if s.tenantBusy t || s.streamOn t then [.unitNotIdle] else [])

/-- The contents of a window become undefined, in memory and in the caches (R295). -/
def State.loseWindow (s : State) (t lo hi : Nat) : State :=
  ((List.range 4).foldl (fun s r => s.rdrop r t lo hi) s).tlose t lo hi

/-- An accepted CHANNEL_GRANT (R295). -/
def State.setChannels (s : State) (t v : Nat) : State :=
  if s.rd (O.CHANNEL_GRANT t) = v then s else (s.put (O.CHANNEL_GRANT t) (.n v)).loseWindow t 0 lodgeBase

/-- The interface of a tenant is locked or runs (R459). -/
def State.tdiLocked (s : State) (t : Nat) : Bool := s.rd (O.TDI_STATE t) == 1 || s.rd (O.TDI_STATE t) == 2

/-- A write to LODGE_SEG_OWNER of segment `k` (R296, R459, Table 12.8); a held segment takes none (Table 19.4). -/
def State.lodgeAborts (s : State) (k v : Nat) : List Abort :=
  (if (s.rd O.HELD_SEGMENTS).testBit k then [.outOfRange] else []) ++
  let o := s.rd (O.LODGE_SEG_OWNER k)
  let ts := [o, v].filter fun t => decide (t < 32)
  (if o != v && ts.any s.tdiLocked then [.tenantDenied] else []) ++ (if ts.any s.tenantBusy then [.unitNotIdle] else [])

/-- An accepted LODGE_SEG_OWNER: the mapping of both owners' Lodge windows changes (R295). -/
def State.setSegment (s : State) (k v : Nat) : State :=
  let o := s.rd (O.LODGE_SEG_OWNER k)
  if o = v then s
  else
    let s := s.put (O.LODGE_SEG_OWNER k) (.n v)
    ([o, v].filter fun t => decide (t < 32)).foldl (fun s t => s.loseWindow t lodgeBase (2 ^ 40)) s

/-- Writes to SAVE_BASE and SAVE_SIZE (Table 13.4), with the values they leave. -/
def State.saveAborts (s : State) (t base size : Nat) : List Abort :=
  (if beyond base size (s.dramBytes t) || !(s.grantedCores t).all (slotCovered size) then [.outOfRange] else [])

/-- Writes to TABLE_BASE and TABLE_SIZE (Table 7.13), with the values they leave. -/
def State.tableAborts (s : State) (t base size : Nat) : List Abort :=
  (if beyond base size (s.dramBytes t) then [.outOfRange] else []) ++ (if s.tenantBusy t then [.unitNotIdle] else [])

/-! ### Pass shares -/

/-- The sum of reserves of a resource, DRAM as the largest over its channels (R330, 6320). -/
def State.reserveTotal (s : State) (res : Nat) : Nat :=
  if res = 9 then
    (List.range 16).foldl (fun m c => max m ((List.range 32).foldl (fun n t =>
      if (s.rd (O.CHANNEL_GRANT t)).testBit c then n + s.rd (O.LC_RESERVE 9 t) else n) 0)) 0
  else (List.range 32).foldl (fun n t => n + s.rd (O.LC_RESERVE res t)) 0

/-- A write to a share of tenant `t`: 0 LC_RESERVE, 1 LC_LIMIT, 2 BE_LIMIT (R330). -/
def State.shareAborts (s : State) (t which res v : Nat) : List Abort :=
  match which with
  | 0 => if s.rd (O.LC_LIMIT res t) < v ∨ 1024 < (s.put (O.LC_RESERVE res t) (.n v)).reserveTotal res then [.outOfRange] else []
  | 1 => if v < s.rd (O.LC_RESERVE res t) then [.outOfRange] else []
  | _ => []

/-- An accepted share shows MISMATCH until the next boundary (R334). -/
def State.setShare (s : State) (k v : Nat) : State :=
  if s.rd k = v then s else (s.put k (.n v)).setMismatch k true

/-- The shares and grants of a tenant at their values after power-up (R319). -/
def State.dropGrants (s : State) (t : Nat) : State :=
  let s := (List.range 4).foldl (fun s r => ((s.commit r t).setCoreGrant t r 0).setWays t r 0) s
  let s := s.setChannels t 0
  let s := ((s.put (O.LC_PERMITTED t) (.n 0)).put (O.BE_WEIGHT t) (.n 1)).put (O.SAVE_BASE t) (.n 0)
  let s := s.put (O.SAVE_SIZE t) (.n 0)
  (List.range 13).foldl (fun s res =>
    ((s.setShare (O.LC_RESERVE res t) 0).setShare (O.LC_LIMIT res t) 1024).setShare (O.BE_LIMIT res t) 1024) s

/-! ### Claims -/

/-- A claimable resource: class 0 TIME_IO, 1 TRIG, 2 TDM_A slots, 3 TDM_B slots, 4 the ring consumer, 5 stream contexts
(Table 1.16), and its number. -/
def claimOf (k : Nat) : Option (Nat × Nat) :=
  let i := keyIdx k
  if 0x1200 ≤ i ∧ i ≤ 0x1205 then some (i - 0x1200, keySub k - 1) else none

/-- The enabled stream contexts of tenant `t` that use the endpoint `e`. -/
def State.usersOf (s : State) (t e : Nat) : List Nat :=
  (s.ownStreams t).filter fun k =>
    s.rd (O.STR_SOURCE k t) == e || (s.stream k).active.sink == e || ((s.stream k).pending.map Route.sink) == some e

/-- The feature that uses a resource is enabled (R50). -/
def State.claimBusy (s : State) (cls n t : Nat) : Bool :=
  match cls with
  | 0 => s.rd (O.TIO_MODE n t) != 0
  | 1 => s.rd (O.TRIG_ACTIONS n t) != 0
  | 2 => s.usersOf t (0x4000 + n) != []
  | 3 => s.usersOf t (0x5000 + n) != []
  | 4 => s.audio.ring.handover.isSome || s.usersOf t 0x6000 != []
  | _ => s.rd (O.STR_ENABLE n t) == 1

/-- The feature that uses a resource is disabled at once (R50, R354, R421). -/
def State.disableFeature (s : State) (cls n t : Nat) : State :=
  match cls with
  | 0 => s.setTio n t 0
  | 1 => s.setTrig n t 0
  | 2 => (s.usersOf t (0x4000 + n)).foldl (fun s k => s.disableStream k t) s
  | 3 => (s.usersOf t (0x5000 + n)).foldl (fun s k => s.disableStream k t) s
  | 4 => let s := s.endHandover 2; (s.usersOf t 0x6000).foldl (fun s k => s.disableStream k t) s
  | _ => s.disableStream n t

/-- The endpoints of a tenant: its mailbox and its OPEN sessions. -/
def State.endpointsOf (s : State) (t : Nat) : List Nat :=
  t :: ((List.range 16).filter fun n => s.rd (O.SESSION_STATE n) == 2 && s.rd (O.SESSION_TENANT n) == t).map (· + 32)

/-- A claim is revoked (R50): the feature is disabled, and the former owner's endpoints receive an event on the claim
object, besides those that subscribed to it. -/
def State.revoke (s : State) (k cls n t : Nat) : State :=
  let s := (s.disableFeature cls n t).wr k 0xFF
  let info : EvInfo := { time := s.timeNow, code := 0, unit := s.objUnit k, flags := 0, value := [0xFF] }
  ((s.endpointsOf t).filter fun e => !(s.subs.any fun b => b.ep == e && b.key == k)).foldl
    (fun s e => s.queueEvent e k info) s

/-- Every claim object. -/
def claimKeys : List Nat :=
  (List.range 4).map O.TIME_IO_CLAIM ++ (List.range 8).map O.TRIG_CLAIM ++ (List.range 8).map O.TDM_A_SLOT_CLAIM ++
  (List.range 8).map O.TDM_B_SLOT_CLAIM ++ [O.RING_CONSUMER_CLAIM] ++ (List.range 96).map O.STREAM_CLAIM

/-- All claims of a tenant are revoked (R50, R447). -/
def State.revokeAll (s : State) (t : Nat) : State :=
  claimKeys.foldl (fun s k =>
    match claimOf k with
    | some (cls, n) => if s.rd k = t then s.revoke k cls n t else s
    | none => s) s

end Sys2Proof.Machine
end

