-- ==== Sys2Proof/Machine/Spdm.lean ====
section
/-!
DEFINITION. The SPDM responder (R455, R456): negotiation, certificates, measurements and secured sessions. What
DSP0274 1.2 lays down and the spec only names, message octets among it, follows that standard (PRESUMED); bytes that
neither gives are free, and secrets stay behind opaque functions.
-/

namespace Sys2Proof.Machine

def State.modSec (s : State) (g : Security → Security) : State := { s with security := g s.security }

/-- A response with its version, code and parameters. -/
def spdmMsg (code p1 p2 : Nat) (rest : List Byte) : List Byte :=
  leBytes 1 0x12 ++ leBytes 1 code ++ leBytes 1 p1 ++ leBytes 1 p2 ++ rest

/-- An ERROR response, counted in 8030.02. -/
def State.spdmError (s : State) (code : Nat) : State := (s.emitOut (.spdm (spdmMsg 0x7F code 0 []))).inc O.SPDM_ERRORS

/-- Error codes of DSP0274. -/
def spdmInvalid : Nat := 0x01
def spdmNoSession : Nat := 0x02
def spdmBusy : Nat := 0x03
def spdmUnexpected : Nat := 0x04
def spdmDecrypt : Nat := 0x06
def spdmUnsupported : Nat := 0x07
def spdmSessions : Nat := 0x0A
def spdmVersion : Nat := 0x41
def spdmNotReady : Nat := 0x42

/-- A request that reaches Patrol through the DOE mailbox of the physical function. While a task is in progress the
answer is ResponseNotReady (R432, R455). -/
def doeCmd (s : State) (go : State → State) : Res :=
  whenOk (s.linkUp && s.ready 0x2C) s fun s => if s.security.tasks = [] then go s else s.spdmError spdmNotReady

/-- A request of code `code` at a negotiation phase of at least `phase`. -/
def State.spdmAt (s : State) (code phase : Nat) (msg : List Byte) (go : State → State) : State :=
  if field msg 1 1 ≠ code then s.spdmError spdmUnsupported
  else if field msg 0 1 ≠ 0x12 then s.spdmError spdmVersion
  else if s.security.spdmPhase < phase then s.spdmError spdmUnexpected
  else go s

/-- A response sent; request and response join the transcript. -/
def State.spdmSend (s : State) (msg resp : List Byte) : State :=
  (s.modSec fun x => { x with transcript := x.transcript ++ msg ++ resp }).emitOut (.spdm resp)

/-! ### Negotiation -/

/-- GET_VERSION (R455, Table 18.9): 1.2 is the one version. -/
def State.spdmGetVersion (s : State) (msg : List Byte) : State :=
  if field msg 1 1 ≠ 0x84 then s.spdmError spdmUnsupported
  else
    let resp := [0x10, 0x04, 0, 0, 0, 1] ++ leBytes 2 0x1200
    (s.modSec fun x => { x with spdmPhase := 1, transcript := msg ++ resp }).emitOut (.spdm resp)

/-- The capability flags of Table 18.9: CERT, CHAL, MEAS with signature, MEAS_FRESH, ENCRYPT, MAC, KEY_EX, HBEAT, KEY_UPD. -/
def spdmFlags : Nat := 2 ^ 1 + 2 ^ 2 + 2 ^ 4 + 2 ^ 5 + 2 ^ 6 + 2 ^ 7 + 2 ^ 9 + 2 ^ 13 + 2 ^ 14

/-- GET_CAPABILITIES: CTExponent 17 (R455); the transfer sizes are free. -/
def State.spdmCapabilities (s : State) (msg : List Byte) : State :=
  s.spdmAt 0xE1 1 msg fun s =>
    let (sizes, s) := s.freeBytes 8
    let s := s.spdmSend msg (spdmMsg 0x61 0 0 ([0, 17, 0, 0] ++ leBytes 4 spdmFlags ++ sizes))
    s.modSec fun x => { x with spdmPhase := max 2 x.spdmPhase }

/-- The algorithm structure of a type in a NEGOTIATE_ALGORITHMS: what it offers. -/
def algOffer (msg : List Byte) (ty : Nat) : Nat :=
  ((List.range (field msg 2 1)).findSome? fun i =>
    if field msg (32 + 4 * i) 1 = ty then some (field msg (34 + 4 * i) 2) else none).getD 0

/-- NEGOTIATE_ALGORITHMS: those of Table 18.9, where the request offers them. -/
def State.spdmAlgorithms (s : State) (msg : List Byte) : State :=
  s.spdmAt 0xE3 2 msg fun s =>
    let pick := fun (offer bit : Nat) => Nat.land offer bit
    let alg := fun (ty bit : Nat) => leBytes 1 ty ++ leBytes 1 0x20 ++ leBytes 2 (pick (algOffer msg ty) bit)
    let body := leBytes 2 52 ++ leBytes 1 (pick (field msg 6 1) 1) ++ [0] ++ leBytes 4 4 ++
      leBytes 4 (pick (field msg 8 4) 0x80) ++ leBytes 4 (pick (field msg 12 4) 2) ++ List.replicate 16 0 ++
      alg 2 0x10 ++ alg 3 2 ++ alg 4 0 ++ alg 5 1
    (s.spdmSend msg (spdmMsg 0x63 4 0 body)).modSec fun x => { x with spdmPhase := 3 }

/-! ### Certificates -/

/-- Slot 0 is provisioned (R436). -/
def State.provisioned (s : State) : Bool := s.rdB O.CERT_CHAIN != []

/-- The chain of slot 0: its length, the root hash, the chain written and the Alias certificate (R436). -/
def State.slotChain (s : State) : List Byte :=
  let body := s.rdB O.CERT_CHAIN ++ Config.aliasCert s.security.aliasGen
  leBytes 2 (52 + body.length) ++ [0, 0] ++ s.rdB (O.ROOT_HASH 0) ++ body

/-- GET_DIGESTS. -/
def State.spdmDigests (s : State) (msg : List Byte) : State :=
  s.spdmAt 0x81 3 msg fun s =>
    if s.provisioned then s.spdmSend msg (spdmMsg 0x01 0 1 (sha384 s.slotChain)) else s.spdmSend msg (spdmMsg 0x01 0 0 [])

/-- GET_CERTIFICATE, of slot 0 only. -/
def State.spdmCertificate (s : State) (msg : List Byte) : State :=
  s.spdmAt 0x82 3 msg fun s =>
    let chain := s.slotChain
    let off := field msg 4 2
    if field msg 2 1 ≠ 0 ∨ !s.provisioned ∨ chain.length ≤ off then s.spdmError spdmInvalid
    else
      let n := min (field msg 6 2) (chain.length - off)
      s.spdmSend msg (spdmMsg 0x02 0 0 (leBytes 2 n ++ leBytes 2 (chain.length - off - n) ++ slice chain off n))

/-! ### Measurements -/

/-- The device record (Table 18.11). -/
def State.deviceRecord (s : State) : List Byte :=
  leBytes 1 (s.rd O.GRADE) ++ leBytes 1 (s.rd O.DEBUG_LEVEL) ++ leBytes 2 (s.rd O.STEPPING) ++
  leBytes 4 (s.rd O.POWERUP_NONCE) ++ leBytes 8 (s.rd O.RESULT_BASIS) ++ leBytes 4 (s.rd O.CONFIG_GENERATION) ++
  leBytes 1 (s.rd O.CONFIG_STATE) ++ leBytes 1 (s.rd O.IDE_LINK_STATE) ++ [0, 0] ++ leBytes 4 (s.rd (O.FW_SVN 0)) ++
  leBytes 4 (s.rd (O.FW_SVN 1)) ++ leBytes 4 (s.rd (O.FW_SVN 2)) ++ [0, 0, 0, 0] ++ leBytes 8 (s.rd O.HELD)

/-- A bitmap of some numbers. -/
def bitmap (xs : List Nat) : Nat := xs.foldl setBit 0

/-- The tenant record (Table 18.12). -/
def State.tenantRecord (s : State) (t : Nat) : List Byte :=
  leBytes 1 t ++ leBytes 1 (s.rd (O.SLOT_STATE t)) ++
  leBytes 1 (s.rd (O.DEBUG_CONSENT t) + 2 * s.rd (O.PROFILE_CONSENT t)) ++ leBytes 1 (s.rd (O.LC_PERMITTED t)) ++
  leBytes 4 (s.rd (O.SLOT_EPOCH t)) ++ leBytes 2 (bitmap (s.tenantCores t)) ++ leBytes 2 (s.rd (O.CHANNEL_GRANT t)) ++
  ((List.range 4).flatMap fun r => leBytes 2 (s.rd (O.WAY_GRANT r t))) ++ leBytes 4 (bitmap (s.segments t)) ++
  leBytes 2 (s.rd (O.PROG_COUNT t)) ++ leBytes 2 (s.rd (O.WEIGHT_COUNT t)) ++ leBytes 1 (s.rd (O.TDI_STATE t)) ++
  [0, 0, 0] ++ s.rdB (O.PROG_DIGEST t) ++ s.rdB (O.WEIGHT_DIGEST t)

/-- The measurement blocks (Table 18.10): index, DMTF value type (bit 7: raw) and content. -/
def State.measurements (s : State) : List (Nat × Nat × List Byte) :=
  (1, 0, s.rdB O.ROM_DIGEST) :: (List.range 3).map (fun k => (k + 2, 1, s.rdB (O.FW_DIGEST k))) ++
  (5, 0x82, s.deviceRecord) :: (List.range 32).map fun t => (0x10 + t, 0x83, s.tenantRecord t)

/-- A block as DSP0274 frames it. -/
def measureBlock (x : Nat × Nat × List Byte) : List Byte :=
  let n := x.2.2.length
  leBytes 1 x.1 ++ [1] ++ leBytes 2 (n + 3) ++ leBytes 1 x.2.1 ++ leBytes 2 n ++ x.2.2

/-- The session a request arrives in: 0 is none, and another must be established. -/
def State.inSession (s : State) (id : Nat) : Bool :=
  id == 0 || s.security.sessions.any fun x => x.id == id && x.established

/-- The signature over the transcript, with the nonce of the present draw. -/
def State.signWith (s : State) (body : List Byte) : List Byte :=
  Config.aliasSig s.security.aliasGen (beNat (sha384 (s.security.transcript ++ body))) s.security.draws

/-- GET_MEASUREMENTS (R456): one snapshot, signed where asked. Without entropy no nonce can be drawn: Busy. -/
def State.spdmMeasurements (s : State) (id : Nat) (msg : List Byte) : State :=
  s.spdmAt 0xE0 3 msg fun s =>
    let sig : Bool := field msg 2 1 % 2 == 1
    let op := field msg 3 1
    let all := s.measurements
    let bs := if op = 0 then [] else if op = 0xFF then all else all.filter fun x => x.1 == op
    if !s.inSession id then s.spdmError spdmNoSession
    else if op ≠ 0 ∧ bs = [] ∨ sig && !s.provisioned then s.spdmError spdmInvalid
    else if s.rd O.ENTROPY_STATE ≠ 1 then s.spdmError spdmBusy
    else
      let (nonce, s) := s.draw 32
      let rec' := bs.flatMap measureBlock
      let body := spdmMsg 0x60 (if op = 0 then all.length else 0) 0
        (leBytes 1 bs.length ++ leBytes 3 rec'.length ++ rec' ++ nonce ++ [0, 0])
      s.spdmSend msg (if sig then body ++ s.signWith (msg ++ body) else body)

/-- The summary hash a request asks for (0 none, 1 immutable parts, 0xFF all). -/
def State.summaryHash (s : State) (kind : Nat) : List Byte :=
  if kind = 0 then []
  else sha384 ((s.measurements.filter fun x => kind != 1 || x.1 == 1).flatMap measureBlock)

/-- CHALLENGE: signed with the Alias key; without a certificate chain there is no signed response (R436). -/
def State.spdmChallenge (s : State) (msg : List Byte) : State :=
  s.spdmAt 0x83 3 msg fun s =>
    if field msg 2 1 ≠ 0 ∨ !s.provisioned then s.spdmError spdmInvalid
    else if s.rd O.ENTROPY_STATE ≠ 1 then s.spdmError spdmBusy
    else
      let (nonce, s) := s.draw 32
      let body := spdmMsg 0x03 0 1 (sha384 s.slotChain ++ nonce ++ s.summaryHash (field msg 3 1) ++ [0, 0])
      s.spdmSend msg (body ++ s.signWith (msg ++ body))

/-! ### Secured sessions -/

def State.setSessions (s : State) (xs : List SpdmSession) : State :=
  (s.modSec fun x => { x with sessions := xs }).wr O.SPDM_SESSIONS xs.length

/-- The checks of a KEY_EXCHANGE before its key request: the error it meets. -/
def State.exchangeError (s : State) (msg : List Byte) : Option Nat :=
  if field msg 3 1 ≠ 0 ∨ !s.provisioned ∨ (p384Point (4 :: slice msg 40 96)).isNone then some spdmInvalid
  else if 4 ≤ s.security.sessions.length then some spdmSessions
  else none

/-- KEY_EXCHANGE opens a session (R455); the DRBG, reseeded (R437), gives its keys and random data. -/
def State.openSession (s : State) (msg : List Byte) : State :=
  let used := s.security.sessions.map fun x => x.id / 65536
  let rsp := (([1, 2, 3, 4].filter fun n => !used.contains n).headD 1)
  let keys := s.security.draws
  let (random, s) := s.draw 32
  let (exch, s) := s.freeBytes 96
  let (vd, s) := s.freeBytes 48
  let body := spdmMsg 0x64 0 0 (leBytes 2 rsp ++ [0, 0] ++ random ++ exch ++ s.summaryHash (field msg 2 1) ++ [0, 0])
  let s := s.spdmSend msg (body ++ s.signWith (msg ++ body) ++ vd)
  s.setSessions (s.security.sessions ++ [{ id := field msg 4 2 + 65536 * rsp, established := false, draw := keys, updates := 0 }])

/-- A request in a session that stands as `est` says. -/
def State.withSession (s : State) (id : Nat) (est : Bool) (go : State → SpdmSession → State) : State :=
  match s.security.sessions.find? fun x => x.id == id && x.established == est with
  | some x => go s x
  | none => s.spdmError spdmNoSession

def State.dropSession (s : State) (id : Nat) : State := s.setSessions (s.security.sessions.filter fun x => x.id != id)

/-- FINISH: the session is established if the verify data agree, else it ends. -/
def State.spdmFinish (s : State) (id : Nat) (msg : List Byte) : State :=
  s.spdmAt 0xE5 3 msg fun s => s.withSession id false fun s x =>
    if Config.finishOk x.draw msg then
      (s.setSessions (s.security.sessions.map fun y => if y.id = id then { y with established := true } else y)).spdmSend
        msg (spdmMsg 0x65 0 0 [])
    else (s.dropSession id).spdmError spdmDecrypt

def State.spdmEndSession (s : State) (id : Nat) (msg : List Byte) : State :=
  s.spdmAt 0xEC 3 msg fun s => s.withSession id true fun s _ =>
    (s.emitOut (.spdm (spdmMsg 0x6C 0 0 []))).dropSession id

def State.spdmBeat (s : State) (id : Nat) (msg : List Byte) : State :=
  s.spdmAt 0xE8 3 msg fun s => s.withSession id true fun s _ => s.emitOut (.spdm (spdmMsg 0x68 0 0 []))

/-- KEY_UPDATE: operation 1 or 2 replaces keys, 3 verifies the new ones. -/
def State.spdmKeyUpdate (s : State) (id : Nat) (msg : List Byte) : State :=
  s.spdmAt 0xE9 3 msg fun s => s.withSession id true fun s _ =>
    let op := field msg 2 1
    if op = 0 ∨ 3 < op then s.spdmError spdmInvalid
    else
      let s := if op = 3 then s
        else s.setSessions (s.security.sessions.map fun y => if y.id = id then { y with updates := y.updates + 1 } else y)
      s.emitOut (.spdm (spdmMsg 0x69 op (field msg 3 1) []))

end Sys2Proof.Machine
end

