-- ==== Sys2Proof/Machine/Patrol.lean ====
section
/-!
DEFINITION. Patrol: host transfers of jobs (R418), its tasks in their order (R432), firmware (R439-R443, R461), key
requests (R438), admission (R445, R446) and removal of tenants (R447), and the measurement of R454.
-/

namespace Sys2Proof.Machine

/-! ### Host transfers -/

/-- The transfer of a job fails (R418): cause of Table 19.11's HOST_DMA_FAULT. -/
def State.failTransfer (s : State) (f q cause : Nat) : State :=
  match (s.queue f q).job with
  | none => s
  | some j =>
    let (bs, s) := s.freeBytes j.length
    let s := match j.opcode with
      | 2 => s.tput f j.devAddr bs
      | 3 => s.hput f j.hostAddr bs
      | 9 => s.bput j.devAddr bs
      | _ => s
    (s.err 0x0402 2 0x20 f (j.hostAddr % 2 ^ 32) cause).failJob f q .notReady

/-- A job's host transfer begins; with the link down it fails at once (R418). -/
def State.beginTransfer (s : State) (f q : Nat) (j : Job) : State :=
  let s := s.modQueue f q fun x => { x with job := some { j with waitsHost := true } }
  if s.linkUp then s else s.failTransfer f q 1

/-! ### Firmware (R439-R443) -/

/-- The rejection causes of Table 18.5. -/
inductive FwCause where
  | format | size | signer | signature | envelope | decrypt | busy | locked
deriving DecidableEq, Repr

def FwCause.num : FwCause → Nat
  | .format => 1
  | .size => 2
  | .signer => 3
  | .signature => 4
  | .envelope => 5
  | .decrypt => 6
  | .busy => 7
  | .locked => 8

/-- The completion status of a cause. -/
def FwCause.abort : FwCause → Abort
  | .format | .size => .outOfRange
  | .signer | .signature | .envelope | .decrypt => .integrityFault
  | .busy => .unitNotIdle
  | .locked => .tenantDenied

/-- Every byte of a field is 0. -/
def zeros (bs : List Byte) (off len : Nat) : Bool := (slice bs off len).all (· == 0)

/-- The largest body of an image kind (Table 18.4). -/
def bodyMax (kind : Nat) : Nat := if kind = 1 then 524288 else 262144

/-- Step 1 of R440: the header of Table 18.3, for the kind that the job names in ARG0. -/
def fwFormat (img : List Byte) (kind : Nat) : Bool :=
  decide (0x400 ≤ img.length) && field img 0 4 == 0x5A564657 && field img 4 2 == 1 && decide (1 ≤ kind ∧ kind ≤ 3) &&
  field img 6 1 == kind && zeros img 7 1 && zeros img 0x70 16 && zeros img 0xE1 31 && zeros img 0x1C1 31 &&
  zeros img 0x238 456

/-- The content key of R440 step 3; none where TARGET differs or the unwrap fails. -/
def State.contentKey (s : State) (h : List Byte) : Option (List Byte) :=
  let eph := slice h 0x160 97
  if slice h 0x208 48 != s.rdB O.DEVICE_ID_DIGEST || (p384Point eph).isNone then none
  else
    let z := Config.encShared (beNat eph)
    aesUnwrap (hkdf384 (List.replicate 48 0) z (strBytes "ZVFW" ++ slice h 0x40 48) 32) (slice h 0x1E0 40)

/-- The units of an image kind are idle (R441). -/
def State.fwIdle (s : State) (kind : Nat) : Bool :=
  if kind = 3 then !(List.range 16).any fun i => s.camOn i && s.rd (O.ISP i) != 0 else s.compute.acts.isEmpty

/-- The checks of R440, R441 and R461 over the copied image: the decrypted body, or the first cause that rejects it. -/
def State.fwCheck (s : State) (img : List Byte) (kind : Nat) : Except FwCause (List Byte) :=
  let n := field img 0x10 4
  let body := slice img 0x400 n
  let signer := slice img 0x80 97
  let aad := slice img 0 0x20 ++ List.replicate 16 0 ++ slice img 0x30 0xD0
  if (List.range 32).any s.tdiLocked then .error .locked
  else if !fwFormat img kind then .error .format
  else if n % 64 ≠ 0 ∨ bodyMax kind < n ∨ img.length < 0x400 + n then .error .size
  else if sha384 signer ≠ s.rdB (O.ROOT_HASH 0) ∧ sha384 signer ≠ s.rdB (O.ROOT_HASH 1) then .error .signer
  else if !ecdsaVerify signer (sha384 (slice img 0 0x100)) (slice img 0x100 96) || sha384 body != slice img 0x40 48 then
    .error .signature
  else match s.contentKey img with
    | none => .error .envelope
    | some key =>
      if (nth s.security.images (kind - 1) none).isSome && !s.fwIdle kind then .error .busy
      else match gcmOpen key (slice img 0x14 12) aad body (slice img 0x20 16) with
        | some plain => .ok plain
        | none => .error .decrypt

/-- RESULT_BASIS (R443). -/
def State.resultBasis (s : State) : Nat :=
  match nth s.security.images 0 none, nth s.security.images 1 none with
  | some a, some b => field (sha384 (slice a.header 0x30 16 ++ slice b.header 0x30 16)) 0 8
  | _, _ => 0

/-- The set of installed firmware has changed: measurements 2-4, the Alias key and RESULT_BASIS follow, and every secured
session ends (R435, R443). -/
def State.firmwareSet (s : State) : State :=
  let m := fun k => match nth s.security.images k none with
    | some x => sha384 (slice x.header 0 0x100)
    | none => List.replicate 48 0
  let s := (List.range 3).foldl (fun s k => s.put (O.FW_DIGEST k) (.b (m k))) s
  let g := beNat (m 0 ++ m 1 ++ m 2)
  let s := (s.put O.ALIAS_KEY (.b (Config.aliasKey g))).put O.RESULT_BASIS (.n s.resultBasis)
  (s.modSec fun x => { x with aliasGen := g }).setSessions []

/-- An image is installed (R441): the Rink control cores restart from a new scheduler. -/
def State.install (s : State) (kind : Nat) (header body : List Byte) : State :=
  let k := kind - 1
  let base := if k = 0 then 0 else if k = 1 then 0x80000 else 0xC0000
  let s := (s.modSec fun x => { x with images := x.images.set k (some { header, body }) }).unpoison (poisonPatrol 1 base)
    (poisonPatrol 1 (base + body.length - 1))
  let s := (s.put (O.FW_VERSION k) (.n (field header 8 4))).put (O.FW_SVN k) (.n (field header 0xC 4))
  let s := s.firmwareSet
  let s := if kind = 1 then
      let s := (List.range 4).foldl (fun s r =>
        (if s.ready (0x10 + r) then s.wr (O.RCC_STATE r) 1 else s).put (O.RCC_FW_VERSION r) (.n (field header 8 4))) s
      s.pollRcc
    else s
  s.wr (O.FW_STATE k) 2

/-- The copy of a firmware image has ended (R440): it is staged, verified, and installed or rejected. -/
def State.loadFirmwareImage (s : State) (f q : Nat) (j : Job) (data : List Byte) : State :=
  let img := slice data 0 j.length
  let kind := j.arg0
  let known : Bool := decide (1 ≤ kind ∧ kind ≤ 3)
  let was := s.rd (O.FW_STATE (kind - 1))
  let s := (s.modSec fun x => { x with staging := img }).unpoison (poisonPatrol 0 0) (poisonPatrol 0 (img.length - 1))
  let s := if known then s.wr (O.FW_STATE (kind - 1)) 1 else s
  match s.fwCheck img kind with
  | .ok plain => (s.install kind (slice img 0 0x400) plain).finishJob f q 0 0 0 0 0
  | .error c =>
    let s := if known then s.wr (O.FW_STATE (kind - 1)) was else s
    let s := s.err 0x0601 0 0x2C 0xFF c.num kind
    (s.setEv O.FW_LAST_REJECT c.num 0x0601 0x2C 0).failJob f q c.abort

/-! ### Admission and removal -/

/-- The trace records of a tenant are overwritten with zeros (R465). -/
def State.clearTrace (s : State) (t : Nat) : State :=
  s.modSec fun x => { x with trace := x.trace.filter fun p => field p.2 15 1 != t }

/-- A consent takes a value (R464). -/
def State.setConsent (s : State) (t : Nat) (isProfile : Bool) (v : Nat) : State :=
  let k := if isProfile then O.PROFILE_CONSENT t else O.DEBUG_CONSENT t
  if s.rd k = v then s
  else
    let s := ((s.put k (.n v)).event k 0 0x2C 0).inc (O.CONSENT_CHANGES t)
    if isProfile && v == 0 then s.clearTrace t else s

/-- The measurement registers of a tenant cleared (R453). -/
def State.clearMeasures (s : State) (t : Nat) : State :=
  let z : Val := .b (List.replicate 48 0)
  let s := ((s.put (O.PROG_DIGEST t) z).put (O.WEIGHT_DIGEST t) z).put (O.PROG_COUNT t) (.n 0)
  (s.put (O.WEIGHT_COUNT t) (.n 0)).modSec fun x => { x with progLogs := modNth x.progLogs t fun _ => [] }

/-- Steps A3 and A4 (Table 18.6a): the key set is drawn and installed, and the slot is ADMITTED. -/
def State.admitNow (s : State) (t : Nat) : State :=
  let s := s.modSec fun x => { x with slots := x.slots.set t x.draws, draws := x.draws + 1 }
  let s := ((s.clearMeasures t).setConsent t false 0).setConsent t true 0
  let s := (s.inc (O.SLOT_EPOCH t)).put (O.ADMITTED_AT t) (.n s.timeNow)
  let s := s.setEv (O.SLOT_STATE t) 2 0 0x2C 0
  (List.range 8).foldl (fun s q => s.takeReserved t q 64) s

/-- The subscriptions of an endpoint end (R35, R45). -/
def State.endSubs (s : State) (e : Nat) : State := { s with subs := s.subs.filter fun b => b.ep != e }

/-- A session slot is emptied (R42): key destroyed, every subindex at its value after power-up, and what its endpoint
held ended. -/
def State.discardSession (s : State) (n : Nat) : State :=
  let s := (s.endSubs (32 + n)).modEp (32 + n) fun x => { x with overflow := false, queue := [] }
  let s := { s with
    sessions := s.sessions.set n { key := [], window := [], kept := [] },
    blocks := s.blocks.filter fun b => b.ep != 32 + n, snaps := s.snaps.filter fun b => b.ep != 32 + n }
  let s := ((s.put (O.SESSION_TENANT n) (.n 0)).put (O.SESSION_PORTS n) (.n 0)).put (O.SESSION_PEER n) (.b (List.replicate 18 0))
  ((s.put (O.SESSION_TX_COUNTER n) (.n 0)).put (O.SESSION_RX_COUNTER n) (.n 0)).wr (O.SESSION_STATE n) 0

/-- The jobs of a function end without completions, and its firmware loads leave Patrol's order (R430, R447, R459). -/
def State.dropJobs (s : State) (f : Nat) : State :=
  let s := (s.abandonRun f).abandonRun (f + 32)
  let s := (List.range 8).foldl (fun s q =>
    let s := s.modQueue f q fun x => { x with job := none }
    if s.rd (O.Q_STATE q f) = 2 then s.wr (O.Q_STATE q f) 1 else s) s
  s.modSec fun x => { x with tasks := x.tasks.filter fun t => match t with
    | .firmware g _ => g != f
    | _ => true }

/-- The Groomer clears what a tenant leaves in the cores (R451, Table 18.8). -/
def State.clearCores (s : State) (t : Nat) : State :=
  (List.range 16).foldl (fun s c =>
    let s := s.modCore c fun x => { x with saved := kvDel t x.saved }
    if (s.core c).holds = some t then
      (s.cclear c 0 (2 ^ 21)).modCore c fun x =>
        { x with holds := none, image := [], pages := [], act := none, target := none, quantum := false }
    else s) s

/-- Steps D2 to D5 (Table 18.7). -/
def State.removeNow (s : State) (t : Nat) : State :=
  let s := s.dropJobs t
  let s := s.modSec fun x => { x with tasks := x.tasks.filter fun y => match y with
    | .measure u _ _ => u != t
    | .admission u => u != t
    | _ => true }
  let s := if s.rd (O.MEASURE_STATE t) = 1 then s.wr (O.MEASURE_STATE t) 0 else s
  let s := if s.audio.ring.handover.map Handover.tenant = some t then s.endHandover 2 else s
  let s := (s.disableStreams t).revokeAll t
  let s := ((List.range 16).filter fun n => s.rd (O.SESSION_STATE n) != 0 && s.rd (O.SESSION_TENANT n) == t).foldl
    State.discardSession s
  let s := ((s.endSubs t).dropGrants t).clearCores t
  let s := (s.modSec fun x => { x with slots := x.slots.set t 0 }).tlose t 0 (2 ^ 40)
  let s := (((s.clearMeasures t).setConsent t false 0).setConsent t true 0).clearTrace t
  s.setEv (O.SLOT_STATE t) 0 0 0x2C 0

/-! ### Patrol's tasks (R432) -/

/-- PATROL_STATE shows whether a task is in progress. -/
def State.showPatrol (s : State) : State :=
  if s.ready 0x2C then s.wr O.PATROL_STATE (if s.security.tasks = [] then 1 else 2) else s

/-- The TRNG is READY. -/
def State.entropic (s : State) : Bool := s.rd O.ENTROPY_STATE == 1

/-- The first task is taken up; the second component says whether it has ended. A key request waits for READY (R438), a
firmware load for the first READY and its copy (R440, R442), and a measurement for MEASURE_COMPLETE. -/
def State.taskGo (s : State) (t : PatrolTask) : State × Bool :=
  match t with
  | .measure _ _ _ => (s, false)
  | .firmware f q =>
    match (s.queue f q).job with
    | none => (s, true)
    | some j =>
      if j.waitsHost || !s.security.everReady then (s, false)
      else
        let s := s.beginTransfer f q j
        (s, (s.queue f q).job.isNone)
  | .admission t => if s.entropic then (s.admitNow t, true) else (s, false)
  | .remove t => (s.removeNow t, true)
  | .exchange m => if s.entropic then (s.openSession m, true) else (s, false)

/-- Patrol works through its tasks until one waits. -/
def State.patrolLoop (s : State) : Nat → State
  | 0 => s.showPatrol
  | n + 1 =>
    match s.security.tasks with
    | [] => s.showPatrol
    | t :: rest =>
      let r := (s.modSec fun x => { x with tasks := t :: rest }).taskGo t
      if r.2 then (r.1.modSec fun x => { x with tasks := x.tasks.drop 1 }).patrolLoop n else r.1.showPatrol

def State.patrolRun (s : State) : State := s.patrolLoop s.security.tasks.length

/-- A task joins Patrol's order of arrival. -/
def State.addTask (s : State) (t : PatrolTask) : State :=
  let s := (s.modSec fun x => { x with tasks := x.tasks ++ [t] }).showPatrol
  if s.security.tasks.length = 1 then s.patrolRun else s

/-- The jobs of a function end without completions (R430, R447, R459). -/
def State.abandonJobs (s : State) (f : Nat) : State := (s.dropJobs f).patrolRun

/-- ADMIT (R444, R445): step A1, and the key request in its turn. -/
def State.beginAdmission (s : State) (t : Nat) : State := (s.setEv (O.SLOT_STATE t) 1 0 0x2C 0).addTask (.admission t)

/-- An admission fails for want of entropy (step A2). -/
def State.admitFail (s : State) (t : Nat) : State :=
  let s := s.put (O.SLOT_LAST_ABORT t) (.n Abort.entropyNotReady.code)
  (s.setEv (O.SLOT_STATE t) 4 0x0602 0x2C 0).err 0x0602 2 0x2C t t Abort.entropyNotReady.code

/-- REMOVE (R447): step D1, and the rest in its turn. -/
def State.removeTenant (s : State) (t : Nat) : State :=
  let s := (s.setEv (O.SLOT_STATE t) 3 0 0x2C 0).wr (O.TDI_STATE t) 0
  let s := s.modSec fun x => { x with tasks := x.tasks.filter (· != .admission t) }
  (s.addTask (.remove t)).patrolRun

/-- A key request fails (R438): cause of Table 19.11's KEY_REQUEST_FAIL. -/
def State.keyFail (s : State) (cause : Nat) : State :=
  (s.inc O.KEY_REQUESTS_FAILED).err 0x0603 2 0x2D 0xFF cause 0

end Sys2Proof.Machine
end

