-- ==== Sys2Proof/Machine/Tiles.lean ====
section
/-!
DEFINITION. Tickets and tiles (R209-R211, R277): claiming, loading fabric images (R147), evaluating and completing a
tile with its counters (R173, R174, R177, R180, R185, R310), checksum mismatches and lost cores (R470, R471), and the
tile trace (R465).
-/

namespace Sys2Proof.Machine

/-! ### Evaluation -/

/-- No image: for the opcodes that take none. -/
def FabImage.absent : FabImage := { length := 0, digest := [], luts := [], words := [], loopWord := 0 }

/-- The image in raw bytes that have passed their checks. -/
def imageOf (raw : List Byte) : FabImage :=
  match fabCheck raw with
  | .ok i => i
  | .error _ => FabImage.absent

/-- The first chunk of the chain of a CHUNK tile. -/
def Plan.chainKey (p : Plan) (t : Nat) : Nat := t - p.coord 3 t

/-- A tile of the instruction `u` (R199-R203, R209): its writes, and the state a chain leaves. `imgs` are the images of
its layers. -/
def Ctx.evalTile (x : Ctx) (u : Running) (imgs : List FabImage) (p : Plan) (t : Nat) :
    Except Bad (TileOut × List (List Int)) := do
  let m := x.instr u.idx
  let st := u.staged.headD { rescale := [], group := [], boxes := [] }
  let img := imgs.headD FabImage.absent
  match m.opc with
  | some .matmul | some .matmulBwd =>
    if 1 < p.p0 then pure (← x.evalPartial m st p u.pos t, []) else pure (← x.evalMatrix m st img p t, [])
  | some .conv | some .dwconv | some .tconv => pure (← x.evalConv m st img p t, [])
  | some .elementwise =>
    if p.cls = .spatial then pure (← x.evalElemSpatial m st img p t, []) else pure (← x.evalElemStream m st img p t, [])
  | some .warp => pure (← x.evalWarp m st img p t, [])
  | some .cropResize => pure (← x.evalCrop m st img p t, [])
  | some .reduce => pure (← x.evalReduceOp m st img p t, [])
  | some .gather => pure (← x.evalGather m t, [])
  | some .scatter => pure (← x.evalScatter m t, [])
  | some .copy => pure (← x.evalCopy m p t, [])
  | some .attend => pure (← x.evalAttend m st img u.preempted t, [])
  | some .attendBwd =>
    let r := x.dsEntry m st
    let e := Config.dsExponent r.m r.shift
    if t < x.phase1 m then pure (x.evalBwd1 m st img (e + (x.desc m.b).exp) t, [])
    else pure (x.evalBwd2 m st img (e + (x.desc m.a).exp) ((x.desc m.c).exp - 15) t, [])
  | some .scan | some .filter =>
    let s0 ← match kvGet (p.chainKey t) u.chains with
      | some s => pure s
      | none => x.chainStart m (p.chunk t)
    x.evalChunk m st img p t s0
  | some .fuseBegin => pure (← x.evalGroup (x.layers u.idx) u.staged imgs p t, [])
  | _ => pure (TileOut.empty, [])

/-! ### Claiming -/

/-- The images of an instruction's layers as core `c` holds them, raw (R146, R192). -/
def Ctx.rawImages (x : Ctx) (idx : Nat) : List (List Byte) :=
  (x.unitOf idx).filterMap fun m =>
    if (m.opc.getD .barrier).usesFabric then
      some (x.fabBytes m (max 96 (min (leNat (x.fabBytes m 12 |>.drop 8)) 65536)))
    else none

/-- Loading one image into core `c` where it differs from the one loaded (R147, R453): the check that fails, if any. -/
def State.loadImage (s : State) (c t : Nat) (raw : List Byte) : State × Option Nat :=
  if (s.core c).image = raw then (s, none)
  else match fabCheck raw with
    | .error k => (s.inc (O.FABRIC_REJECTS c), some k)
    | .ok i => (((s.inc (O.FABRIC_LOADS c)).modCore c fun x => { x with image := raw }).logProgram t i.digest, none)

/-- Loading the images of an instruction in order, up to the first that fails. -/
def State.loadImages (s : State) (c t : Nat) : List (List Byte) → State × Option Nat
  | [] => (s, none)
  | raw :: rest =>
    match s.loadImage c t raw with
    | (s, some k) => (s, some k)
    | (s, none) => s.loadImages c t rest

def Activity.modRun (x : Activity) (r : Nat) (g : Running → Running) : Activity :=
  x.modPos r fun p => { p with run := p.run.map g }

/-- The number that names a job in the record of claims: function, queue and completions so far. -/
def State.jobNo (s : State) (x : Activity) : Nat := (x.fn * 8 + x.q) * 2 ^ 32 + s.rd (O.Q_COMPLETED x.q x.fn)

/-- An LC activity's wait for core `c` ends at its first claim (R326). -/
def State.endWait (s : State) (c a : Nat) : State :=
  match s.compute.waits.find? fun w => w.1 == (c, actTenant a) with
  | some w =>
    if actLc a then
      let s := { s with compute := { s.compute with waits := s.compute.waits.filter (· != w) } }
      let k := O.LC_WAIT_MAX_NS (actTenant a)
      s.put k (.n (max (s.rd k) ((s.clock - w.2) % 2 ^ 32)))
    else s
  | none => s

/-- The ticket that core `c` may take: the next of the share, where a suspended chain (R277) waits for the lowest core
that holds none. -/
def State.ticketFor (s : State) (a c : Nat) (p : Plan) (u : Running) : Option Nat :=
  match u.todo with
  | [] => none
  | t :: _ =>
    let holds := fun (d : Nat) => u.claimed.any fun q => q.1 == d
    if p.cls = .chunk ∧ p.coord 3 t ≠ 0 ∧ ((s.coresOf a (c / 4)).find? fun d => !holds d) ≠ some c then none else some t

/-- The memory units behind the descriptors and key-value pages of the instruction or group at `idx` (R294, R311).
DESIGN CHOICE: a tile reaches the whole of each. -/
def State.instrBehind (s : State) (t : Nat) (x : Ctx) (idx : Nat) : Nat :=
  let ls := x.unitOf idx
  let mids := (ls.dropLast.filter fun l => !l.emit).map Macro.out
  ls.foldl (fun n m =>
    let n := ((m.inputs ++ m.outs).filter fun i => !mids.contains i).foldl (fun n i =>
      let (sp, a, k) := x.range m i
      if sp == .dev then Nat.lor n (s.behind t a k) else n) n
    if m.is .attend then Nat.lor n (s.behind t (x.kv m).poolBase ((x.kv m).frames * 65792)) else n) 0

/-- TICKET_CLAIM (R210): the next tile or chain of the share, for a core in service that serves the activity, holds
fewer than two tiles (one chain), and has its CORE pass (R332). With the share exhausted the core waits. -/
def State.claim (s : State) (c : Nat) : State :=
  match (s.core c).act with
  | none => s
  | some a =>
    match s.activity a with
    | none => s
    | some x =>
      let r := c / 4
      match (x.pos r).run with
      | none => s
      | some u =>
        let cx := s.progCtx x.prog a c
        let n := (u.claimed.filter fun q => q.1 == c).length
        match cx.planOf u.idx with
        | none => s
        | some p =>
          if (s.core c).target.isSome ∨ !s.coreServes c ∨ s.claimsStopped ∨ s.spent a r ∨ x.failed.isSome ∨
              (if p.cls = .chunk then 1 else 2) ≤ n then s
          else match s.ticketFor a c p u with
            | none => s
            | some t =>
              let (s, gone) := s.reach a (s.instrBehind (actTenant a) cx u.idx) u.idx
              if gone then s else
              let raws := cx.rawImages u.idx
              match (if (kvGet c u.images).isSome then (s, none) else s.loadImages c (actTenant a) raws) with
              | (s, some k) => (s.err 0x0203 0 c (actTenant a) k u.idx).failRun a .outOfRange u.idx
              | (s, none) =>
                let s := (s.endWait c a).modActivity a fun x => x.modRun r fun u =>
                  { u with todo := u.todo.drop 1, claimed := u.claimed ++ [(c, t)], images := kvPut c raws u.images }
                let e := (a, s.jobNo x)
                { s with integrity := { s.integrity with
                    claims := modNth s.integrity.claims c fun es => if es.contains e then es else es ++ [e] } }

def execTicketClaim (core : Fin 16) (s : State) : Res := whenOk (s.coreOn core.val) s fun s => s.claim core.val

/-! ### Lost cores -/

/-- A core returns its claimed tiles to the ticket counter; a chain returns whole (R471). -/
def Running.giveBack (u : Running) (p : Plan) (c : Nat) : Running :=
  let mine := (u.claimed.filter fun q => q.1 == c).map Prod.snd
  let u := { u with claimed := u.claimed.filter fun q => q.1 != c }
  mine.foldl (fun u t =>
    if p.cls = .chunk then
      { u with todo := insNat (p.chainKey t) u.todo, chains := kvDel (p.chainKey t) u.chains, left := u.left + p.coord 3 t }
    else { u with todo := insNat t u.todo }) u

/-- A core is lost until POR_N (R471, R474). -/
def State.loseCore (s : State) (c cause : Nat) : State :=
  let n := (s.claimsOf c).length
  let t := ((s.core c).act.map actTenant).getD 0xFF
  let s := match (s.core c).act with
    | some a => match s.activity a with
      | some x =>
        let cx := s.progCtx x.prog a c
        s.modActivity a fun x => x.modRun (c / 4) fun u =>
          match cx.planOf u.idx with
          | some p => u.giveBack p c
          | none => u
      | none => s
    | none => s
  let s := s.modCore c fun x => { x with act := none, target := none }
  let s := (s.holdForGood c 0x0208).wr (O.CORE_LOST_CAUSE c) cause
  s.err 0x0208 3 c t cause n

/-! ### Completing a tile -/

/-- Cycles a tile took. -/
def tileCycles (u : TileUse) : Nat := u.busy + u.conflicts + u.stalls.foldl (· + ·) 0

/-- The core's cycles counted and charged (6003-6006, 7040, 7050, Table 13.3). -/
def State.countTile (s : State) (c a : Nat) (u : TileUse) : State :=
  let s := (s.addTo (O.CORE_BUSY_CYCLES c) u.busy).addTo (O.CLM_CONFLICT_CYCLES c) u.conflicts
  let s := s.addTo (O.CORE_STALL_CYCLES c) (u.stalls.foldl (· + ·) 0)
  let s := (List.range 12).foldl (fun s i =>
    (s.addTo (O.CORE_STALL_CAUSE c i) (nth u.stalls i 0)).addTo (O.TEN_STALL_CAUSE i (actTenant a)) (nth u.stalls i 0)) s
  s.charge a (c / 4) (tileCycles u)

/-- What a tile's statistics count (6101, 7020.07). -/
def State.countStats (s : State) (t : Nat) (st : TileStats) : State :=
  let s := s.addTo (O.ESC_CORRECTIONS t) st.escapes
  let s := s.addTo (O.ESC_OVERFLOW_TILES t) st.escOverflow
  let s := if st.nonFinite then s.inc (O.NONFINITE_TILES t) else s
  let s := if st.headroom then s.inc (O.HEADROOM_TILES t) else s
  (s.addTo (O.FLOAT_SATURATIONS t) st.saturated).addTo (O.TRANSPOSED_TILES t) st.transposed

/-- A tile's writes: through the Rink cache, past it as whole engine-ready tiles (R303), and into the program-placed
region of every core of the tenant (R203). -/
def State.applyOut (s : State) (r a : Nat) (o : TileOut) : State :=
  let t := actTenant a
  let s := o.lines.foldl (fun s w => s.rput r a w) s
  let s := o.erts.foldl (fun s w => s.rdrop r t w.addr (w.addr + 1)) (s.devPut r t o.erts)
  let lines := sortDedup (o.erts.map fun w => w.addr / 256)
  let s := lines.foldl (fun s l => s.traffic a (l * 256) (o.erts.filter fun w => w.addr / 256 == l).length true) s
  (s.tenantCores t).foldl (fun s c =>
    let s := o.clm.foldl (fun (s : State) (w : Wr) => s.cput c w.addr [BitVec.ofNat 8 w.val]) s
    s.modCore c fun x => { x with pages := o.clm.foldl (fun ps w => insNat (w.addr / 4096) ps) x.pages }) s

/-- The trace record of a completed tile (R465). -/
def State.traceTile (s : State) (c a t cycles : Nat) : State :=
  let ten := actTenant a
  if (s.rd O.TRACE_TENANTS).testBit ten && s.on (O.PROFILE_CONSENT ten) then
    let f := s.freqNow (c / 4)
    let start := s.timeNow - (if f = 0 then 0 else cycles * 1000 * 65536 / f)
    let rec' := leBytes 8 start ++ leBytes 4 t ++ leBytes 2 (min 65535 (cycles / 64)) ++ leBytes 1 c ++ leBytes 1 ten
    { s with security := { s.security with
        trace := kvPut (s.security.traceCount % 4096) rec' s.security.trace, traceCount := s.security.traceCount + 1 } }
  else s

/-- A slot group of R211 still holds another block. -/
def Running.slotTaken (u : Running) (p : Plan) (t : Nat) : Bool :=
  decide (1 < p.p0) && u.partials.any fun q => q / p.p0 % 4 == t / p.p0 % 4 && q / p.p0 != t / p.p0

/-- The reduction of the block of tile `t` once its partials all stand in scratch (R211). -/
def State.reduceBlock (s : State) (a c : Nat) (x : Activity) (p : Plan) (t : Nat) : State × TileStats :=
  let r := c / 4
  match ((s.activity a).bind fun y => (y.pos r).run) with
  | none => (s, TileStats.zero)
  | some u =>
    let b := t / p.p0 * p.p0
    if (List.range p.p0).all fun k => u.partials.contains (b + k) then
      let cx := s.progCtx x.prog a c
      let img := imageOf (((kvGet c u.images).getD []).headD [])
      let o := cx.evalReduce (cx.instr u.idx) (u.staged.headD { rescale := [], group := [], boxes := [] }) img p u.pos t
      let s := s.applyOut r a o
      (s.modActivity a fun x => x.modRun r fun u => { u with partials := u.partials.filter fun q => q / p.p0 != t / p.p0 },
       o.stats)
    else (s, TileStats.zero)

/-- A tile of core `c` has been computed: its effects, and the ticket counter's next state. -/
def State.tileDone (s : State) (c a : Nat) (x : Activity) (u : Running) (p : Plan) (t cycles : Nat) (o : TileOut)
    (chain : List (List Int)) : State :=
  let r := c / 4
  let ten := actTenant a
  let stream := ((s.progCtx x.prog a c).tileStream u.idx p t).map fun q => streamKey q.1 q.2
  let s := s.applyOut r a o
  let last := decide (p.coord 3 t + 1 = nth p.dims 3 1)
  let s := s.modActivity a fun x => (x.modRun r fun u =>
    let u := { u with claimed := u.claimed.filter (· != (c, t)), left := u.left - 1,
                      partials := if p.cls = .matrix ∧ 1 < p.p0 then insNat t u.partials else u.partials }
    if p.cls ≠ .chunk then u
    else if last then { u with chains := kvDel (p.chainKey t) u.chains }
    else
      let u := { u with chains := kvPut (p.chainKey t) chain u.chains }
      if (s.core c).target.isSome ∨ s.claimsStopped ∨ s.spent a r then { u with todo := insNat (t + 1) u.todo }
      else { u with claimed := u.claimed ++ [(c, t + 1)] }).modPos r fun q => q.release u.idx stream
  let (s, st2) := if p.cls = .matrix ∧ 1 < p.p0 then s.reduceBlock a c x p t else (s, TileStats.zero)
  let st := (o.stats.add st2).withFlags
  let s := s.modActivity a fun x => x.modRun r fun u =>
    { u with fflags := Nat.lor u.fflags st.flags, opstat := u.opstat + st.opstat }
  (((s.countStats ten st).inc (O.CORE_TILES c)).traceTile c a t cycles).settleInstr a r

/-- A tile of the instruction reads a poisoned word (R477). DESIGN CHOICE: a tile reads the whole of its instruction's
input descriptors, as far as they hold data. -/
def State.readsPoison (s : State) (c t : Nat) (x : Ctx) (idx : Nat) : Bool :=
  (s.integrity.poisoned != [] || (s.rink (c / 4)).poison != []) &&
  (x.unitOf idx).any fun m => m.inputs.any fun i =>
    let (sp, a, n) := x.range m i
    s.poisonIn c t (sp == .clm) a n

/-- TILE_COMPLETE (R209, R470, R471): the oldest tile that the core holds completes with 0, 1 or 2 checksum
mismatches. Nothing happens while the tile waits for a stream ERT (R306) or a slot group (R211). -/
def State.completeTile (s : State) (c mismatches column : Nat) (use : TileUse) : State :=
  match (s.core c).act with
  | none => s
  | some a =>
    match s.activity a with
    | none => s
    | some x =>
      let r := c / 4
      match (x.pos r).run with
      | none => s
      | some u =>
        let cx := s.progCtx x.prog a c
        match cx.planOf u.idx, u.claimed.find? fun q => q.1 == c with
        | some p, some (_, t) =>
          if !s.streamReady a r u cx p t || u.slotTaken p t then s
          else
            let s := s.countTile c a use
            let s := if mismatches = 0 then s
              else (s.inc (O.CHECKSUM_RETRIES c)).err 0x0205 1 c (actTenant a) t column
            if mismatches = 2 then
              ((s.err 0x0205 3 c (actTenant a) t column).loseCore c 1).settleRun a
            else if s.readsPoison c (actTenant a) cx u.idx then
              let s := s.modActivity a fun x => x.modRun r fun u =>
                { u with claimed := u.claimed.filter (· != (c, t)) }
              (s.failRun a .integrityFault u.idx).settleRun a
            else
              let imgs := ((kvGet c u.images).getD []).map imageOf
              match cx.evalTile u imgs p t with
              | .error b =>
                let s := s.modActivity a fun x => x.modRun r fun u =>
                  { u with claimed := u.claimed.filter (· != (c, t)) }
                (s.reject a r b (some t) u.idx).settleRun a
              | .ok (o, chain) => (s.tileDone c a x u p t (tileCycles use) o chain).settleRun a
        | _, _ => s

def execTileComplete (core : Fin 16) (mismatches : Fin 3) (column : Fin 128) (use : TileUse) (s : State) : Res :=
  whenOk (s.coreOn core.val) s fun s => s.completeTile core.val mismatches.val column.val use

end Sys2Proof.Machine
end

