-- ==== Sys2Proof/Machine/Scheduler.lean ====
section
/-!
DEFINITION. The scheduler (R321-R324), switches (R325, R327) with the program-placed region of a core that joins a
tenant (R192), the stream engine (R306-R309), fills (R304, R305) and refresh (R312).
-/

namespace Sys2Proof.Machine

/-! ### Decisions -/

/-- An activity has an instruction to run in Rink `r` (R321). -/
def State.runnable (s : State) (a r : Nat) : Bool :=
  match s.activity a with
  | none => false
  | some x =>
    let p := x.pos r
    x.failed.isNone && !x.paused && !p.arrived && x.set.contains r && decide (p.pc < x.prog.instrCount)

/-- Core `c` may serve tenant `t`: granted, and in MID only the Mid core for MID_TENANT (R316, R320). -/
def State.granted (s : State) (t c : Nat) : Bool :=
  (s.rd (O.CORE_GRANT (c / 4) t)).testBit (c % 4) &&
  (s.rd O.POWER_STATE != 3 || (c == s.midCoreNo && t == s.rd O.MID_TENANT))

/-- An activity may have core `c`: granted, runnable there and not throttled for CORE (R321, R332). -/
def State.eligible (s : State) (a c : Nat) : Bool :=
  s.granted (actTenant a) c && s.runnable a (c / 4) && !s.spent a (c / 4)

/-- The BE instruction in progress in the Rink has tickets left or claimed tiles of the core (R321, R323). -/
def State.unfinished (s : State) (a c : Nat) : Bool :=
  match (s.activity a).bind fun x => (x.pos (c / 4)).run with
  | some u => u.todo != [] || u.claimed.any fun q => q.1 == c
  | none => false

/-- The deficit of a tenant's BE activity on a core (R323). -/
def State.deficitOf (s : State) (c t : Nat) : Int :=
  ((s.compute.deficit.find? fun d => d.1 == (c, t)).map Prod.snd).getD 0
def State.addDeficit (s : State) (c t : Nat) (n : Int) : State :=
  let v := s.deficitOf c t + n
  { s with compute := { s.compute with
      deficit := ((c, t), v) :: s.compute.deficit.filter fun d => d.1 != (c, t) } }

/-- The tenant with the largest deficit, ties to the lower number. -/
def State.topDeficit (s : State) (c : Nat) (ts : List Nat) : Option Nat :=
  ts.foldl (fun b t => match b with
    | none => some t
    | some u => if s.deficitOf c u < s.deficitOf c t then some t else some u) none

/-- The activity that R321 decides for core `c`, with the deficits of those passed over raised (R323). -/
def State.chooseAct (s : State) (c : Nat) : State × Option Nat :=
  match (List.range 32).find? fun t => s.eligible (t + 32) c with
  | some t => (s, some (t + 32))
  | none =>
    let x := s.core c
    match x.act with
    | some a =>
      if a < 32 && s.eligible a c && s.unfinished a c && !x.quantum then (s, some a) else pick x
    | none => pick x
where
  /-- The weighted round robin of R323. An activity whose quantum has expired yields to another that waits. -/
  pick (x : CoreSt) : State × Option Nat :=
    let ts := (List.range 32).filter fun t => s.eligible t c
    let others := ts.filter fun t => some t != x.act
    let ts := if x.quantum && others != [] then others else ts
    match s.topDeficit c ts with
    | none => (s, none)
    | some t =>
      ((ts.filter (· != t)).foldl (fun s q =>
        s.addDeficit c q ((s.rd (O.BE_WEIGHT q) * s.rd O.BE_QUANTUM_US * s.freqNow (c / 4) : Nat) : Int)) s, some t)

/-- The wait of an LC activity for a core begins when it is eligible and does not have it (R326). -/
def State.noteWaits (s : State) : State :=
  let w := (List.range 16).filterMap fun c =>
    match (List.range 32).find? fun t => s.eligible (t + 32) c with
    | some t =>
      match s.compute.waits.find? fun w => w.1 == (c, t) with
      | some w => some w
      | none => if (s.core c).act = some (t + 32) then none else some ((c, t), s.clock)
    | none => none
  { s with compute := { s.compute with waits := w } }

/-- The decision for one core (R321, R322, R324): none while a switch is under way. An LC activity that takes the core
from a BE activity preempts it. -/
def State.decideCore (s : State) (c : Nat) : State :=
  let x := s.core c
  if !s.coreServes c || !s.coreOn c || s.claimsStopped || (x.target.isSome && (s.claimsOf c).isEmpty) then s
  else
    let (s, d) := s.chooseAct c
    if d = x.act then s.modCore c fun x => { x with target := none }
    else if x.target = some d then s
    else
      let s := match d, x.act with
        | some n, some a => if actLc n && !actLc a then s.inc (O.PREEMPTIONS (actTenant a)) else s
        | _, _ => s
      s.modCore c fun x => { x with target := some d }

/-- SCHEDULER_DECISION (R321, R322): the control core of a Rink decides for each of its cores. -/
def execSchedulerDecision (rink : Fin 4) (s : State) : Res :=
  whenOk (s.rinkOn rink.val && s.ready (0x10 + rink.val)) s fun s =>
    (List.range 4).foldl (fun s i => s.decideCore (4 * rink.val + i)) s.noteWaits

/-- BE_QUANTUM_EXPIRY (R323): the BE activity has held the core for BE_QUANTUM_US, and another one waits for it. -/
def execBeQuantumExpiry (core : Fin 16) (s : State) : Res := whenAlive s fun s =>
  let c := core.val
  match (s.core c).act with
  | some a =>
    if a < 32 ∧ (s.core c).since + s.rd O.BE_QUANTUM_US * 1000 ≤ s.clock ∧
        (List.range 32).any (fun t => t != a && s.eligible t c) then s.modCore c fun x => { x with quantum := true }
    else s
  | none => s

/-! ### Switches -/

/-- A chain of an activity is suspended in Rink `r` (R277), and it is a FILTER's. -/
def State.liveChain (s : State) (a r : Nat) : Bool × Bool :=
  match s.activity a with
  | none => (false, false)
  | some x => match (x.pos r).run with
    | none => (false, false)
    | some u => (u.chains != [], u.chains != [] &&
        ((s.progCtx x.prog a (4 * r)).instr u.idx).is .filter)

/-- Live pages of an activity on a core (Table of R325): program-placed pages that a COPY wrote or that hold the loaded
image, staged tables, and a FILTER chain's input history. DEDUCED: the sequencer packs staged tables in whole pages, and
an input history takes one. -/
def State.livePages (s : State) (c : Nat) (act : Option Nat) (pages : List Nat) : Nat :=
  match act with
  | none => 0
  | some a =>
    let staged := match s.activity a with
      | none => 0
      | some x => match (x.pos (c / 4)).run with
        | none => 0
        | some u => ceilDiv (u.staged.foldl (fun n t => n + t.rescale.length + t.group.length + t.boxes.length) 0) 4096
    pages.length + staged + (if (s.liveChain a (c / 4)).2 then 1 else 0)

/-- The bytes that a save writes or a restore reads for an activity (R325, R327). -/
def State.liveBytes (s : State) (c : Nat) (act : Option Nat) (pages : List Nat) : Nat :=
  match act with
  | none => 0
  | some a => (if (s.liveChain a (c / 4)).1 then 98304 else 0) + 4096 * s.livePages c act pages + 4096

/-- T_switch in ns (R325), when nothing waits. -/
def State.switchTime (s : State) (c : Nat) (old new : Option Nat) (pOld pNew : List Nat) (clear : Bool) : Nat :=
  let f := s.freqNow (c / 4)
  let live := fun (a : Option Nat) => (a.map fun a => (s.liveChain a (c / 4)).1).getD false
  let acc := if live old || live new then 98304 else 0
  let b := acc + 4096 * max (s.livePages c old pOld) (s.livePages c new pNew) + 4096
  400 + (if f = 0 then 0 else ceilDiv (b * 1000) (256 * f)) + (if clear then 1800 else 0)

/-- Save-region traffic of a core's slot (R327): charged to the activity's tier passes; what a save leaves in the slot
is not for the tenant to read, so its bytes are free. -/
def State.saveTraffic (s : State) (c a n : Nat) (write : Bool) : State :=
  let t := actTenant a
  let lo := s.rd (O.SAVE_BASE t) + c * 2228224
  if n = 0 then s
  else
    let s := (List.range (ceilDiv n 256)).foldl (fun s i => s.traffic a (lo + 256 * i) 256 write) s
    if write then { s with tmem := s.tmem.filter fun p => decide (p.1 < tkey t lo ∨ tkey t (lo + n) ≤ p.1) }
    else s.charge a (4 + c / 4) n

/-- The core-local bytes below the sequencer's working state, by address. -/
def State.region (s : State) (c : Nat) : List Host.Cell :=
  (s.clm.filter fun p => decide (ckey c 0 ≤ p.1 ∧ p.1 < ckey c clmEnd)).map fun p => (p.1 - ckey c 0, p.2)

def State.setRegion (s : State) (c : Nat) (cells : List Host.Cell) : State :=
  let s := s.cclear c 0 clmEnd
  cells.foldl (fun s p => s.cput c p.1 [p.2]) s

/-- The core changes its tenant (R140, R192, W3 of Table 13.2): the leaving tenant's region is saved, and the incoming
one's is copied from the lowest core it holds, else restored; all the rest is cleared. -/
def State.changeTenant (s : State) (c t : Nat) : State :=
  let x := s.core c
  let saved := match x.holds with
    | some o => kvPut o (s.region c) x.saved
    | none => x.saved
  let (cells, pages) := match (s.tenantCores t).filter (· != c) with
    | d :: _ => (s.region d, (s.core d).pages)
    | [] =>
      let cs := (kvGet t saved).getD []
      (cs, sortDedup (cs.map fun p => p.1 / 4096))
  let s := s.setRegion c cells
  s.modCore c fun x => { x with holds := some t, image := [], pages, saved := kvDel t saved }

/-- SWITCH_COMPLETE (R325): the core, which holds no tile, takes up the activity decided for it. `switchNs` is T_switch
where the save or restore had to wait (R327). -/
def State.switchCore (s : State) (c switchNs : Nat) (waited : Bool) : State :=
  let x := s.core c
  match x.target with
  | none => s
  | some new =>
    if s.claimsOf c != [] then s
    else
      let held := ((s.clock - x.since) * s.freqNow (c / 4) / 1000 : Nat)
      let s := match x.act with
        | some a => if actLc a then s else s.addDeficit c (actTenant a) (-(held : Int))
        | none => s
      match new with
      | none => s.modCore c fun x => { x with act := none, target := none, quantum := false, since := s.clock }
      | some n =>
        let t := actTenant n
        let clear := x.holds != some t
        let pNew := if clear then sortDedup (((kvGet t x.saved).getD []).map fun p => p.1 / 4096) else x.pages
        let base := s.switchTime c x.act new x.pages pNew clear
        let ns := if waited then max base switchNs else base
        let s := match x.act with
          | some a => s.saveTraffic c a (s.liveBytes c (some a) x.pages) true
          | none => s
        let s := s.saveTraffic c n (s.liveBytes c new pNew) false
        let s := if clear then s.changeTenant c t else s
        let s := s.modCore c fun x => { x with act := some n, target := none, quantum := false, since := s.clock }
        let s := ((s.inc (O.CORE_SWITCHES c)).wr (O.SWITCH_LAST_NS c) (ns % 2 ^ 32)).inc (O.SWITCH_INS t)
        let s := if waited then s.inc (O.SWITCH_OVERRUNS c) else s
        s.charge n (c / 4) (ns * s.freqNow (c / 4) / 1000)

def execSwitchComplete (core : Fin 16) (switchNs : Nat) (waited : Bool) (s : State) : Res :=
  whenOk (s.coreOn core.val) s fun s => s.switchCore core.val switchNs waited

/-! ### The stream engine -/

/-- No instruction of the program writes the operand's range (R308). -/
def Ctx.prefetchable (x : Ctx) (idx l : Nat) : Bool :=
  let ms := (List.range x.prog.instrCount).map x.instr
  let m := nth (x.unitOf idx) l (x.instr idx)
  !ms.any fun w => w.outs.any fun o => decide (o < x.prog.descCount) &&
    (let (sp, a, n) := x.range w o; let (sq, b, k) := x.range m m.b; sp == sq && overlaps a n b k)

/-- Lines that an ERT takes in the window (R307). -/
def ertLines (escapes : Nat) : Nat := ceilDiv (64 + 8 * escapes) 256 + 64

/-- The next stream ERT of an activity in Rink `r` (R306, R308): the instruction, its share and plan, the layer and
number, and whether it lies past a pending PAUSE. -/
def State.nextStream (s : State) (a r : Nat) (x : Activity) (cx : Ctx) :
    Option (Nat × Plan × List Nat × Nat × Nat × Bool) :=
  let p := x.pos r
  let k := x.set.length
  let i := x.set.idxOf r
  let t := actTenant a
  let ways := s.rd (O.WINDOW_WAYS r t)
  let pause := fun (j : Nat) => (cx.instr j).is .checkpoint && (cx.instr j).p 0x1C 1 == 1
  (List.range (s.rd (O.STREAM_LOOKAHEAD t) + 1)).findSome? fun d =>
    let idx := p.pc + d
    let now := (p.run.map Running.idx) == some idx
    let spec := (List.range d).any fun e => pause (p.pc + e)
    if x.prog.instrCount ≤ idx ∨ (spec ∧ s.rd (O.SPECULATE t) = 0) ∨ (d = 0 ∧ !now) then none
    else match cx.planOf idx with
      | none => none
      | some pl =>
        let m := cx.instr idx
        if (m.opc.getD .barrier).control && !m.is .fuseBegin then none
        else
          let share := cx.share m pl m.split k i
          if cx.passThrough idx pl share ways then none
          else
            let order := (cx.streamOrder idx pl share).filter fun q => now || cx.prefetchable idx q.1
            let got := (kvGet idx p.fetched).getD 0
            (order[got]?).map fun q => (idx, pl, share, q.1, q.2, spec)

/-- STREAM_FETCH (R306-R309): the next stream ERT enters the window once it has room and its passes allow it; it is
charged, counted, and checked for its tag and header (R304). A speculative tile that fails is dropped and counted. -/
def State.streamFetch (s : State) (r a : Nat) : State :=
  match s.activity a with
  | none => s
  | some x =>
    let t := actTenant a
    let cx := s.progCtx x.prog a (s.viewCore a r)
    if x.failed.isSome ∨ !x.set.contains r then s
    else match s.nextStream a r x cx with
      | none => s
      | some (idx, pl, share, l, n, spec) =>
        let m := nth (cx.unitOf idx) l (cx.instr idx)
        let d := cx.desc m.b
        let nt := if m.convWeight then m.weightNt d else d.nt
        let esc := field (cx.env.ertHeader d nt n) 3 1
        let bytes := 16384 + 64 + 8 * esc
        let addr := d.base + n * 16384
        let tier := if addr < lodgeBase then 16 + s.channelOf t addr else 8
        let room := s.rd (O.WINDOW_WAYS r t) * 2048
        let used := (x.pos r).stream.foldl (fun k e => k + e.lines) 0
        if room < used + ertLines esc ∨ s.spent a (4 + r) ∨ s.spent a tier then s
        else
          let (s, gone) := s.reach a (s.behind t addr 16384) idx
          if gone then s else
          let s := (s.charge a (4 + r) bytes).traffic a addr bytes false
          let s := (s.inc (O.STREAM_TILES t)).addTo (O.STREAM_BYTES t) bytes
          let s := if spec then s.inc (O.SPEC_FETCHED t) else s
          let uses := (share.filter fun q => (cx.tileStream idx pl q).contains (l, n)).length
          let e : StreamErt := { idx, n := streamKey l n, uses, lines := ertLines esc, spec }
          let bump := fun (q : RinkPos) => { q with fetched := kvPut idx ((kvGet idx q.fetched).getD 0 + 1) q.fetched }
          match cx.env.ertCheck d true m.wino nt n with
          | none => s.modActivity a fun x => x.modPos r fun q => { bump q with stream := q.stream ++ [e] }
          | some b =>
            if spec then
              let s := match b with
                | .tag _ _ => (s.inc (O.TAG_FAULTS t)).inc O.TAG_FAULTS_ALL
                | _ => s
              (s.inc (O.SPEC_DROPPED t)).modActivity a fun x => x.modPos r fun q =>
                { bump q with specBad := (idx, streamKey l n) :: q.specBad }
            else s.reject a r b none idx

def execStreamFetch (rink : Fin 4) (tenant : Fin 32) (lc : Bool) (s : State) : Res :=
  whenOk (s.rinkOn rink.val && !s.claimsStopped) s fun s => s.streamFetch rink.val (actNo tenant.val lc)

/-- The engine-ready operand of the instruction in progress whose tile holds a device address: descriptor, role as
weight, number of tiles and tile. -/
def Ctx.ertAt (x : Ctx) (idx addr : Nat) : Option (Desc × Bool × Nat × Nat) :=
  (x.unitOf idx).findSome? fun m => m.inputs.findSome? fun i =>
    let d := x.desc i
    let nt := x.ntOf m i
    if d.ert && !d.clm && decide (d.base ≤ addr ∧ addr < d.base + nt * 16384) then
      some (d, decide (i = m.b) && (m.opc.getD .barrier).array, nt, (addr - d.base) / 16384)
    else none

/-- RINK_FILL_COMPLETE (R304, R305): a fill for an activity arrives, whole for an engine-ready tile, one line for linear
data; one from lost channels is abandoned (R311). It is charged and its link errors counted; a read that fails twice
counts as a failed tag, and the tile is checked before use. The SEQ of a line of linear data is open, so DETAIL1 is
free. -/
def State.fillComplete (s : State) (r a addr : Nat) (link : LinkRead) : State :=
  match s.activity a with
  | none => s
  | some x =>
    match (x.pos r).run with
    | none => s
    | some u =>
      let t := actTenant a
      let cx := s.progCtx x.prog a (s.viewCore a r)
      let ert := cx.ertAt u.idx addr
      let bytes := match ert with
        | some (d, _, nt, n) => 16384 + 64 + 8 * field (cx.env.ertHeader d nt n) 3 1
        | none => 256
      if !s.allocOk t addr 1 || (s.gone (s.behind t addr 1)).isSome then s
      else
        let s := (s.charge a (4 + r) bytes).traffic a addr bytes false
        let link := if addr < lodgeBase then link else .clean
        let s := match link with
          | .clean => s
          | .corrected => s.inc O.LINK_ECC_CORRECTED
          | .retried | .failed => s.inc O.LINK_ECC_RETRIED
        match link, ert with
        | .failed, some (d, _, nt, n) =>
          s.reject a r (.tag (cx.env.loc (d.base + n * 16384) / 256) (field (cx.env.ertHeader d nt n) 8 4)) none u.idx
        | .failed, none =>
          let (q, s) := s.freeVal 32
          s.reject a r (.tag (cx.env.loc addr / 256) q) none u.idx
        | _, some (d, w, nt, n) =>
          match cx.env.ertCheck d w false nt n with
          | some b => s.reject a r b none u.idx
          | none => s
        | _, none => s

def execRinkFillComplete (rink : Fin 4) (tenant : Fin 32) (lc : Bool) (address : Nat) (link : LinkRead)
    (s : State) : Res :=
  whenOk (s.rinkOn rink.val) s fun s => s.fillComplete rink.val (actNo tenant.val lc) address link

/-! ### Refresh -/

/-- The refresh code a temperature requires (Table 12.6). -/
def refreshNeed (c : Int) : Nat := if c < 45 then 0 else if c ≤ 85 then 1 else if c ≤ 105 then 2 else 3

/-- A channel is active (R313): owned, with its controller ready. -/
def State.channelActive (s : State) (c : Nat) : Bool :=
  s.ready (0x19 + c / 4) && (List.range 32).any fun t => (s.rd (O.CHANNEL_GRANT t)).testBit c

/-- REFRESH_TICK (R312): each active channel takes the code its die requires, raised to REFRESH_MIN; above REFRESH_MAX
it is the protective action THERMAL. -/
def State.refresh (s : State) (ts : List Int) : State :=
  let dies := (List.range 4).filter fun d => s.ready (0x19 + d)
  let s := dies.foldl (fun s d => s.wr (O.DRAM_TEMP_C d) (toU 16 (nth ts d 0))) s
  let act := (List.range 16).filter s.channelActive
  let s := act.foldl (fun s c =>
    s.wr (O.REFRESH_CODE c) (max (refreshNeed (nth ts (c / 4) 0)) (s.rd O.REFRESH_MIN))) s
  let hot := dies.filter fun d => (act.any fun c => c / 4 == d) && decide (s.rd O.REFRESH_MAX < refreshNeed (nth ts d 0))
  let s := { s with mismatch := setMem O.REFRESH_MIN false (setMem O.REFRESH_MAX false s.mismatch) }
  if hot = [] then s.setBreach O.REFRESH_BREACH 0 0x19
  else (s.addTo O.REFRESH_BREACHES hot.length).setBreach O.REFRESH_BREACH 1 (0x19 + hot.headD 0)

/-- Refresh is set where the DRAM controllers run (R313). -/
def execRefreshTick (temps : DramTemps) (s : State) : Res :=
  whenOk ((List.range 4).any fun n => s.ready (0x19 + n)) s fun s => s.refresh [temps.d0, temps.d1, temps.d2, temps.d3]

end Sys2Proof.Machine
end

