-- ==== Sys2Proof/Machine/Host.lean ====
section
/-!
DEFINITION. The host link (chapter 17): doorbells and ring heads, the jobs of Table 17.4 and their host transfers,
function-level resets, the link's states, and the IDE streams and device interfaces that go down with it (R457, R459).
-/

namespace Sys2Proof.Machine

/-! ### Jobs: the checks at their start (R418) -/

/-- A submission entry (Table 17.3). -/
def Job.ofEntry (e : List Byte) : Job :=
  { opcode := field e 0 1, cid := field e 2 2, sflags := field e 1 1, hostAddr := field e 8 8, devAddr := field e 0x10 8,
    length := field e 0x18 4, arg0 := field e 0x1C 4, arg1 := field e 0x20 4, waitsHost := false }

/-- A reserved field of a submission entry is not zero. -/
def entryReserved (e : List Byte) : Bool := field e 1 1 / 4 != 0 || field e 4 4 != 0 || field e 0x24 28 != 0

/-- The units that a range of the tenant's memory lies behind (R294, R474). -/
def State.rangeUnits (s : State) (t a n : Nat) : List Nat :=
  0x2D :: ((List.range 5).filter (s.behind t a n).testBit).map fun i => 0x18 + i

/-- The units that a job needs (R53). -/
def State.jobUnits (s : State) (f : Nat) (j : Job) : List Nat :=
  match j.opcode with
  | 1 | 2 | 3 => s.rangeUnits f j.devAddr j.length
  | 5 => [0x18, 0x2C, 0x2D]
  | 9 => [0x2A]
  | _ => []

/-- The class of a queue as an activity number (R315). -/
def State.queueAct (s : State) (f q : Nat) : Nat := actNo f (s.rd (O.Q_CLASS q f) == 1)

/-- The three images of Table 4.8 are installed. -/
def State.firmwareLoaded (s : State) : Bool := s.security.images.all Option.isSome

/-- The checks of Table 4.8, R132, R302, R418 and R446 at the start of a job. -/
def State.jobAborts (s : State) (f : Nat) (e : List Byte) : List Abort :=
  let j := Job.ofEntry e
  let unaligned := fun (xs : List Nat) => xs.any fun x => x % 64 != 0
  (if entryReserved e then [.badMessage] else []) ++
  (if (s.jobUnits f j).any fun u => s.held u || !s.ready u && !s.everReady.testBit u then [.notReady] else []) ++
  match j.opcode with
  | 1 =>
    (if unaligned [j.devAddr, j.length] || !s.allocOk f j.devAddr j.length then [.outOfRange] else []) ++
    (if s.firmwareLoaded then [] else [.notConfigured]) ++
    (if s.admitted f then [] else [.notReady])
  | 2 =>
    (if unaligned [j.hostAddr, j.devAddr, j.length] || !s.allocOk f j.devAddr j.length ||
        j.arg0 != 0 && (decide (j.length < j.arg0 * 16448) || j.arg1 % 256 != 0) then [.outOfRange] else []) ++
    (if s.admitted f then [] else [.notReady])
  | 3 =>
    (if unaligned [j.hostAddr, j.devAddr, j.length] || !s.allocOk f j.devAddr j.length then [.outOfRange] else []) ++
    (if s.admitted f then [] else [.notReady])
  | 5 =>
    (if unaligned [j.hostAddr, j.length] then [.outOfRange] else []) ++ (if f = 0 then [] else [.tenantDenied])
  | 9 =>
    (if unaligned [j.hostAddr, j.devAddr, j.length] || decide (0xEFFF8 < j.devAddr + j.length) then [.outOfRange] else []) ++
    (if s.rd O.BASE_TENANT = f then [] else [.notOwned]) ++
    (if s.rd (O.BASE_PROGRAM f) = 0xFFFFFFFF then [] else [.unitNotIdle])
  | _ => []

/-- A job that moves host data. -/
def Job.transfers (j : Job) : Bool := [2, 3, 5, 9].contains j.opcode

/-- A job at the head that must wait: a unit it needs was READY and comes back with the state it left (R429), or its
interface is in ERROR (R459). -/
def State.jobWaits (s : State) (f : Nat) (j : Job) : Bool :=
  ((s.jobUnits f j).any fun u => !s.ready u && !s.held u && s.everReady.testBit u) || j.transfers && s.rd (O.TDI_STATE f) == 3

/-- An entry ends with an abort code and no instruction index. -/
def State.endError (s : State) (f q cid : Nat) (a : Abort) : State :=
  (s.endEntry f q cid 1 0 0 a.code 0xFFFFFFFF).takeReserved f q 64

def State.endDone (s : State) (f q cid : Nat) : State := (s.endEntry f q cid 0 0 0 0 0).takeReserved f q 64

/-- A job refused for lost channels of DRAM leaves the record of R311. -/
def State.noteRefused (s : State) (f : Nat) (j : Job) (b : Abort) : State :=
  if b = .notReady ∧ (j.opcode = 1 ∨ j.opcode = 2 ∨ j.opcode = 3) then
    match s.gone (s.behind f j.devAddr j.length) with
    | some n => s.goneRecord f n
    | none => s
  else s

/-- The entry at the head of a queue starts if its opcode is `op` and the queue lets it: `go` is what it does once its
checks pass (R418, R420). -/
def State.startEntry (s : State) (f q op : Nat) (go : State → Job → State) : State :=
  let x := s.queue f q
  let j := Job.ofEntry x.head
  if !s.nextStarts f q || s.claimsStopped || j.opcode != op ||
      s.rd (O.Q_STATE q f) == 2 && op != 6 && op != 7 || s.jobWaits f j then s
  else
    let e := x.head
    let s := s.modQueue f q Queue.pop
    match firstAbort (s.jobAborts f e) with
    | some a => (s.noteRefused f j a).endError f q j.cid a
    | none => go s j

/-- The device is there for host commands: alive, with the PCIe unit ready. -/
def hostCmd (s : State) (g : State → State) : Res := whenOk (s.ready 0x20) s g

/-! ### Host transfers -/

/-- The tile pieces of a COPY_IN's data: payload, header and escape list of tile `n` (R302). -/
def copyTile (data : List Byte) (nt esc n : Nat) : List Byte × List Byte × List Byte :=
  let h := slice data (nt * 16384 + n * 64) 64
  (slice data (n * 16384) 16384, h, slice data (esc + 8 * field h 4 4) (8 * field h 3 1))

/-- The escape list of a tile lies beyond the data of its COPY_IN. -/
def copyBad (data : List Byte) (nt esc : Nat) : Bool :=
  (List.range nt).any fun n =>
    let h := slice data (nt * 16384 + n * 64) 64
    field h 3 1 != 0 && decide (data.length < esc + 8 * (field h 4 4 + field h 3 1))

/-- The data of a COPY_IN reach device memory, with the tags of its tiles (R303). -/
def State.copyIn (s : State) (f : Nat) (j : Job) (data : List Byte) : State :=
  (List.range j.arg0).foldl (fun s n =>
    let (p, h, e) := copyTile data j.arg0 j.arg1 n
    s.tput f (j.devAddr + j.arg0 * 16384 + n * 64 + 0x30) (s.tileTag f (j.devAddr + n * 16384) (p ++ h.take 0x30 ++ e)))
    (s.tput f j.devAddr data)

/-- The transfer of a COPY_IN, COPY_OUT or LOAD_BASE has ended well. -/
def State.finishTransfer (s : State) (f q : Nat) (j : Job) (data : List Byte) : State :=
  let a := s.queueAct f q
  let bs := slice data 0 j.length
  match j.opcode with
  | 2 =>
    let s := s.charge a 10 j.length
    if copyBad bs j.arg0 j.arg1 then s.failJob f q .outOfRange
    else ((s.trafficRange a j.devAddr j.length true).copyIn f j bs).finishJob f q 0 0 0 0 0
  | 3 =>
    let s := (s.charge a 11 j.length).trafficRange a j.devAddr j.length false
    if s.poisonDev f j.devAddr j.length then s.failJob f q .integrityFault
    else (s.hput f j.hostAddr (s.tbytes f j.devAddr j.length)).finishJob f q 0 0 0 0 0
  | 9 => ((s.charge a 10 j.length).bput j.devAddr bs).finishJob f q 0 0 0 0 0
  | _ => s

/-- DETAIL1 of HOST_DMA_FAULT. -/
def hostEndCause : HostEnd → Nat
  | .done => 0
  | .linkDown => 1
  | .unsupported => 2
  | .completerAbort => 3
  | .poisoned => 4
  | .timeout => 5

/-! ### Job starts -/

/-- RUN entries at the heads of the function's queues start in the order of their doorbells, ties to the lower queue
(R418). -/
def State.runTurn (s : State) (f q : Nat) : Bool :=
  let me := (s.queue f q).stamps.headD 0
  (s.activity (s.queueAct f q)).isNone && (List.range 8).all fun p =>
    let x := s.queue f p
    p == q || s.queueAct f p != s.queueAct f q || x.headOp != 1 || !s.nextStarts f p ||
      (let n := x.stamps.headD 0; decide (me < n) || decide (me = n ∧ q < p))

/-- A RUN starts (R190, R191, R153, R315): its header is checked and its image measured (R453). -/
def State.startRun (s : State) (f q : Nat) (j : Job) : State :=
  let a := s.queueAct f q
  match Prog.check .core j.devAddr j.length (fun i => s.tbyte f (j.devAddr + i)) (s.allocOk f) with
  | none => (s.err 0x0202 0 0xFF f (12 + 256 * 0xFFFFFF) 0xFFFFFFFF).endError f q j.cid .outOfRange
  | some g =>
    let s := s.modQueue f q fun x => { x with job := some j }
    let s := s.logProgram f (sha384 (s.tbytes f j.devAddr g.measured))
    let set := s.rinkList f
    let s := (s.applySet f set).setActivity a (some
      { prog := g, fn := f, q, set, rinks := List.replicate 4 RinkPos.reset, paused := false, fflags := 0, opstat := 0,
        perInstr := [], failed := none, completed := 0, reached := s.behind f j.devAddr j.length })
    (s.settleNext a (set.headD 0)).noteWaits

/-- RUN (R418). -/
def execRun (fn : Fin 32) (q : Fin 8) (s : State) : Res :=
  hostCmd s fun s => if s.runTurn fn q then s.startEntry fn q 1 fun s j => s.startRun fn q j else s

/-- COPY_IN, COPY_OUT, LOAD_BASE (R418, R132). -/
def execCopyIn (fn : Fin 32) (q : Fin 8) (s : State) : Res :=
  hostCmd s fun s => s.startEntry fn q 2 fun s j => s.beginTransfer fn q j
def execCopyOut (fn : Fin 32) (q : Fin 8) (s : State) : Res :=
  hostCmd s fun s => s.startEntry fn q 3 fun s j => s.beginTransfer fn q j
def execLoadBase (fn : Fin 32) (q : Fin 8) (s : State) : Res :=
  hostCmd s fun s => s.startEntry fn q 9 fun s j => s.beginTransfer fn q j

/-- STREAM_POST (R423, R424): a block posted with INVALID, or after an ERROR of its queue, loses its VALID flag. -/
def execStreamPost (fn : Fin 32) (q : Fin 8) (s : State) : Res :=
  hostCmd s fun s => s.startEntry fn q 4 fun s j =>
    match s.moveTail fn j.arg0 true (j.sflags.testBit 1 || (s.queue fn q).errorBefore) with
    | .ok s => s.endDone fn q j.cid
    | .error a => s.endError fn q j.cid a

/-- NOP (R418). -/
def execNop (fn : Fin 32) (q : Fin 8) (s : State) : Res :=
  hostCmd s fun s => s.startEntry fn q 8 fun s j => s.endDone fn q j.cid

/-- RESUME (R420). -/
def execResume (fn : Fin 32) (q : Fin 8) (s : State) : Res :=
  hostCmd s fun s => s.startEntry fn q 6 fun s j =>
    if s.rd (O.Q_STATE q fn) = 2 then
      let s := (s.endEntry fn q j.cid 0 0 0 0 0).wr (O.Q_STATE q fn) 1
      (s.proceed (s.queueAct fn q)).noteWaits
    else s.endError fn q j.cid .outOfRange

/-- ABANDON (R420): the program ends at its pause with ABANDONED. -/
def execAbandon (fn : Fin 32) (q : Fin 8) (s : State) : Res :=
  hostCmd s fun s => s.startEntry fn q 7 fun s j =>
    if s.rd (O.Q_STATE q fn) = 2 then
      let a := s.queueAct fn q
      let op := ((s.activity a).map Activity.opstat).getD 0
      (s.endEntry fn q j.cid 0 0 0 0 0).endRun a 0 4 0 (sat32 op)
    else s.endError fn q j.cid .outOfRange

/-! ### Firmware -/

/-- LOAD_FIRMWARE (R440): the job takes its place among Patrol's tasks. -/
def execLoadFirmware (fn : Fin 32) (q : Fin 8) (s : State) : Res :=
  hostCmd s fun s => s.startEntry fn q 5 fun s j =>
    (s.modQueue fn q fun x => { x with job := some j }).addTask (.firmware fn q)

/-! ### Doorbells -/

/-- The queue faults (R417, Table 19.11). -/
def State.queueFault (s : State) (f q cause : Nat) : State :=
  (((s.put (O.Q_FAULT_CAUSE q f) (.n cause)).wr (O.Q_STATE q f) 3).err 0x0401 0 0x20 f q cause)

/-- Doorbells of a function reach the device: the function exists, and its tenant is not being removed (R447). -/
def State.fnOpen (s : State) (f : Nat) : Bool :=
  (f == 0 || s.host.vfEnable) && s.rd (O.SLOT_STATE f) != 3

/-- The new entries of a tail write in ring memory, with the order of their doorbell. -/
def State.placeEntries (s : State) (f q new tail : Nat) (entries : List Byte) : State :=
  let n := s.host.stamp
  let s := { s with host := { s.host with stamp := n + 1 } }
  s.modQueue f q fun x =>
    { x with
      sq := (List.range new).foldl (fun (m : List (List Byte)) i =>
        if 64 * (i + 1) ≤ entries.length then m.set ((x.sqTail + i) % 64) (slice entries (64 * i) 64) else m) x.sq,
      sqTail := tail, stamps := x.stamps ++ List.replicate new n }

/-- SQ_TAIL (R417): entries are submitted as request source 12, or the queue faults. -/
def State.sqDoorbell (s : State) (f q : Nat) (entries : List Byte) (tail : Nat) : State :=
  let x := s.queue f q
  if !s.queueRuns f q then s
  else if 64 ≤ tail then s.queueFault f q 1
  else
    let used := (x.sqTail + 64 - x.sqHead) % 64
    let new := (tail + 64 - x.sqTail) % 64
    if 63 - used < new then s.queueFault f q 2
    else
      let s := s.placeEntries f q new tail entries
      let s := if (s.queue f q).sqHead = tail then s else s.raise 12 4 0
      s.takeReserved f q 64

def execSqTail (fn : Fin 32) (q : Fin 8) (entries : List Byte) (tail : Fin 4294967296) (s : State) : Res :=
  whenOk (s.ready 0x20 && s.fnOpen fn) s fun s => s.sqDoorbell fn q entries tail

/-- CQ_HEAD (R419): entries come free, and the vector may be signalled again. -/
def State.cqDoorbell (s : State) (f q head : Nat) : State :=
  let x := s.queue f q
  if 128 ≤ head ∨ x.cqCount < (head + 128 - x.cqHead) % 128 then s
  else ((s.modQueue f q fun x => { x with cqHead := head, armed := true }).cqDrain f q 128).takeReserved f q 64

def execCqHead (fn : Fin 32) (q : Fin 8) (head : Fin 4294967296) (s : State) : Res :=
  whenOk (s.ready 0x20 && s.fnOpen fn) s fun s => s.cqDoorbell fn q head

/-- STREAM_DOORBELL (R423); one that names no ring of the tenant is ignored. -/
def execStreamDoorbell (fn : Fin 32) (value : Fin 4294967296) (s : State) : Res :=
  whenOk (s.ready 0x20 && s.fnOpen fn) s fun s =>
    match s.moveTail fn value false false with
    | .ok s => s
    | .error _ => s

/-- MB_RESP_ACK (R415). -/
def execMbRespAck (fn : Fin 32) (s : State) : Res :=
  whenOk (s.ready 0x20 && (fn == 0 || s.host.vfEnable)) s fun s => s.modFunc fn fun f => { f with respReady := false }

/-- MB_EVENT_ACK (R415): the next queued event moves in. -/
def execMbEventAck (fn : Fin 32) (s : State) : Res :=
  whenOk (s.ready 0x20 && (fn == 0 || s.host.vfEnable)) s fun s =>
    (s.modFunc fn fun f => { f with eventReady := false }).fillMbEvent fn

/-- BAR_WRITE_IGNORED (R414): a write to a RO field or an unlisted offset, or one too narrow, changes nothing. -/
def execBarWriteIgnored (_fn : Fin 32) (_w : BarWrite) (s : State) : Res := .next s

/-! ### IDE streams and device interfaces -/

/-- IDE_LINK_STATE and IDE_SEL_STREAMS follow the streams (Table 18.14). -/
def State.showIde (s : State) : State :=
  let st := fun i => (nth s.security.ide i { state := 0, programmed := 0, active := 0, keys := [] }).state
  (s.wr O.IDE_LINK_STATE (st 0)).put O.IDE_SEL_STREAMS (.n (([1, 2, 3, 4].filter fun i => st i == 2).length))

/-- A locked interface goes to ERROR (R459). -/
def State.tdiError (s : State) (f : Nat) : State :=
  if s.rd (O.TDI_STATE f) = 1 ∨ s.rd (O.TDI_STATE f) = 2 then (s.wr (O.TDI_STATE f) 3).abandonJobs f else s

/-- An IDE stream goes to Insecure (R457): its keys are destroyed where `destroy` says so, and the interfaces it covers
go to ERROR if it was Secure. -/
def State.ideInsecure (s : State) (i : Nat) (destroy : Bool) : State :=
  let x := nth s.security.ide i { state := 0, programmed := 0, active := 0, keys := [] }
  let s := { s with security := { s.security with ide := modNth s.security.ide i fun x =>
    if destroy then { x with state := 3, keys := [], programmed := 0, active := 0 } else { x with state := 3 } } }
  let s := s.showIde
  if x.state = 2 then
    (List.range 32).foldl (fun s f => if nth s.security.tdiStream f 0 = i then s.tdiError f else s) s
  else s

/-- Link down or PERST_N (R457): every stream that has keys goes to Insecure and loses them. -/
def State.ideDown (s : State) : State :=
  (List.range 5).foldl (fun s i =>
    if (nth s.security.ide i { state := 0, programmed := 0, active := 0, keys := [] }).state = 0 then s
    else s.ideInsecure i true) s

/-! ### Resets and the link -/

/-- A function as after FLR (Table 17.9). -/
def State.flrFunction (s : State) (f : Nat) : State :=
  let s := s.abandonJobs f
  let s := (List.range 8).foldl (fun s q =>
    ((s.put (O.Q_ENABLE q f) (.n 0)).put (O.Q_FAULT_CAUSE q f) (.n 0)).wr (O.Q_STATE q f) 0) s
  let s := s.modFunc f fun x => { Func.reset with funcStatus := x.funcStatus }
  let s := { s with subs := s.subs.filter fun b => b.ep != f,
                    blocks := s.blocks.filter fun b => b.ep != f, snaps := s.snaps.filter fun b => b.ep != f }
  let s := s.modEp f fun x => { x with overflow := false, queue := [] }
  let s := (List.range 96).foldl (fun s k => if s.streamOwner k = f then s.disableStream k f else s) s
  s.wr (O.TDI_STATE f) 0

/-- Every function as after FLR, with VF Enable clear. -/
def State.flrAll (s : State) : State :=
  let s := (List.range 32).foldl State.flrFunction s
  ({ s with host := { s.host with vfEnable := false } }).endSpdm

/-- FLR (R430). -/
def execFlr (fn : Fin 32) (s : State) : Res :=
  whenOk (s.linkUp && (fn == 0 || s.host.vfEnable)) s fun s =>
    (if fn = 0 then s.flrAll else s.flrFunction fn).inc O.FLR_COUNT

/-- PCIE_CONFIG_REQUEST (R412): answered by a function that exists, with Retry Status before unit 0x20 is ready. A
write to the SR-IOV control of the PF carries VF Enable. -/
def execPcieConfigRequest (fn : Fin 32) (vfEnable : Option Bool) (s : State) : Res :=
  whenOk s.pins.perstN s fun s =>
    if !s.ready 0x20 then s.emitOut (.pcie 2 [])
    else if fn != 0 && !s.host.vfEnable then s.emitOut (.pcie 1 [])
    else
      let s := match vfEnable with
        | some v => if fn = 0 then { s with host := { s.host with vfEnable := v } } else s
        | none => s
      s.emitOut (.pcie 0 [])

/-- PERST_N_ASSERT (R67, Table 17.9): the PCIe unit is reset, and every other unit runs on. -/
def execPerstNAssert (s : State) : Res :=
  let s := { s with pins := { s.pins with perstN := false } }
  whenAlive s fun s =>
    let s := s.ideDown.flrAll
    let s := (s.setReady 0x20 false 0).unitDown 0x20
    (((s.wr O.LINK_STATE 0).put O.LINK_SPEED (.n 0)).put O.LINK_WIDTH (.n 0))

/-- PERST_N_RELEASE (R107): the unit enters Detect where its domain is powered, and brings itself up. -/
def execPerstNRelease (s : State) : Res :=
  let s := { s with pins := { s.pins with perstN := true } }
  whenOk (s.domOn 56) s fun s => if s.rd O.LINK_STATE = 0 then s.wr O.LINK_STATE 1 else s

/-- LINK_DOWN (R430): functions and rings are kept, host transfers fail, HOST_RING contexts fault. -/
def execLinkDown (s : State) : Res :=
  whenOk (s.rd O.LINK_STATE != 0) s fun s =>
    let s := if 2 ≤ s.rd O.LINK_STATE ∧ s.rd O.LINK_STATE ≤ 4 then s.inc O.LINK_DOWNS else s
    let s := ((s.wr O.LINK_STATE 0).put O.LINK_SPEED (.n 0)).put O.LINK_WIDTH (.n 0)
    let s := (List.range 32).foldl (fun s f => (List.range 8).foldl (fun s q =>
      if ((s.queue f q).job.map Job.waitsHost).getD false then s.failTransfer f q 1 else s) s) s
    let s := s.patrolRun
    let s := (List.range 96).foldl (fun s k =>
      let t := s.streamOwner k
      if t < 32 ∧ (epKind (s.rd (O.STR_SOURCE k t)) = 1 ∨ epKind (s.stream k).active.sink = 1) then s.streamFault k 2
      else s) s
    s.ideDown

/-- LINK_L0 (R428, R429): a link of a width and rate of Table 17.1. -/
def execLinkL0 (speed : Fin 6) (width : Fin 9) (s : State) : Res :=
  whenOk (s.domOn 56 && s.pins.perstN && speed != 0 && [1, 2, 4, 8].contains width.val) s fun s =>
    let s := ((s.wr O.LINK_STATE 2).put O.LINK_SPEED (.n speed)).put O.LINK_WIDTH (.n width)
    let s := { s with pins := { s.pins with wakeDriven := false } }
    ((s.wr O.QUIESCE_STATE 0).flushPba).pollStatus

/-- L1_1_ENTRY and L1_EXIT (R413). -/
def execL11Entry (s : State) : Res :=
  whenOk (s.rd O.LINK_STATE == 2 || s.rd O.LINK_STATE == 3) s fun s =>
    { s.wr O.LINK_STATE 4 with pins := { s.pins with clkreqAsserted := false } }
def execL1Exit (s : State) : Res :=
  whenOk (s.rd O.LINK_STATE == 3 || s.rd O.LINK_STATE == 4) s fun s =>
    { s.wr O.LINK_STATE 3 with pins := { s.pins with clkreqAsserted := true } }

/-- PME_TURN_OFF (R429): PME_TO_Ack, then L2/L3 Ready; the link carries no stream any more (R457). -/
def execPmeTurnOff (s : State) : Res :=
  whenOk (decide (2 ≤ s.rd O.LINK_STATE ∧ s.rd O.LINK_STATE ≤ 4)) s fun s =>
    (((s.wr O.LINK_STATE 5).wr O.QUIESCE_STATE 2).ideDown).pollStatus

/-- WAKE_HOLD_EXPIRY (R428). -/
def execWakeHoldExpiry (s : State) : Res :=
  whenAlive s fun s => { s with pins := { s.pins with wakeDriven := false } }

/-! ### Q_ENABLE (R416) -/

/-- The aborts of a write to Q_ENABLE. -/
def State.qEnableAborts (s : State) (f q v : Nat) : List Abort :=
  if v = 1 then (if s.rd (O.Q_CLASS q f) = 1 ∧ !s.on (O.LC_PERMITTED f) then [.tenantDenied] else [])
  else if s.rd (O.Q_STATE q f) = 3 then (if (s.queue f q).job.isSome then [.unitNotIdle] else [])
  else if s.queueBusy f q then [.unitNotIdle] else []

/-- An accepted write to Q_ENABLE: enabling starts both rings afresh. -/
def State.setQueue (s : State) (f q v : Nat) : State :=
  if s.rd (O.Q_ENABLE q f) = v then s
  else if v = 1 then
    let s := s.modQueue f q fun _ => Queue.reset
    ((s.put (O.Q_ENABLE q f) (.n 1)).put (O.Q_FAULT_CAUSE q f) (.n 0)).wr (O.Q_STATE q f) 1
  else (s.put (O.Q_ENABLE q f) (.n 0)).wr (O.Q_STATE q f) 0

end Sys2Proof.Machine
end

