-- ==== Sys2Proof/Machine/Isp.lean ====
section
/-!
DEFINITION. What the ISPs compute from a raw frame (R371, R372) and the statistics record (R377, Table 15.6).
-/

namespace Sys2Proof.Machine

/-! ### Data types and lines -/

/-- Bits of an image data type (Table 15.2); 0 for a code that is none. -/
def typeBits (c : Nat) : Nat :=
  match c with
  | 0x2A => 8
  | 0x2B => 10
  | 0x2C => 12
  | 0x2D => 14
  | 0x2E => 16
  | 0x1E => 16
  | 0x24 => 24
  | _ => 0

def isRaw (c : Nat) : Bool := decide (0x2A ≤ c ∧ c ≤ 0x2E)

/-- The padding code of R367. -/
def padCode (ty black : Nat) : Nat := if isRaw ty then black else if ty = 0x1E then 16 + 256 * 128 else 0

/-- An index mirrored at the edges of `0`..`n - 1`. -/
def mirror (n : Nat) (i : Int) : Nat :=
  let m := if i < 0 then -i else if (n : Int) ≤ i then 2 * ((n : Int) - 1) - i else i
  m.toNat

/-- A picture of numbers as rows. -/
def at2 (g : List (List Nat)) (w h : Nat) (x y : Int) : Nat := nth (nth g (mirror h y) []) (mirror w x) 0

/-- Rows of a function of the position. -/
def grid {α : Type} (w h : Nat) (f : Nat → Nat → α) : List (List α) :=
  (List.range h).map fun y => (List.range w).map fun x => f x y

/-! ### R371 -/

def n12 (raw d : Nat) : Nat := if d ≤ 12 then raw * 2 ^ (12 - d) else min (shrRhe raw (d - 12)).toNat 4095

/-- The colour at a position: 0 R, 1 Gr, 2 Gb, 3 B (Table 15.4). -/
def bayer (b x y : Nat) : Nat := (x + b % 2) % 2 + 2 * ((y + b / 2) % 2)

/-- The corrected linear values: black level, defect correction and white balance. -/
def linear (p : List Byte) (d w h black : Nat) (raw : List (List Nat)) : List (List Nat) :=
  let v := raw.map fun r => r.map fun c => n12 c d - n12 black d
  let th : Int := field p 2 2
  grid w h fun x y =>
    let c := at2 v w h x y
    let ns := [(-2, -2), (0, -2), (2, -2), (-2, 0), (2, 0), (-2, 2), (0, 2), (2, 2)].map fun (q : Int × Int) =>
      at2 v w h (x + q.1) (y + q.2)
    let mn := ns.foldl min (ns.headD 0)
    let mx := ns.foldl max 0
    let c := if (field p 1 1).testBit 0 then (max ((mn : Int) - th) (min ((mx : Int) + th) c)).toNat else c
    min (shrRhe (c * field p (4 + 2 * bayer (field p 0 1) x y) 2 : Nat) 12).toNat 4095

/-- The demosaiced values R, G, B. -/
def demosaic (b w h : Nat) (v : List (List Nat)) : List (List (List Nat)) :=
  grid w h fun x y =>
    let px := fun (dx dy : Int) => at2 v w h (x + dx) (y + dy)
    let own := px 0 0
    let mean := fun (xs : List Nat) => (divRhe (xs.foldl (· + ·) 0 : Nat) xs.length).toNat
    let rows := mean [px (-1) 0, px 1 0]
    let cols := mean [px 0 (-1), px 0 1]
    let cross := mean [px (-1) 0, px 1 0, px 0 (-1), px 0 1]
    let diag := mean [px (-1) (-1), px 1 (-1), px (-1) 1, px 1 1]
    match bayer b x y with
    | 0 => [own, cross, diag]
    | 1 => [rows, own, cols]
    | 2 => [cols, own, rows]
    | _ => [diag, cross, own]

/-- The colour matrix and the tone curve. -/
def tone (p : List Byte) (rgb : List Nat) : List Nat :=
  (List.range 3).map fun k =>
    let sum := (List.range 3).foldl (fun (n : Int) m => n + sx 16 (field p (0x0C + 2 * (3 * k + m)) 2) * (nth rgb m 0 : Nat)) 0
    let c := (max 0 (min 4095 (shrRhe sum 12))).toNat
    let t := fun i => (field p (0x20 + 2 * i) 2 : Int)
    (t (c / 16) + shrRhe ((t (c / 16 + 1) - t (c / 16)) * (c % 16 : Nat)) 4).toNat

/-! ### R372 -/

/-- Bytes of a pixel in an output format (Table 15.5). -/
def pitch (fmt : Nat) : Nat :=
  match fmt with
  | 0 => 4
  | 1 => 8
  | 2 => 1
  | _ => 2

def rgb8 (t : List Nat) : List Nat := t.map fun (v : Nat) => min (shrRhe v 8).toNat 255
def luma (r g b : Nat) : Nat := (77 * r + 150 * g + 29 * b + 128) / 256

/-- A pixel of an ISP output. -/
def ispPixel (fmt : Nat) (t : List Nat) : List Byte :=
  match fmt with
  | 0 => (rgb8 t).flatMap (leBytes 1) ++ [0]
  | 1 => t.flatMap (leBytes 2) ++ [0, 0]
  | _ =>
    let q := rgb8 t
    leBytes 1 (luma (nth q 0 0) (nth q 1 0) (nth q 2 0))

/-- A pixel delivered unprocessed. -/
def rawPixel (fmt c : Nat) : List Byte := if fmt = 0 then leBytes 3 c ++ [0] else leBytes 2 c

/-- The box means of the tone-mapped picture. -/
def boxes (s w h : Nat) (g : List (List (List Nat))) : List (List (List Nat)) :=
  grid (w / s) (h / s) fun x y => (List.range 3).map fun k =>
    let sum := (List.range s).foldl (fun n j => (List.range s).foldl (fun n i =>
      n + nth (nth (nth g (y * s + j) []) (x * s + i) []) k 0) n) 0
    (divRhe (sum : Nat) (s * s)).toNat

/-- A frame's raw lines turned into output lines, and its demosaiced picture where an ISP processed it. -/
def ispOutput (f : Frame) (raw : List (List Nat)) : List (List Byte) × Option (List (List (List Nat))) :=
  if f.isp = 0 then (raw.map fun r => r.flatMap (rawPixel f.out.format), none)
  else
    let v := linear f.params (typeBits f.dataType) f.width f.height f.black raw
    let rgb := demosaic (field f.params 0 1) f.width f.height v
    let out := boxes f.out.scale f.width f.height (rgb.map fun r => r.map (tone f.params))
    (out.map fun r => r.flatMap (ispPixel f.out.format), some rgb)

/-! ### Statistics -/

/-- Counts of the values below `n` in a list. -/
def histogram (n : Nat) (xs : List Nat) : List Nat := xs.foldl (fun h x => h.modify x (· + 1)) (List.replicate n 0)

/-- The positions of zone `(zx, zy)`. -/
def zonePixels (w h zx zy : Nat) : List (Nat × Nat) :=
  ((List.range h).filter fun y => 24 * y / h == zy).flatMap fun y =>
    ((List.range w).filter fun x => 32 * x / w == zx).map fun x => (x, y)

/-- One zone (Table 15.6): averages and SAT. An average over no pixel, and a count beyond 16 bits, are open: free values
from draw `fz` on. -/
def zone (f : Frame) (raw : List (List Nat)) (rgb : List (List (List Nat))) (fz z : Nat) : List Byte :=
  let ps := zonePixels f.width f.height (z % 32) (z / 32)
  let avg := (List.range 3).flatMap fun k =>
    let sum := ps.foldl (fun n p => n + nth (nth (nth rgb p.2 []) p.1 []) k 0) 0
    leBytes 2 (if ps.length = 0 then Config.free (fz + 4 * z + k) else (divRhe (sum : Nat) ps.length).toNat)
  let sat := (ps.filter fun p => decide (f.sat ≤ n12 (nth (nth raw p.2 []) p.1 0) (typeBits f.dataType))).length
  avg ++ leBytes 2 (if sat < 65536 then sat else Config.free (fz + 4 * z + 3))

/-- The luma histogram. -/
def lumaHist (rgb : List (List (List Nat))) : List Nat :=
  histogram 256 (rgb.flatMap fun r => r.map fun p => luma (nth p 0 0) (nth p 1 0) (nth p 2 0) / 16)

def colourHist (rgb : List (List (List Nat))) (k : Nat) : List Nat :=
  histogram 64 (rgb.flatMap fun r => r.map fun p => nth p k 0 / 64)

/-- The statistics record (Table 15.6). -/
def statsRecord (f : Frame) (input buf : Nat) (raw : List (List Nat)) (rgb : Option (List (List (List Nat)))) (fz : Nat) :
    List Byte :=
  let head := leBytes 4 f.n ++ leBytes 2 f.sensorFrame ++ leBytes 1 input ++ leBytes 1 buf ++ time96Bytes f.time ++
    leBytes 4 f.generation ++ leBytes 4 f.appliedFrame ++ leBytes 4 f.flags ++ leBytes 2 f.exposure ++ leBytes 2 f.gain ++
    leBytes 2 f.linesPadded ++ leBytes 2 f.linesDropped ++ leBytes 2 f.shortLines ++ leBytes 2 f.longLines ++
    leBytes 2 f.crcLines
  let body := match rgb with
    | none => []
    | some g => (lumaHist g).flatMap (leBytes 4) ++ ((List.range 3).flatMap (colourHist g)).flatMap (leBytes 4) ++
        (List.range 768).flatMap (zone f raw g fz)
  slice (slice head 0 0x40 ++ body) 0 8192

end Sys2Proof.Machine
end

