-- ==== Sys2Proof/Machine/Lift.lean ====
section
/-!
DEFINITION. The Base lift and the Mid lift (R125-R134): their programs' views of memory, arming checks, one whole run,
and what its decision word does.
-/

namespace Sys2Proof.Machine

/-! ### Views -/

/-- A byte of the Base engine's input buffer (R339, R342): 4,096 frames of four int32 samples, the oldest first, each
with its 24-bit sample in bits 31:8. -/
def State.inputByte (s : State) (o : Nat) : Byte :=
  let frame := nth s.audio.input (4095 - o / 16) []
  (leBytes 4 (toU 32 (nth frame (o / 4 % 4) 0 * 256))).getD (o % 4) 0

/-- A byte of Base engine memory as a program reads it (Table 5.12). -/
def State.baseByte (s : State) (a : Nat) : Byte :=
  if a < 0xF0000 then s.bbyte a else if a < 0x100000 then s.inputByte (a - 0xF0000) else 0

/-- The Base engine's view for the program of header address `image` (R131): no tags, no core-local memory. -/
def State.baseCtx (s : State) (g : Prog) : Ctx :=
  let t := s.rd O.BASE_TENANT
  { prog := g, env := { tenant := t, mem := s.baseByte, clm := fun _ => 0, tagOf := fun _ _ => [], loc := id },
    read := fun i => s.baseByte (g.image + i), alloc := fun a n => decide (a + n ≤ 0xF0000), dramOk := fun _ _ => false,
    table := s.baseByte, tableOk := fun o n => decide (o + n ≤ 0xEFFF8), tableNone := false, tagged := false }

/-- A range of the Lodge window lies in segments of bank group 0 (R134, R296). -/
def State.inGroup0 (s : State) (t a n : Nat) : Bool :=
  s.inLodge t a n && (List.range (ceilDiv ((a - lodgeBase) % 2 ^ 20 + n) (2 ^ 20))).all fun i =>
    decide (nth (s.segments t) ((a - lodgeBase) / 2 ^ 20 + i) 31 < 4)

/-- The Mid core's view (R134): tables at core-local addresses of the program-placed region. -/
def State.midCtx (s : State) (g : Prog) : Ctx :=
  let t := s.rd O.MID_TENANT
  let c := s.midCoreNo
  { prog := g, env := s.envOf c t, read := fun i => s.cbyte c (g.image + i), alloc := s.inGroup0 t,
    dramOk := fun _ _ => false, table := s.cbyte c,
    tableOk := fun o n => decide (g.budget ≤ o ∧ o + n ≤ 0x1FEFF8), tableNone := false, tagged := true }

/-! ### Checks -/

/-- The indices at which instructions and groups start. -/
def Ctx.starts (x : Ctx) : Nat → Nat → List Nat
  | 0, _ => []
  | fuel + 1, i =>
    if x.prog.instrCount ≤ i then []
    else i :: x.starts fuel (if (x.instr i).is .fuseBegin then i + (x.layers i).length + 2 else i + 1)

/-- The program at `addr` of the Base engine or the Mid core, if its header passes (R133, R134, R191). -/
def State.liftProg (s : State) (mid : Bool) (addr : Nat) : Option Prog :=
  let last := if mid then 0x1FEFF8 else 0xEFFF8
  let rd := fun i => if mid then s.cbyte s.midCoreNo (addr + i) else s.bbyte (addr + i)
  if addr % 64 ≠ 0 ∨ last < addr + 64 then none
  else match Prog.check (if mid then .mid else .base) addr (last - addr) rd
      (if mid then s.inGroup0 (s.rd O.MID_TENANT) else fun _ _ => false) with
    | some g => if addr < g.budget then none else some g
    | none => none

def State.liftCtx (s : State) (mid : Bool) (g : Prog) : Ctx := if mid then s.midCtx g else s.baseCtx g

/-- The first check that a lift program fails at arming: the failure and its instruction. -/
def Ctx.liftBad (x : Ctx) : Option (Bad × Nat) :=
  (x.starts x.prog.instrCount 0).findSome? x.check

/-- The unit that a lift's records name, and its tenant. -/
def State.liftUnit (s : State) (mid : Bool) : Nat := if mid then 0x10 + s.rd O.MID_RINK else 0x2A
def State.liftTenant (s : State) (mid : Bool) : Nat := s.rd (if mid then O.MID_TENANT else O.BASE_TENANT)

/-- The record of a rejection in a lift program (R198, R188, R304); no job ends. -/
def State.liftReject (s : State) (mid : Bool) (b : Bad) (tile : Option Nat) (idx : Nat) : State :=
  let t := s.liftTenant mid
  let u := s.liftUnit mid
  match b with
  | .instr c =>
    let tl := match tile with
      | some n => if 0xFFFFFE < n then 0xFFFFFF else n
      | none => 0xFFFFFF
    s.err 0x0202 0 u t (c + 256 * tl) idx
  | .format c =>
    ((s.err 0x0201 0 u t c (tile.getD 0xFFFFFFFF)).inc (O.FORMAT_REJECTS t)).wr (O.LAST_REJECT_CAUSE t) c
  | .tag l q => ((s.err 0x0303 2 u t (l % 2 ^ 32) q).inc (O.TAG_FAULTS t)).inc O.TAG_FAULTS_ALL
  | .swap i k => s.err 0x0304 2 0x20 t i k
  | .notConfigured => s

/-! ### A run -/

/-- A run in progress: the state, and whether it has stopped. -/
structure LiftRun where
  s : State
  stopped : Bool

/-- A tile's writes by the Base engine or the Mid core. -/
def State.liftApply (s : State) (mid : Bool) (o : TileOut) : State :=
  if mid then
    let t := s.rd O.MID_TENANT
    let r := s.rd O.MID_RINK
    let s := (o.lines ++ o.erts).foldl (fun s w => s.rput r (t + 32) w) s
    o.clm.foldl (fun (s : State) (w : Wr) => s.cput s.midCoreNo w.addr [BitVec.ofNat 8 w.val]) s
  else (o.lines ++ o.erts).foldl (fun (s : State) (w : Wr) =>
    let old := (s.bbyte w.addr).toNat
    s.bput w.addr [BitVec.ofNat 8 (Nat.lor (Nat.land w.val w.mask) (Nat.land old (255 - w.mask)))]) s

/-- The statistics of a lift's tile, counted for its tenant (6101, 7020.07). -/
def State.liftStats (s : State) (mid : Bool) (o : TileOut) : State :=
  s.countStats (s.liftTenant mid) o.stats.withFlags

/-- One tile of a lift's instruction; chains run their chunks in order, and the last partial of a block reduces it. -/
def LiftRun.tile (r : LiftRun) (mid : Bool) (g : Prog) (u : Running) (imgs : List FabImage) (p : Plan) (t : Nat) :
    LiftRun × Running :=
  if r.stopped then (r, u)
  else
    let x := r.s.liftCtx mid g
    match x.evalTile u imgs p t with
    | .error b => ({ s := r.s.liftReject mid b (some t) u.idx, stopped := true }, u)
    | .ok (o, chain) =>
      let s := (r.s.liftApply mid o).liftStats mid o
      let u := if p.cls = .chunk then { u with chains := kvPut (p.chainKey t) chain u.chains } else u
      if p.cls = .matrix ∧ 1 < p.p0 ∧ t % p.p0 + 1 = p.p0 then
        let x := s.liftCtx mid g
        let o := x.evalReduce (x.instr u.idx) (u.staged.headD { rescale := [], group := [], boxes := [] })
          (imgs.headD FabImage.absent) p u.pos t
        ({ s := (s.liftApply mid o).liftStats mid o, stopped := false }, u)
      else ({ s, stopped := false }, u)

/-- One instruction or group of a lift: its checks, its images and its tiles; a control instruction passes. -/
def LiftRun.instr (r : LiftRun) (mid : Bool) (g : Prog) (idx : Nat) : LiftRun :=
  if r.stopped then r
  else
    let x := r.s.liftCtx mid g
    match x.check idx with
    | some (b, i) => { s := r.s.liftReject mid b none i, stopped := true }
    | none =>
      let m := x.instr idx
      if (m.opc.getD .barrier).control && !m.is .fuseBegin then r
      else match x.planOf idx with
        | none => r
        | some p =>
          let raws := x.rawImages idx
          match raws.findSome? fun raw => match fabCheck raw with
              | .error k => some k
              | .ok _ => none with
          | some k => { s := r.s.err 0x0203 0 (if mid then r.s.midCoreNo else 0x2A) (r.s.liftTenant mid) k idx, stopped := true }
          | none =>
            let u := x.begin idx p (List.range p.total) 0 1 0
            ((List.range p.total).foldl (fun (a : LiftRun × Running) t => a.1.tile mid g a.2 (raws.map imageOf) p t)
              (r, u)).1

/-- A whole run, from the first instruction to the last, or to the one that is rejected. -/
def State.liftRun (s : State) (mid : Bool) (g : Prog) : State :=
  let x := s.liftCtx mid g
  ((x.starts g.instrCount 0).foldl (fun r i => r.instr mid g i) { s, stopped := false : LiftRun }).s

/-! ### Decisions -/

/-- The decision word of a run, which is then set to 0 (R133, R134). -/
def State.takeDecision (s : State) (mid : Bool) : Int × State :=
  if mid then
    let c := s.midCoreNo
    (sx 64 (leNat ((List.range 8).map fun i => s.cbyte c (0x1FEFF8 + i))), s.cput c 0x1FEFF8 (List.replicate 8 0))
  else (sx 64 (leNat (s.bbytes 0xEFFF8 8)), s.bput 0xEFFF8 (List.replicate 8 0))

/-- A Base lift decision (R125, R126). A decision before the estimators settle carries EARLY (R343). -/
def State.baseDecision (s : State) (v : Int) : State :=
  let early := s.rd O.ESTIMATOR_STATE == 0
  let fl := if early then 4 else 0
  let s := if early then s.inc O.EARLY_DECISIONS else s
  if v = -1 then s.retract fl
  else
    let bad := decide (v < 0 ∨ 65535 < v)
    let s := if bad then s.inc O.BASE_DECISION_FAULTS else s
    let conf := if bad then 0 else v.toNat
    let s := s.wr O.BASE_CONFIDENCE conf
    if s.rd O.WAKE_THRESHOLD ≤ conf then
      let s := ((s.latchWake 9 early).raise 9 3 fl).makeFirm 0x2A fl
      let s := if s.rd O.POWER_STATE < 4 then s.modPower fun p => { p with midFirm := true } else s
      s.tryMid
    else if s.rd O.PREWAKE_THRESHOLD ≤ conf ∧ s.rd O.PREWAKE_THRESHOLD < s.rd O.WAKE_THRESHOLD ∧ !s.power.prewake then
      (s.modPower fun p => { p with prewake := true, stateTentative := false, targetTentative := false }).raise 8 3 (1 + fl)
    else s

/-- A Mid lift decision (R129, R134): CONFIRM is source 10, REJECT source 11, 0 none. -/
def State.midDecision (s : State) (v : Int) : State :=
  if v = 0 then s
  else
    let s := s.modPower fun p => { p with midRun := false }
    if v = 1 then s.raise 10 4 0
    else
      let s := if v = 2 then s else s.inc O.MID_DECISION_FAULTS
      (s.inc O.MID_REJECTS).source11

/-! ### Commands -/

/-- BASE_LIFT_RUN (R133): the engine runs, the lift is armed, and a 4 ms boundary has come. -/
def execBaseLiftRun (s : State) : Res :=
  whenOk (s.base.started && s.domOn 77 && s.ready 0x2A) s fun s =>
    let t := s.rd O.BASE_TENANT
    match s.liftProg false (s.rd (O.BASE_PROGRAM t)) with
    | none => s
    | some g =>
      let (v, s) := (s.liftRun false g).takeDecision false
      s.baseDecision v

/-- MID_LIFT_RUN (R134): one run of the Mid lift program on the Mid core, which holds MID_TENANT's data (R140). -/
def execMidLiftRun (s : State) : Res :=
  whenOk (s.power.midRun && s.rd O.POWER_STATE == 3 && s.ready s.midCoreNo) s fun s =>
    let t := s.rd O.MID_TENANT
    match s.liftProg true (s.rd (O.MID_PROGRAM t)) with
    | none => s
    | some g =>
      let (v, s) := (s.liftRun true g).takeDecision true
      s.midDecision v

end Sys2Proof.Machine
end

