-- ==== Sys2Proof/Machine/Camera.lean ====
section
/-!
DEFINITION. Camera inputs (chapter 15): frames and lines (R366, R367), the privacy gate (R368), outputs and commits
(R373-R376), sensor settings (R379-R383) and the exposure loop (R384, R385).
-/

namespace Sys2Proof.Machine

def State.modCam (s : State) (i : Nat) (g : CamIn → CamIn) : State :=
  { s with camera := { s.camera with ins := modNth s.camera.ins i g } }
def State.cam (s : State) (i : Nat) : CamIn := nth s.camera.ins i CamIn.reset
def State.modFrame (s : State) (i : Nat) (g : Frame → Frame) : State :=
  s.modCam i fun x => { x with frame := x.frame.map g }

/-- The receiver of a port. -/
def csiUnit (port : Nat) : Nat := 0x23 + port

/-- Privacy is on (R71, R368): by the filtered state, or the raw level at once. -/
def State.privacyOn (s : State) : Bool := s.rd O.PRIVACY == 1 || s.pins.privRaw

/-- A µs in units of 2^-16 ns. -/
def unitsPerUs : Nat := 65536000

/-! ### Outputs -/

/-- The shadow set of an instance (R373). -/
def State.shadowSet (s : State) (i t : Nat) : OutSet :=
  { frameBase := s.rd (O.FRAME_BASE i t), buffers := s.rd (O.BUFFERS i t), bufStride := s.rd (O.BUF_STRIDE i t),
    lineStride := s.rd (O.LINE_STRIDE i t), format := s.rd (O.OUT_FORMAT i t), scale := s.rd (O.SCALE i t),
    statsBase := s.rd (O.STATS_BASE i t), rawBase := s.rd (O.RAW_BASE i t), rawBuffers := s.rd (O.RAW_BUFFERS i t) }

/-- The format is permitted (Tables 15.2 and 15.5). -/
def formatOk (isp ty : Nat) (o : OutSet) : Bool :=
  if isp = 0 then
    (o.format == 0 && ty == 0x24) || (o.format == 3 && isRaw ty && o.scale == 1) || (o.format == 4 && ty == 0x1E && o.scale == 1)
  else isRaw ty && decide (o.format ≤ 2)

/-- The scale that an output has; none where no ISP works. -/
def outScale (isp : Nat) (o : OutSet) : Nat := if isp = 0 then 1 else o.scale

/-- The ranges of a set lie in the owner's allocation (R373, R375). -/
def State.setInAlloc (s : State) (i t : Nat) (o : OutSet) : Bool :=
  s.allocOk t o.frameBase (o.buffers * o.bufStride) &&
  (o.statsBase == 0 || s.allocOk t o.statsBase 65536) &&
  (s.rd (O.ISP i) != 2 || s.allocOk t o.rawBase (o.rawBuffers * (s.rd (O.WIDTH i) * s.rd (O.HEIGHT i) * 2)))

/-- The checks of a COMMIT on a set (R373). -/
def State.setOk (s : State) (i t : Nat) (o : OutSet) : Bool :=
  formatOk (s.rd (O.ISP i)) (s.rd (O.DATA_TYPE i)) o &&
  decide (o.lineStride * (s.rd (O.HEIGHT i) / outScale (s.rd (O.ISP i)) o) ≤ o.bufStride) && s.setInAlloc i t o

/-- The activity that camera transfers are charged to (R376). -/
def State.camAct (s : State) (t : Nat) : Nat := actNo t (s.on (O.LC_PERMITTED t))

/-- The pass of a tier is spent for the owner (R332, R376). -/
def State.camSpent (s : State) (t a : Nat) : Bool :=
  s.spent (s.camAct t) (if a < lodgeBase then 16 + s.channelOf t a else 8)

/-! ### The exposure loop's objects -/

/-- The bounds that exclude the loop's state carry MISMATCH until its next step (R136). -/
def State.aeMismatch (s : State) (i : Nat) : State :=
  let run := s.camOn i && s.on (O.AE_ENABLE i)
  let e := s.rd (O.AE_EXPOSURE i)
  let g := s.rd (O.AE_GAIN i)
  let s := s.setMismatch (O.EXP_MIN i) (run && decide (e < s.rd (O.EXP_MIN i)))
  let s := s.setMismatch (O.EXP_MAX i) (run && decide (s.rd (O.EXP_MAX i) < e))
  let s := s.setMismatch (O.GAIN_MIN i) (run && decide (g < s.rd (O.GAIN_MIN i)))
  s.setMismatch (O.GAIN_MAX i) (run && decide (s.rd (O.GAIN_MAX i) < g))

def State.setAe (s : State) (i : Nat) (v : Nat × Nat) : State :=
  (((s.modCam i fun x => { x with aeNext := some v }).wr (O.AE_EXPOSURE i) v.1).wr (O.AE_GAIN i) v.2).aeMismatch i

/-- The loop starts at the largest exposure and the least gain (R384). -/
def State.startAe (s : State) (i : Nat) : State :=
  let s := s.modCam i fun x => { x with aeIssued := none, aeForce := (0, 0), aeFirst := true }
  s.setAe i (s.rd (O.EXP_MAX i), s.rd (O.GAIN_MIN i))

/-! ### Sensor settings -/

/-- Bit time on a port's bus in ns (R379). -/
def State.bitNs (s : State) (port : Nat) : Nat :=
  match s.rd (O.BUS_MODE port) with
  | 0 => 2500
  | 1 => 1000
  | _ => 80

/-- Bytes of a command on the bus: address, register, data. -/
def BusCmd.bytes (c : BusCmd) : Nat := 1 + (if c.wide then 2 else 1) + c.data.length

/-- The estimate of R381 in ns. -/
def State.busNs (s : State) (port : Nat) (cmds : List BusCmd) : Nat :=
  s.bitNs port * cmds.foldl (fun n c => n + 9 * c.bytes + 4) 0

/-- A command as it goes out: the register and the data, big-endian. -/
def BusCmd.payload (c : BusCmd) : List Byte := (leBytes (if c.wide then 2 else 1) c.reg).reverse ++ c.data

def State.sendCmds (s : State) (port : Nat) (cmds : List BusCmd) : State :=
  cmds.foldl (fun s c => s.emitOut (.i3c port c.addr c.payload)) s

/-- The loop's writes to the registers of AE_REGS (R385). -/
def State.aeCmds (s : State) (i : Nat) (v : Nat × Nat) : List BusCmd :=
  let r := s.rdB (O.AE_REGS i)
  let c := fun (reg n x : Nat) => ({ addr := s.rd (O.SENSOR_ADDR i), wide := (field r 6 1).testBit 0, reg,
                                     data := (leBytes n x).reverse } : BusCmd)
  [c (field r 0 2) (field r 4 1) v.1, c (field r 2 2) (field r 5 1) v.2]

/-- QUEUE_STATE with its error bit as given. -/
def State.showQueue (s : State) (i : Nat) (err : Bool) : State :=
  s.wr (O.QUEUE_STATE i (s.rd (O.CAM_OWNER i))) ((if err then 1 else 0) + 2 * (s.cam i).queue.length)

def State.queueErr (s : State) (i : Nat) : Bool := (s.rd (O.QUEUE_STATE i (s.rd (O.CAM_OWNER i)))).testBit 0

/-- Settings take force from frame `n` (R381): the generation and the exposure values. -/
def State.applyIssue (s : State) (i : Nat) (x : Issue) : State :=
  let s := match x.generation with
    | some g => s.put (O.GEN_IN_FORCE i) (.n g)
    | none => s
  match x.ae with
  | some v => s.modCam i fun c => { c with aeForce := v }
  | none => s

/-- The frame in progress reports the settings in force, where they changed in its own window (a LATENCY of 0). -/
def State.relatch (s : State) (i n : Nat) : State :=
  s.modFrame i fun f => if f.n = n then
    { f with generation := s.rd (O.GEN_IN_FORCE i),
             exposure := if s.on (O.AE_ENABLE i) then (s.cam i).aeForce.1 else 0,
             gain := if s.on (O.AE_ENABLE i) then (s.cam i).aeForce.2 else 0 } else f

/-- Commands go out in the window that is open, if they fit (R381): the issue is noted, and applies from the frame
LATENCY later. -/
def State.issue (s : State) (i : Nat) (cmds : List BusCmd) (gen : Option Nat) (ae : Option (Nat × Nat)) : Option State :=
  match (s.cam i).window with
  | none => none
  | some w =>
    let start := max s.timeNow w.free
    let stop := start + s.busNs (i / 8) cmds * 65536
    if w.start + s.rd (O.WINDOW_US i) * unitsPerUs < stop then none
    else
      let n := w.frame + s.rd (O.LATENCY i)
      let x : Issue := { generation := gen, ae, frame := n, prevGen := s.rd (O.GEN_IN_FORCE i),
                         prevAe := (s.cam i).aeForce, sentAt := stop }
      let s := s.sendCmds (i / 8) cmds
      let s := s.modCam i fun c => { c with issued := c.issued ++ [x], window := some { w with free := stop } }
      some (if n = w.frame then (s.applyIssue i x).relatch i n else s)

/-- Entries are issued in queue order (R381, R382), at most `k` of them. -/
def State.issueQueue (s : State) (i : Nat) : Nat → State
  | 0 => s
  | k + 1 =>
    match (s.cam i).queue, (s.cam i).window with
    | e :: rest, some w =>
      let n := w.frame + s.rd (O.LATENCY i)
      if !e.asap && decide (n < e.target) then s
      else
        match s.issue i e.cmds (some e.generation) none with
        | none => s
        | some s =>
          let s := s.modCam i fun c => { c with queue := rest }
          let s := s.showQueue i (s.queueErr i)
          let s := if !e.asap && decide (e.target < n) then
              (s.modCam i fun c => { c with late := c.late ++ [(e.target, n - 1, n)] }).inc (O.APPLIED_LATE i)
            else s
          s.issueQueue i k
    | _, _ => s

/-- The exposure loop's values follow the host's entries (R381, R384). -/
def State.issueAe (s : State) (i : Nat) : State :=
  match (s.cam i).aeNext with
  | some v =>
    if s.on (O.AE_ENABLE i) then
      match s.issue i (s.aeCmds i v) none (some v) with
      | some s => s.modCam i fun c => { c with aeIssued := some v, aeNext := none, aeFirst := false }
      | none => s
    else s
  | none => s

/-- The window of frame `n` opens at its frame start: what was issued for this frame takes force, then the settings go
out. -/
def State.openWindow (s : State) (i n : Nat) : State :=
  let c := s.cam i
  let s := (c.issued.filter fun x => x.frame == n).foldl (fun s x => s.applyIssue i x) s
  let s := s.modCam i fun c =>
    { c with issued := c.issued.filter (fun x => decide (n < x.frame)),
             window := some { frame := n, start := s.timeNow, free := s.timeNow } }
  (s.issueQueue i 8).issueAe i

/-- I3C_BUS_ERROR (R383): the settings being sent are aborted; a generation already in force through a LATENCY of 0 is
taken back, and the exposure loop issues its values again. -/
def State.busError (s : State) (i : Nat) : State :=
  let c := s.cam i
  let x := match c.issued.find? (fun x => decide (s.timeNow < x.sentAt)) with
    | some x => some x
    | none => c.issued.getLast?
  match x with
  | none => s
  | some x =>
    let now := (c.window.map Window.frame).getD 0
    let s := s.modCam i fun c =>
      { c with issued := c.issued.filter (· != x),
               late := if x.generation.isSome then c.late.filter (fun l => l.2.2 != x.frame) else c.late }
    let s := if x.frame ≤ now then
        (s.applyIssue i { x with generation := x.generation.map fun _ => x.prevGen, ae := x.ae.map fun _ => x.prevAe }).relatch
          i now
      else s
    match x.generation with
    | some g =>
      let s := s.put (O.QUEUE_LAST_ERROR i (s.rd (O.CAM_OWNER i))) (.n g)
      (s.showQueue i true).inc (O.QUEUE_ABORTS i)
    | none => s.modCam i fun c => { c with aeNext := c.aeNext.or x.ae }

def execI3cBusError (input : Fin 16) (s : State) : Res := whenOk (s.ready 0x35) s fun s => s.busError input.val

/-! ### Frames -/

/-- The latched addresses lie in bank group 0, so that an input runs in MID (R386). -/
def State.midRuns (s : State) (i t : Nat) (o : OutSet) : Bool :=
  s.rd (O.ISP i) == 1 && s.rd O.MID_CAMERA == i / 8 + 1 && s.inGroup0 t o.frameBase (o.buffers * o.bufStride) &&
  (o.statsBase == 0 || s.inGroup0 t o.statsBase 65536)

/-- Raw buffers of an input that hold unprocessed frames. -/
def CamIn.rawBusy (c : CamIn) : List Nat :=
  (c.raws.map fun r => r.2.rawBuf) ++ (c.done.filter fun f => f.isp == 2 && f.fate == .kept).map Frame.rawBuf

/-- What becomes of a frame that starts (R370, R375, R386), and its raw buffer. An input with ISP 1 that INLINE_INPUT
does not name, and one whose ISP is down, is not processed. -/
def State.frameFate (s : State) (i t : Nat) (o : OutSet) : FrameFate × Nat :=
  let busy := (s.cam i).rawBusy
  let buf := (List.range o.rawBuffers).find? fun b => !busy.contains b
  if s.rd O.POWER_STATE = 3 ∧ !s.midRuns i t o then (.suspended, 0)
  else if !s.setInAlloc i t o then (.dropped, 0)
  else if s.rd (O.ISP i) = 1 ∧ (s.rd O.INLINE_INPUT ≠ i ∨ !s.ready 0x25) then (.dropped, 0)
  else if s.rd (O.ISP i) = 2 then (if buf.isNone then .dropped else .kept, buf.getD 0)
  else (.kept, 0)

/-- Address of the raw line `y` of a frame (R370). -/
def Frame.rawAt (f : Frame) (y : Nat) : Nat := f.out.rawBase + f.rawBuf * (f.width * f.height * 2) + y * f.width * 2

/-- Address of the buffer that a frame is written to (R375). -/
def Frame.bufAt (f : Frame) : Nat := f.out.frameBase + f.n % f.out.buffers * f.out.bufStride

/-- The frame in progress ends (R366, R367). -/
def State.finishFrame (s : State) (i flags : Nat) : State :=
  match (s.cam i).frame with
  | none => s
  | some f =>
    let s := s.modCam i fun c => { c with frame := none }
    if f.fate = .suspended then s
    else
      let missing := if flags.testBit 5 then 0 else f.height - f.lines.length
      let pad := List.replicate missing (List.replicate f.width (padCode f.dataType f.black))
      let f := { f with lines := f.lines ++ pad, linesPadded := missing,
                        flags := f.flags ||| flags ||| (if missing = 0 then 0 else 4) }
      let s := if f.flags.testBit 2 then s.inc (O.FRAMES_SHORT i) else s
      let s := if f.flags.testBit 3 then s.inc (O.FRAMES_LONG i) else s
      let s := if f.flags.testBit 4 then s.inc (O.FRAMES_NO_END i) else s
      let t := s.rd (O.CAM_OWNER i)
      let order := s.camera.order
      let s := { s with camera := { s.camera with order := order + 1 } }
      if f.isp = 2 ∧ f.fate = .kept ∧ !flags.testBit 5 then
        let s := s.tput t (f.rawAt 0) (f.lines.flatMap fun l => l.flatMap (leBytes 2))
        s.modCam i fun c => { c with raws := c.raws ++ [(order, f)] }
      else s.modCam i fun c => { c with done := c.done ++ [f] }

/-- A frame starts (R366): the pending set and the settings take force, and the frame latches what it is made with. -/
def State.startFrame (s : State) (i sensorFrame : Nat) : State :=
  let t := s.rd (O.CAM_OWNER i)
  let s := s.finishFrame i 16
  let n := s.rd (O.FRAME_COUNT i)
  let s := s.put (O.FRAME_COUNT i) (.n ((n + 1) % 2 ^ 32))
  let s := match (s.cam i).pending with
    | some o =>
      let s := s.modCam i fun c => { c with active := some o, pending := none }
      let s := (s.put (O.COMMIT_FRAME i t) (.n n)).put (O.CAM_COMMIT_PENDING i t) (.n 0)
      s.event (O.COMMIT_FRAME i t) 0 (csiUnit (i / 8)) 0
    | none => s
  match (s.cam i).active with
  | none => s
  | some o =>
    let (fate, buf) := s.frameFate i t o
    let s := if s.setInAlloc i t o || fate = .suspended then s else s.err 0x0403 0 (csiUnit (i / 8)) t i n
    let s := if fate = .suspended then s.inc (O.FRAMES_SUSPENDED i)
      else if fate = .dropped then s.inc (O.FRAMES_DROPPED i) else s
    let u := (s.cam i).unsettled
    let f : Frame :=
      { n, time := s.timeNow, sensorFrame, out := o, params := s.rdB (O.ISP_PARAMS i), isp := s.rd (O.ISP i),
        dataType := s.rd (O.DATA_TYPE i), width := s.rd (O.WIDTH i), height := s.rd (O.HEIGHT i),
        black := s.rd (O.BLACK_LEVEL i), sat := s.rd (O.SAT_LEVEL i), fate, lines := [], rawBuf := buf, held := 0,
        flags := (if 0 < u then 1 else 0) + (if fate = .dropped then 64 else 0), generation := 0,
        appliedFrame := 0xFFFFFFFF, exposure := 0, gain := 0, linesPadded := 0, linesDropped := 0, shortLines := 0,
        longLines := 0, crcLines := 0 }
    let s := s.modCam i fun c => { c with frame := some f, unsettled := u - 1 }
    (s.openWindow i n).relatch i n

/-- A packet header (Table 15.1): the input it belongs to; a header that cannot be corrected, and a virtual channel from
8 on, is discarded and counted. -/
def State.packet (s : State) (port vc : Nat) (ecc : EccState) (go : State → Nat → State) : State :=
  match ecc with
  | .failed => s.inc (O.PKT_DISCARDED port)
  | _ =>
    let s := match ecc with
      | .corrected => s.inc (O.CSI_ECC_CORRECTED port)
      | _ => s
    if 8 ≤ vc then s.inc (O.PKT_DISCARDED port) else go s (8 * port + vc)

/-- A receiver takes packets while its unit is ready and privacy is off (R368). -/
def State.receives (s : State) (port : Nat) : Bool := s.ready (csiUnit port) && !s.privacyOn

/-- FRAME_START (R366). -/
def execFrameStart (port : Fin 2) (vc : Fin 16) (sensorFrame : Fin 65536) (ecc : EccState) (s : State) : Res :=
  whenOk (s.receives port) s fun s => s.packet port vc ecc fun s i =>
    if s.camOn i then s.startFrame i sensorFrame else s

/-- FRAME_END (R366). -/
def execFrameEnd (port : Fin 2) (vc : Fin 16) (ecc : EccState) (s : State) : Res :=
  whenOk (s.receives port) s fun s => s.packet port vc ecc fun s i => s.finishFrame i 0

/-- FRAME_TIMEOUT (R366). -/
def execFrameTimeout (input : Fin 16) (s : State) : Res := whenAlive s fun s => s.finishFrame input 16

/-- Bytes that one received line brings to memory at once, and their address: a raw line, an unprocessed line, or the
inline ISP's output line when it is complete. -/
def Frame.lineStore (f : Frame) : Nat × Nat :=
  let y := f.lines.length
  if f.isp = 2 then (f.rawAt y, f.width * 2)
  else if f.isp = 0 then (f.bufAt + y * f.out.lineStride, f.width * pitch f.out.format)
  else if (y + 1) % f.out.scale = 0 ∧ y / f.out.scale < f.height / f.out.scale then
    (f.bufAt + y / f.out.scale * f.out.lineStride, f.width / f.out.scale * pitch f.out.format)
  else (f.bufAt, 0)

/-- A line's data go to memory, or wait in the buffer of 8 lines while the owner's pass is spent (R369, R376). -/
def State.chargeLine (s : State) (i : Nat) (f : Frame) : State × Frame :=
  let t := s.rd (O.CAM_OWNER i)
  let (a, n) := f.lineStore
  if f.fate ≠ .kept ∨ n = 0 then (s, f)
  else if s.camSpent t a then
    if f.held < 8 then (s, { f with held := f.held + 1 })
    else (s.inc (O.FRAMES_DROPPED i), { f with fate := .dropped, flags := f.flags ||| 128 })
  else
    ((List.range (f.held + 1)).foldl (fun s _ => s.trafficRange (s.camAct t) a n true) s, { f with held := 0 })

/-- One image line (R367, Table 15.3). -/
def State.line (s : State) (i : Nat) (codes : List Nat) (crcOk : Bool) (f : Frame) : State :=
  if f.fate = .suspended then s
  else if f.height ≤ f.lines.length then
    s.modFrame i fun f => { f with linesDropped := f.linesDropped + 1, flags := f.flags ||| 8 }
  else
    let p := padCode f.dataType f.black
    let xs := codes.map (· % 2 ^ typeBits f.dataType)
    let (s, f) := s.chargeLine i f
    let add := fun (f : Frame) l => { f with lines := f.lines ++ [l] }
    let (s, f) :=
      if !crcOk then (s.inc (O.LINES_CRC i), { add f (List.replicate f.width p) with crcLines := f.crcLines + 1 })
      else if xs.length < f.width then
        (s.inc (O.LINES_SHORT i),
         { add f (xs ++ List.replicate (f.width - xs.length) p) with shortLines := f.shortLines + 1 })
      else if f.width < xs.length then
        (s.inc (O.LINES_LONG i), { add f (xs.take f.width) with longLines := f.longLines + 1 })
      else (s, add f xs)
    s.modFrame i fun _ => f

/-- LINE_PACKET (R361, R364, R366, R367). -/
def execLinePacket (port : Fin 2) (vc : Fin 16) (dataType : Fin 64) (codes : List Nat) (crcOk : Bool) (ecc : EccState)
    (s : State) : Res :=
  whenOk (s.receives port) s fun s => s.packet port vc ecc fun s i =>
    if dataType = 0x12 then s
    else match (s.cam i).frame with
      | some f => if dataType.val = f.dataType then s.line i codes crcOk f else s.inc (O.PKT_DISCARDED port)
      | none => s.inc (O.PKT_DISCARDED port)

/-! ### The memory-pass ISP -/

/-- The raw frame that comes next: the earliest frame end, ties to the lower input (R370). -/
def State.nextRaw (s : State) : Option (Nat × Nat) :=
  (List.range 16).foldl (fun b i => match (s.cam i).raws.head? with
    | none => b
    | some r => match b with
      | some (o, _) => if r.1 < o then some (r.1, i) else b
      | none => some (r.1, i)) none

/-- MEMPASS_PROCESS (R370): one frame at a time. -/
def execMempassProcess (s : State) : Res :=
  whenOk (s.ready 0x26 && !s.camera.ins.any fun c => c.done.any fun f => f.isp == 2 && f.fate == .kept && !f.flags.testBit 5) s
    fun s =>
    match s.nextRaw with
    | none => s
    | some (_, i) =>
      match (s.cam i).raws with
      | [] => s
      | r :: rest =>
        let f := r.2
        let t := s.rd (O.CAM_OWNER i)
        let s := s.trafficRange (s.camAct t) (f.rawAt 0) (f.width * f.height * 2) false
        let s := { s with camera := { s.camera with processed := (s.clock, f.width * f.height) ::
          (s.camera.processed.filter fun p => decide (s.clock < p.1 + 1000000000)) } }
        s.modCam i fun c => { c with raws := rest, done := c.done ++ [f] }

/-! ### Completion -/

/-- The loop's result on a record (R384). -/
def aeStep (e g ymean target expMin expMax gainMin gainMax : Nat) : Option (Nat × Nat) :=
  if ((ymean : Int) - target).natAbs ≤ target / 32 then none
  else
    let p := e * g
    let cl := fun (lo hi x : Nat) => max lo (min hi x)
    let p2 := if ymean = 0 then 2 * p else cl (p / 2) (2 * p) (divRhe (p * target : Nat) ymean).toNat
    let e2 := cl expMin expMax (p2 / gainMin)
    some (e2, cl gainMin gainMax (divRhe p2 e2).toNat)

/-- Ymean of a luma histogram; of one that counts no pixel, a free value. -/
def State.ymean (s : State) (h : List Nat) : Nat × State :=
  let n := h.foldl (· + ·) 0
  if n = 0 then s.freeVal 12
  else ((divRhe ((h.mapIdx fun b c => (16 * b + 8) * c).foldl (· + ·) 0 : Nat) n).toNat, s)

/-- The exposure loop runs on the record of a frame (R384). -/
def State.aeRun (s : State) (i : Nat) (f : Frame) (rgb : Option (List (List (List Nat)))) : State :=
  let skip := f.flags &&& (1 + 32 + 64 + 128) != 0
  if !s.on (O.AE_ENABLE i) || !s.camOn i || skip || (s.cam i).aeIssued != some (f.exposure, f.gain) then s
  else
    let (y, s) := s.ymean ((rgb.map lumaHist).getD [])
    match aeStep f.exposure f.gain y (s.rd (O.AE_TARGET i)) (s.rd (O.EXP_MIN i)) (s.rd (O.EXP_MAX i))
        (s.rd (O.GAIN_MIN i)) (s.rd (O.GAIN_MAX i)) with
    | some v => s.setAe i v
    | none => s

/-- APPLIED_LATE of a frame's record (R382). -/
def CamIn.lateOf (c : CamIn) (n : Nat) : Option Nat :=
  (c.late.reverse.find? fun l => decide (l.1 ≤ n ∧ n ≤ l.2.1)).map fun l => l.2.2

/-- A frame's output and record are written, and FRAME_DONE advances (R375, R377). -/
def State.completeFrame (s : State) (i : Nat) (f : Frame) : State :=
  let t := s.rd (O.CAM_OWNER i)
  let c := s.cam i
  let f := match c.lateOf f.n with
    | some a => { f with flags := f.flags ||| 2, appliedFrame := a }
    | none => f
  let kept := f.fate == .kept && !f.flags.testBit 5
  let raw := if f.isp = 2 then
      (List.range f.height).map fun y => (List.range f.width).map fun x => leNat (s.tbytes t (f.rawAt y + 2 * x) 2)
    else f.lines
  let (out, rgb) := if kept then ispOutput f raw else ([], none)
  let s := (out.mapIdx fun y l => (y, l)).foldl (fun s p => s.tput t (f.bufAt + p.1 * f.out.lineStride) p.2) s
  let s := if f.isp = 2 then
      (out.mapIdx fun y l => (y, l)).foldl (fun s p =>
        s.trafficRange (s.camAct t) (f.bufAt + p.1 * f.out.lineStride) p.2.length true) s
    else s
  let at' := f.out.statsBase + f.n % 8 * 8192
  let s := if f.out.statsBase ≠ 0 ∧ s.allocOk t at' 8192 then
      let rec' := statsRecord f i (f.n % f.out.buffers) raw rgb s.free
      let s := { s with free := s.free + 3072 }
      (s.trafficRange (s.camAct t) at' 8192 true).tput t at' rec'
    else s
  let s := (s.put (O.FRAME_DONE i) (.n f.n)).event (O.FRAME_DONE i) 0 (csiUnit (i / 8)) 0
  let s := (s.inc (O.FRAMES_DONE i)).modCam i fun c => { c with late := c.late.filter fun l => decide (f.n < l.2.1) }
  s.aeRun i f rgb

/-- ISP_FRAME_COMPLETE (R375). -/
def execIspFrameComplete (input : Fin 16) (s : State) : Res := whenAlive s fun s =>
  match (s.cam input).done with
  | [] => s
  | f :: rest => (s.modCam input fun c => { c with done := rest }).completeFrame input f

/-! ### Privacy -/

/-- Everything in progress ends with PRIVACY (R368). -/
def State.gateCameras (s : State) : State :=
  (List.range 16).foldl (fun s i =>
    let s := s.finishFrame i 32
    s.modCam i fun c =>
      { c with raws := [], done := c.done ++ c.raws.map (fun (r : Nat × Frame) => { r.2 with flags := r.2.flags ||| 32 }) }) s

/-- The filtered state changes (R71, R368): request source 7. -/
def State.setPrivacy (s : State) (v : Nat) : State :=
  if s.rd O.PRIVACY = v then s else (((s.wr O.PRIVACY v).inc O.PRIVACY_CHANGES).wakeSource 7)

/-- CAM_PRIVACY_ON (R71): the raw level gates the streams at once. -/
def execCamPrivacyOn (s : State) : Res :=
  let s := { s with pins := { s.pins with privRaw := true } }
  whenAlive s fun s => s.gateCameras.setPrivacy 1

/-- CAM_PRIVACY_OFF (R71, R378): 20 ms of continuous high. -/
def execCamPrivacyOff (s : State) : Res :=
  let s := { s with pins := { s.pins with privRaw := false } }
  whenOk (s.rd O.PRIVACY == 1) s fun s =>
    let s := s.setPrivacy 0
    { s with camera := { s.camera with ins := s.camera.ins.map fun (c : CamIn) => { c with unsettled := 4 } } }

/-! ### Views -/

/-- INPUT_STATE (5010.10). -/
def State.inputState (s : State) (i : Nat) : Nat :=
  if !s.camOn i then 0
  else if s.privacyOn then 4
  else match (s.cam i).frame with
    | some f => if f.fate = .suspended then 3 else 2
    | none =>
      if s.rd O.POWER_STATE = 3 ∧ !((s.cam i).active.map (s.midRuns i (s.rd (O.CAM_OWNER i)))).getD false then 3 else 1

/-- RX_STATE (5001.05). -/
def State.rxState (s : State) (p : Nat) : Nat :=
  if s.held (csiUnit p) then 4
  else if !s.unitPowered (csiUnit p) then 0
  else if !(List.range 8).any fun i => s.camOn (8 * p + i) then 1
  else if (List.range 8).any fun i => (s.cam (8 * p + i)).frame.isSome then 3
  else 2

/-- MP_LOAD (5000.04). -/
def State.mpLoad (s : State) : Nat :=
  (s.camera.processed.foldl (fun n p => if s.clock < p.1 + 1000000000 then n + p.2 else n) 0) / 1000000

/-! ### Writes -/

/-- The writer may use an input's owned fields (R365, Table 15.8). -/
def State.camWriter (s : State) (i t w : Nat) : Bool := s.rd (O.CAM_OWNER i) == t && (w == t || w == 0)

/-- The aborts of a write to ENABLE (R365). -/
def State.camEnableAborts (s : State) (i t w v : Nat) : List Abort :=
  (if s.camWriter i t w then [] else [.notOwned]) ++
  if v ≠ 1 ∨ s.camOn i then [] else
    let isp := s.rd (O.ISP i)
    let o := (s.cam i).pending.or (s.cam i).active
    let load := (List.range 16).foldl (fun n j => if s.camOn j && s.rd (O.ISP j) == 2 then n + s.rd (O.MAX_MPIXS j) else n) 0
    let j := s.rd O.INLINE_INPUT
    (if s.ready (csiUnit (i / 8)) && s.ready 0x35 && (isp == 0 || s.ready (0x24 + isp)) then [] else [.notReady]) ++
    (if (isp = 0 ∨ (nth s.security.images 2 none).isSome) ∧ (o.map (s.setOk i t)).getD false then [] else [.notConfigured]) ++
    (if isp = 1 ∧ 600 < s.rd (O.MAX_MPIXS i) ∨ isp = 2 ∧ 800 < load + s.rd (O.MAX_MPIXS i) then [.outOfRange] else []) ++
    (if isp = 1 ∧ j < 16 ∧ j ≠ i ∧ s.camOn j then [.ownedBy (s.rd (O.CAM_OWNER j))] else [])

/-- An accepted write to ENABLE. Disabling drops the frame in progress and the raw frames. -/
def State.camEnable (s : State) (i t v : Nat) : State :=
  if v = 1 then
    if s.camOn i then s
    else
      let first := !(List.range 8).any fun j => s.camOn (8 * (i / 8) + j)
      let s := (((s.put (O.CAM_ENABLE i t) (.n 1)).put (O.FRAME_COUNT i) (.n 0)).put (O.GEN_IN_FORCE i) (.n 0))
      let s := s.modCam i fun c =>
        { c with frame := none, raws := [], window := none, issued := [], late := [], unsettled := 4, aeNext := none,
                 aeIssued := none, aeForce := (0, 0), aeFirst := false }
      let s := if first && s.rd (O.BUS_MODE (i / 8)) == 2 then
          (List.range 8).foldl (fun s j => s.modCam (8 * (i / 8) + j) fun c =>
            { c with dasa := s.rd (O.SENSOR_ADDR (8 * (i / 8) + j)) != 0 }) s
        else s
      if s.on (O.AE_ENABLE i) then s.startAe i else s
  else
    let s := s.put (O.CAM_ENABLE i t) (.n 0)
    (s.modCam i fun c => { c with frame := none, raws := [], window := none }).aeMismatch i

/-- The aborts of a COMMIT (R373). -/
def State.camCommitAborts (s : State) (i t w : Nat) : List Abort :=
  (if s.camWriter i t w then [] else [.notOwned]) ++
  (if s.setOk i t (s.shadowSet i t) then [] else [.outOfRange])

/-- An accepted COMMIT (R373, R374). -/
def State.camCommit (s : State) (i t : Nat) : State :=
  let o := s.shadowSet i t
  if s.camOn i then
    let s := if (s.cam i).pending.isSome then s.inc (O.COMMITS_SUPERSEDED i) else s
    (s.modCam i fun c => { c with pending := some o }).put (O.CAM_COMMIT_PENDING i t) (.n 1)
  else
    let s := s.modCam i fun c => { c with active := some o, pending := none }
    ((s.put (O.COMMIT_FRAME i t) (.n 0)).put (O.CAM_COMMIT_PENDING i t) (.n 0)).event (O.COMMIT_FRAME i t) 0 (csiUnit (i / 8)) 0

/-- The commands of a settings entry from byte `o` on; none where they do not fill the entry exactly. -/
def busCmds (bs : List Byte) : Nat → Nat → Option (List BusCmd)
  | 0, o => if o = bs.length then some [] else none
  | n + 1, o =>
    let len := field bs (o + 4) 1
    if bs.length < o + 5 + len ∨ len < 1 ∨ 16 < len ∨ 1 < field bs (o + 1) 1 then none
    else (busCmds bs n (o + 5 + len)).map fun rest =>
      { addr := field bs o 1, wide := (field bs (o + 1) 1).testBit 0, reg := field bs (o + 2) 2,
        data := slice bs (o + 5) len } :: rest

/-- A settings entry (Table 15.7); none where a reserved field is set or the layout is broken. -/
def qEntryOf (bs : List Byte) : Option QEntry :=
  let n := field bs 9 1
  if bs.length < 12 ∨ 1 < field bs 8 1 ∨ field bs 0x0A 2 ≠ 0 ∨ n < 1 ∨ 24 < n then none
  else (busCmds bs n 12).map fun cmds =>
    { target := field bs 0 4, generation := field bs 4 4, asap := (field bs 8 1).testBit 0, cmds }

/-- A command writes a register of AE_REGS (R380, R385). -/
def State.aeClash (s : State) (i : Nat) (c : BusCmd) : Bool :=
  let r := s.rdB (O.AE_REGS i)
  let hit := fun (a n : Nat) => decide (a < c.reg + c.data.length ∧ c.reg < a + n)
  s.on (O.AE_ENABLE i) && (hit (field r 0 2) (field r 4 1) || hit (field r 2 2) (field r 5 1))

/-- The aborts of a QUEUE_PUSH (R380). -/
def State.pushAborts (s : State) (i t w : Nat) (bs : List Byte) : List Abort :=
  (if s.camWriter i t w then [] else [.notOwned]) ++
  (match qEntryOf bs with
  | none => [.outOfRange]
  | some e =>
    if e.generation ≤ (s.cam i).lastAccepted || e.cmds.any (fun c => c.addr != s.rd (O.SENSOR_ADDR i) || s.aeClash i c) ||
        decide (s.rd (O.WINDOW_US i) * 1000 < s.busNs (i / 8) e.cmds) then [.outOfRange] else []) ++
  (if 8 ≤ (s.cam i).queue.length then [.noResource] else [])

/-- An accepted QUEUE_PUSH: the entry goes out at once if its window is open. While privacy is on no window opens, and
an ASAP entry is sent when it is pushed. -/
def State.pushEntry (s : State) (i : Nat) (bs : List Byte) : State :=
  match qEntryOf bs with
  | none => s
  | some e =>
    let s := s.modCam i fun c => { c with queue := c.queue ++ [e], lastAccepted := e.generation }
    let s := s.showQueue i false
    let s := if s.privacyOn && s.camOn i then
        s.modCam i fun c => { c with window := some { frame := s.rd (O.FRAME_COUNT i), start := s.timeNow,
                                                      free := max s.timeNow ((c.window.map Window.free).getD 0) } }
      else s
    s.issueQueue i 8

/-- ISP_PARAMS with a reserved field set or a value out of range (Table 15.4). -/
def ispParamsBad (bs : List Byte) : Bool :=
  decide (3 < field bs 0 1) || decide (1 < field bs 1 1) || decide (4095 < field bs 2 2) || field bs 0x1E 2 != 0 ||
  field bs 0x222 478 != 0

end Sys2Proof.Machine
end

