-- ==== Sys2Proof/Machine/Net.lean ====
section
/-!
DEFINITION. Time and the field network (chapter 16): the servo and its quality (R390, R391), gPTP on NET0 (R395), the
ordinary clock of NET1 (R399), addresses and the external PHY (R394), PLCA (R398), wake frames (R400), TIME_IO (R403,
R404, R410) and the writes of triggers (R407). Octets of PTP, ARP and neighbour discovery frames follow their standards.
-/

namespace Sys2Proof.Machine

def State.setPtp (s : State) (port : Nat) (g : Ptp → Ptp) : State :=
  if port = 0 then { s with net := { s.net with ptp0 := g s.net.ptp0 } } else { s with net := { s.net with ptp1 := g s.net.ptp1 } }
def State.ptp (s : State) (port : Nat) : Ptp := if port = 0 then s.net.ptp0 else s.net.ptp1

def State.mac (s : State) (port : Nat) : List Byte := s.rdB (if port = 0 then O.NET0_MAC else O.NET1_MAC)

/-- The device's clockIdentity on a port, from its MAC address. PRESUMED: EUI-64 with FF FE inserted. -/
def State.clockId (s : State) (port : Nat) : List Byte :=
  let m := s.mac port
  slice m 0 3 ++ leBytes 1 0xFF ++ leBytes 1 0xFE ++ slice m 3 3

/-- PTP runs on a port: 802.1AS on NET0 (R395), the configured role on NET1 (R399). -/
def State.ptpOn (s : State) (port : Nat) : Bool :=
  if port = 0 then s.on O.NET0_PTP && s.ready 0x21 && s.domOn 57
  else s.on O.NET1_ENABLE && s.rd O.NET1_PTP_ROLE != 0 && s.ready 0x22 && s.domOn 58

def State.isSlave1 (s : State) : Bool := s.rd O.NET1_PTP_ROLE == 1
def State.isMaster1 (s : State) : Bool := s.rd O.NET1_PTP_ROLE == 2

/-- The port is the selected source (R390). -/
def State.selected (s : State) (port : Nat) : Bool := s.rd O.SYNC_SOURCE == port + 1

def State.ptpDomain (s : State) (port : Nat) : Nat := s.rd (if port = 0 then O.GPTP_DOMAIN else O.NET1_PTP_DOMAIN)

/-- Latencies that timestamps are compensated for (R396, R399). -/
def State.txLatency (s : State) (port : Nat) : Int := s.rdI 32 (if port = 0 then O.NET0_TX_LATENCY else O.NET1_PHY_TX_LATENCY)
def State.rxLatency (s : State) (port : Nat) : Int := s.rdI 32 (if port = 0 then O.NET0_RX_LATENCY else O.NET1_PHY_RX_LATENCY)

/-- A received event message's timestamp, and that of a message sent now. -/
def State.rxStamp (s : State) (port : Nat) (m : PtpMsg) : Int := (m.rxTime : Int) - s.rxLatency port
def State.txNow (s : State) (port : Nat) : Nat := ((s.timeNow : Int) + s.txLatency port).toNat

/-- A message that arrives: malformed ones are counted and discarded (3010.15, 3020.1F). -/
def State.ptpRx (s : State) (port : Nat) (m : PtpMsg) (go : State → State) : State :=
  if m.malformed then s.inc (if port = 0 then O.NET0_PTP_ERRORS else O.NET1_PTP_ERRORS) else go s

/-! ### The servo (R390, R391) -/

/-- ERROR_BOUND_NS in LOCKING and LOCKED. -/
def State.boundNow (s : State) : State := s.put O.ERROR_BOUND_NS (.n (nsUp (s.rdI 64 O.OFFSET)))

/-- The quality after an offset within the step threshold, with the counts of consecutive offsets. -/
def nextQuality (q good bad : Nat) (within : Bool) : Nat × Nat × Nat :=
  if q = 2 then (if within then (2, 0, 0) else if 3 ≤ bad then (1, 0, 0) else (2, 0, bad + 1))
  else if within then (if q = 1 ∧ 7 ≤ good then (2, 0, 0) else (1, (if q = 1 then good else 0) + 1, 0))
  else (1, 0, 0)

/-- ρ under the servo's rule, whose coefficients the spec does not give: a free value within ±SLEW_MAX_PPB. -/
def State.servo (s : State) : State :=
  let (v, s) := s.freeVal 40
  let m : Int := 1000 * (s.rd O.SLEW_MAX_PPB : Int)
  s.modTime fun x => { x with rho := clampI (-m) m (sx 40 v) }

/-- An offset from the selected master is applied (R390). -/
def State.applyOffset (s : State) (port : Nat) (off : Int) : State :=
  let s := s.put O.OFFSET (.n (toU 64 off))
  let s := match (s.ptp port).master with
    | some m => s.put O.MASTER_ID (.b m.clockId)
    | none => s
  if (s.rd O.STEP_THRESHOLD_NS * 65536 : Nat) < off.natAbs then
    let s := s.stepTime ((s.timeNow : Int) - off).toNat
    ((s.modTime fun x => { x with good := 0, bad := 0 }).wr O.TIME_QUALITY 1).boundNow
  else
    let (q, g, b) := nextQuality (s.rd O.TIME_QUALITY) s.time.good s.time.bad
      (decide (off.natAbs ≤ s.rd O.LOCK_THRESHOLD_NS * 65536))
    (((s.servo.modTime fun x => { x with good := g, bad := b }).wr O.TIME_QUALITY q)).boundNow

/-- A Sync measurement completes (R390, R395, R399): the offset is applied if the port is the selected source. -/
def State.syncDone (s : State) (port : Nat) (rx : Int) (origin : Nat) (corr : Int) : State :=
  let off := rx - ((origin : Int) + corr + (s.ptp port).delay)
  let s := s.setPtp port fun p => { p with lastOffset := off, syncT1 := some (((origin : Int) + corr).toNat, rx.toNat) }
  if s.selected port && s.timeRuns then s.applyOffset port off else s

/-- The quality is interrupted on the selected source (R391). -/
def State.lostSource (s : State) (port : Nat) : State := if s.selected port then s.holdover else s

/-- A port accepts Syncs from this sender: NET0 from its master while asCapable, NET1 as SLAVE from its master. -/
def State.acceptsSync (s : State) (port : Nat) (m : PtpMsg) : Bool :=
  s.ptpDomain port == m.domain.val && ((s.ptp port).master.map Master.clockId) == some m.clockId &&
  (if port = 0 then s.on O.AS_CAPABLE && !(s.ptp 0).isMaster else s.isSlave1)

/-- SYNC (R390, R395). -/
def execSync (port : Fin 2) (m : PtpMsg) (twoStep : Bool) (s : State) : Res :=
  whenOk (s.ptpOn port) s fun s => s.ptpRx port m fun s =>
    if !s.acceptsSync port m then s
    else if twoStep then
      s.setPtp port fun p => { p with pendingSync := some (m.sequenceId.val, (s.rxStamp port m).toNat, m.correction, m.clockId) }
    else s.syncDone port (s.rxStamp port m) m.timestamp m.correction

/-- FOLLOW_UP (R395). -/
def execFollowUp (port : Fin 2) (m : PtpMsg) (s : State) : Res :=
  whenOk (s.ptpOn port) s fun s => s.ptpRx port m fun s =>
    match (s.ptp port).pendingSync with
    | some (seq, rx, corr, id) =>
      if seq = m.sequenceId.val ∧ id = m.clockId ∧ s.acceptsSync port m then
        (s.setPtp port fun p => { p with pendingSync := none }).syncDone port rx m.timestamp (corr + m.correction)
      else s
    | none => s

/-- ERROR_BOUND_TICK (R391): the time since the entry counts without the sleeps, whose terms are apart (R392). -/
def execErrorBoundTick (s : State) : Res :=
  whenOk (s.rd O.TIME_QUALITY == 3 && s.timeRuns) s fun s =>
    let e := s.timeNow - s.rd O.HOLDOVER_SINCE - s.time.slept
    s.put O.ERROR_BOUND_NS (.n ((s.time.holdOffsetNs + ceilDiv (s.rd O.HOLDOVER_PPB * e) (65536 * 1000000000) +
      s.time.sleepTermsNs) % 2 ^ 64))

/-- SYNC_RECEIPT_TIMEOUT (R391): no Sync for 3 intervals, or no Announce. NET0 may become grandmaster (R395). -/
def execSyncReceiptTimeout (port : Fin 2) (s : State) : Res :=
  whenOk (s.ptpOn port) s fun s =>
    (s.lostSource port).setPtp port fun p =>
      { p with master := none, pendingSync := none, isMaster := port = 0 && s.rd O.PRIORITY1 != 255 }

/-! ### Frames that the time unit sends -/

/-- The checksum of RFC 1071 over 16-bit words. -/
def inetSum (bs : List Byte) : Nat :=
  let t := (List.range ((bs.length + 1) / 2)).foldl (fun n i => n + beNat (slice bs (2 * i) 2)) 0
  let f := fun n => n % 65536 + n / 65536
  65535 - f (f t)

/-- A PTP message header (IEEE 1588), `sdo` 1 for 802.1AS. -/
def ptpHeader (sdo ty len domain flags : Nat) (corr : Int) (clockId : List Byte) (seq : Nat) (log : Int) : List Byte :=
  leBytes 1 (16 * sdo + ty) ++ leBytes 1 0x12 ++ beBytes 2 len ++ leBytes 1 domain ++ [0] ++ beBytes 2 flags ++
  beBytes 8 (toU 64 corr) ++ List.replicate 4 0 ++ clockId ++ beBytes 2 1 ++ beBytes 2 seq ++ [0] ++ leBytes 1 (toU 8 log)

/-- A PTP timestamp: its whole nanoseconds; the fraction goes into the correction field. -/
def ptpTime (t : Nat) : List Byte :=
  let ns := t / 65536
  beBytes 6 (ns / 1000000000) ++ beBytes 4 (ns % 1000000000)

/-- A PTP message leaves a port, on Ethernet or over UDP (R399); `event` messages take port 319. -/
def State.sendPtp (s : State) (port : Nat) (event : Bool) (msg : List Byte) : State :=
  if !s.netSends port then s
  else
    let src := s.mac port
    if port = 1 ∧ s.rd O.NET1_PTP_TRANSPORT = 1 then
      let p := if event then 319 else 320
      let udp := beBytes 2 p ++ beBytes 2 p ++ beBytes 2 (8 + msg.length) ++ [0, 0] ++ msg
      let h := fun (c : Nat) => beBytes 2 0x4500 ++ beBytes 2 (20 + udp.length) ++ List.replicate 4 0 ++ beBytes 2 0x0111 ++
        beBytes 2 c ++ beBytes 4 (s.rd O.NET1_IPV4) ++ beBytes 4 0xE0000181
      s.emitOut (.frame port (beBytes 6 0x01005E000181 ++ src ++ beBytes 2 0x0800 ++ h (inetSum (h 0)) ++ udp))
    else
      s.emitOut (.frame port (beBytes 6 (if port = 0 then 0x0180C200000E else 0x011B19000000) ++ src ++ beBytes 2 0x88F7 ++ msg))

/-- A message of the device: header, a timestamp and what follows it. -/
def State.ptpMsg (s : State) (port ty flags : Nat) (corr : Int) (seq : Nat) (log : Int) (stamp : Nat) (rest : List Byte) :
    List Byte :=
  let body := ptpTime stamp ++ rest
  ptpHeader (if port = 0 then 1 else 0) ty (34 + body.length) (s.ptpDomain port) flags (corr + (stamp % 65536 : Nat)) (s.clockId port) seq log ++
  body

/-- The Follow_Up information TLV of 802.1AS, of a grandmaster. -/
def followUpTlv : List Byte := beBytes 2 3 ++ beBytes 2 28 ++ beBytes 3 0x0080C2 ++ beBytes 3 1 ++ List.replicate 22 0

/-- The device is master of a port. -/
def State.sendsSync (s : State) (port : Nat) : Bool :=
  s.ptpOn port && (if port = 0 then (s.ptp 0).isMaster && s.on O.AS_CAPABLE else s.isMaster1)

/-- SYNC_INTERVAL_EXPIRY (R395, R399): a two-step Sync and its Follow_Up. -/
def execSyncIntervalExpiry (port : Fin 2) (s : State) : Res :=
  whenOk (s.sendsSync port) s fun s =>
    let q := (s.ptp port).syncSeq
    let log := s.rdI 8 (if port = 0 then O.NET0_SYNC_LOG_INTERVAL else O.NET1_SYNC_LOG_INTERVAL)
    let s := s.sendPtp port true (s.ptpMsg port 0 0x0200 0 q log 0 [])
    let s := s.sendPtp port false (s.ptpMsg port 8 0 0 q log (s.txNow port) (if port = 0 then followUpTlv else []))
    s.setPtp port fun p => { p with syncSeq := (q + 1) % 65536 }

/-- The clock quality that a master advertises (R399): class, accuracy, variance and time source. -/
def State.advertise (s : State) : Nat × Nat × Nat × Nat :=
  let q := s.rd O.TIME_QUALITY
  let gm := if s.rd O.SYNC_SOURCE = 0 then none else (s.ptp (s.rd O.SYNC_SOURCE - 1)).master
  match q, gm with
  | 2, some m => (m.clockClass, m.clockAccuracy, m.variance, m.timeSource)
  | 3, _ => (if s.time.advertised = 6 then 7 else if s.time.advertised = 13 then 14 else 248, 0xFE, 0xFFFF, 0xA0)
  | _, _ => (248, 0xFE, 0xFFFF, 0xA0)

/-- ANNOUNCE_INTERVAL_EXPIRY (R395, R399). -/
def execAnnounceIntervalExpiry (port : Fin 2) (s : State) : Res :=
  whenOk (s.sendsSync port) s fun s =>
    let (c, a, v, ts) := if port = 1 then s.advertise else (248, 0xFE, 0xFFFF, 0xA0)
    let p1 := if port = 0 then s.rd O.PRIORITY1 else 128
    let p2 := if port = 0 then s.rd O.PRIORITY2 else 128
    let log := if port = 0 then 0 else s.rdI 8 O.NET1_ANNOUNCE_LOG_INTERVAL
    let rest := [0, 0, 0] ++ leBytes 1 p1 ++ leBytes 1 c ++ leBytes 1 a ++ beBytes 2 v ++ leBytes 1 p2 ++ s.clockId port ++
      [0, 0] ++ leBytes 1 ts
    let q := (s.ptp port).announceSeq
    let s := s.sendPtp port false (s.ptpMsg port 11 8 0 q log 0 rest)
    let s := s.setPtp port fun p => { p with announceSeq := (q + 1) % 65536 }
    if port = 1 ∧ s.rd O.TIME_QUALITY ≠ 3 then s.modTime fun x => { x with advertised := c } else s

/-! ### Peer delay on NET0 (R395) -/

/-- AS_CAPABLE follows the delay and the missing responses. -/
def State.setCapable (s : State) (b : Bool) : State := s.wr O.AS_CAPABLE (if b then 1 else 0)

/-- PDELAY_INTERVAL_EXPIRY (R395): three missing responses clear asCapable; a Pdelay_Req is sent. -/
def execPdelayIntervalExpiry (responseMissing : Bool) (s : State) : Res :=
  whenOk (s.ptpOn 0) s fun s =>
    let n := if responseMissing then s.net.ptp0.missing + 1 else 0
    let s := s.setPtp 0 fun p => { p with missing := n }
    let s := if 3 ≤ n then s.setCapable false else s
    if !s.netSends 0 then s
    else
      let q := (s.net.ptp0.reqSeq + 1) % 65536
      let s := s.setPtp 0 fun p => { p with reqSeq := q, reqTime := some (s.txNow 0), respT2 := none }
      s.sendPtp 0 true (s.ptpMsg 0 2 0 0 q (s.rdI 8 O.NET0_PDELAY_LOG_INTERVAL) 0 (List.replicate 10 0))

/-- PDELAY_REQ (R395): answered with Pdelay_Resp and Pdelay_Resp_Follow_Up. -/
def execPdelayReq (m : PtpMsg) (s : State) : Res :=
  whenOk (s.ptpOn 0) s fun s => s.ptpRx 0 m fun s =>
    let peer := m.clockId ++ beBytes 2 m.portNum
    let s := s.sendPtp 0 true (s.ptpMsg 0 3 0x0200 0 m.sequenceId 0x7F (s.rxStamp 0 m).toNat peer)
    s.sendPtp 0 false (s.ptpMsg 0 10 0 0 m.sequenceId 0x7F (s.txNow 0) peer)

/-- PDELAY_RESP (R395). -/
def execPdelayResp (m : PtpMsg) (s : State) : Res :=
  whenOk (s.ptpOn 0) s fun s => s.ptpRx 0 m fun s =>
    if s.net.ptp0.reqTime.isSome ∧ s.net.ptp0.reqSeq = m.sequenceId.val then
      s.setPtp 0 fun p => { p with respT2 := some (((m.timestamp : Int) + m.correction).toNat, (s.rxStamp 0 m).toNat) }
    else s

/-- neighborRateRatio minus 1 in 2^-41, from two exchanges (R395). -/
def rateRatioOf (prev : Option (Nat × Nat)) (t3 t4 : Nat) : Int :=
  match prev with
  | some (p3, p4) =>
    let d4 : Int := (t4 : Int) - p4
    if d4 ≤ 0 then 0 else (((t3 : Int) - p3) - d4) * 2 ^ 41 / d4
  | none => 0

/-- PDELAY_RESP_FOLLOW_UP (R395): the exchange completes, and asCapable follows the delay. -/
def execPdelayRespFollowUp (m : PtpMsg) (s : State) : Res :=
  whenOk (s.ptpOn 0) s fun s => s.ptpRx 0 m fun s =>
    let p := s.net.ptp0
    match p.reqTime, p.respT2 with
    | some t1, some (t2, t4) =>
      if p.reqSeq ≠ m.sequenceId.val then s
      else
        let t3 := ((m.timestamp : Int) + m.correction).toNat
        let r := rateRatioOf p.prevPair t3 t4
        let turn : Int := (t4 : Int) - t1
        let d := (turn + turn * r / 2 ^ 41 - ((t3 : Int) - t2)) / 2
        let s := s.setPtp 0 fun p =>
          { p with delay := d, rateRatio := r, prevPair := some (t3, t4), reqTime := none, respT2 := none, missing := 0 }
        let s := s.put O.NEIGHBOR_DELAY_NS (.n ((max d 0).toNat / 65536 % 2 ^ 32))
        s.setCapable (decide (d ≤ 800 * 65536))
    | _, _ => s

/-! ### Announce and Signaling -/

/-- The priority vector of 802.1AS: smaller is better. -/
def Master.vector (m : Master) : List Nat :=
  [m.priority1, m.clockClass, m.clockAccuracy, m.variance, m.priority2] ++ m.gmId.map BitVec.toNat ++ [m.stepsRemoved] ++
  m.clockId.map BitVec.toNat

def listLt : List Nat → List Nat → Bool
  | [], [] => false
  | [], _ => true
  | _, [] => false
  | a :: as, b :: bs => if a < b then true else if b < a then false else listLt as bs

/-- The master that an Announce describes. -/
def Master.ofAnnounce (m : PtpMsg) (a : AnnounceMsg) : Master :=
  { clockId := m.clockId, gmId := a.gmId, priority1 := a.priority1, clockClass := a.clockClass,
    clockAccuracy := a.clockAccuracy, variance := a.variance, priority2 := a.priority2, stepsRemoved := a.stepsRemoved,
    timeSource := a.timeSource }

/-- The device as a grandmaster on NET0; none with PRIORITY1 255. -/
def State.ownMaster (s : State) : Option Master :=
  if s.rd O.PRIORITY1 = 255 then none
  else some { clockId := s.clockId 0, gmId := s.clockId 0, priority1 := s.rd O.PRIORITY1, clockClass := 248,
              clockAccuracy := 0xFE, variance := 0xFFFF, priority2 := s.rd O.PRIORITY2, stepsRemoved := 0, timeSource := 0xA0 }

/-- A port takes a master: a change of the grandmaster identity interrupts the quality (R391). -/
def State.takeMaster (s : State) (port : Nat) (n : Master) : State :=
  let s := match (s.ptp port).master with
    | some o => if o.gmId = n.gmId then s else s.lostSource port
    | none => s
  let s := s.setPtp port fun p => { p with master := some n, isMaster := false }
  if s.selected port then s.put O.MASTER_ID (.b n.clockId) else s

/-- ANNOUNCE (R395, R399): the best master clock algorithm on NET0; on NET1 the SLAVE keeps the master it first heard,
and counts the others. -/
def execAnnounce (port : Fin 2) (m : PtpMsg) (a : AnnounceMsg) (s : State) : Res :=
  whenOk (s.ptpOn port) s fun s => s.ptpRx port m fun s =>
    if s.ptpDomain port ≠ m.domain.val then s
    else
      let n := Master.ofAnnounce m a
      if port = 1 then
        let known := (s.ptp 1).master.map Master.clockId
        if s.isSlave1 && (known == none || known == some m.clockId) then s.takeMaster 1 n else s.inc O.NET1_FOREIGN_ANNOUNCE
      else if !s.on O.AS_CAPABLE || m.clockId == s.clockId 0 then s
      else
        let best := match (s.ptp 0).master with
          | some o => if o.clockId = n.clockId ∨ listLt n.vector o.vector then n else o
          | none => n
        match s.ownMaster with
        | some o =>
          if listLt o.vector best.vector then
            (if (s.ptp 0).master.isSome then s.lostSource 0 else s).setPtp 0 fun p => { p with master := none, isMaster := true }
          else s.takeMaster 0 best
        | none => s.takeMaster 0 best

/-- SIGNALING (R395): message-interval requests within the ranges of Table 16.4. -/
def execSignaling (m : PtpMsg) (pdelayLog syncLog announceLog : Int) (s : State) : Res :=
  let _ := announceLog
  whenOk (s.ptpOn 0) s fun s => s.ptpRx 0 m fun s =>
    let s := if -3 ≤ pdelayLog ∧ pdelayLog ≤ 3 then s.put O.NET0_PDELAY_LOG_INTERVAL (.n (toU 8 pdelayLog)) else s
    if -7 ≤ syncLog ∧ syncLog ≤ 0 then s.put O.NET0_SYNC_LOG_INTERVAL (.n (toU 8 syncLog)) else s

/-! ### Delay requests on NET1 (R399) -/

/-- DELAY_REQ: a MASTER answers with Delay_Resp. -/
def execDelayReq (m : PtpMsg) (s : State) : Res :=
  whenOk (s.ptpOn 1 && s.isMaster1) s fun s => s.ptpRx 1 m fun s =>
    if s.ptpDomain 1 ≠ m.domain.val then s
    else s.sendPtp 1 false (s.ptpMsg 1 9 0 m.correction m.sequenceId (s.rdI 8 O.NET1_DELAY_LOG_INTERVAL) (s.rxStamp 1 m).toNat
      (m.clockId ++ beBytes 2 m.portNum))

/-- DELAY_REQ_INTERVAL_EXPIRY: a SLAVE sends Delay_Req. -/
def execDelayReqIntervalExpiry (s : State) : Res :=
  whenOk (s.ptpOn 1 && s.isSlave1 && s.netSends 1) s fun s =>
    let q := (s.net.ptp1.reqSeq + 1) % 65536
    let s := s.setPtp 1 fun p => { p with reqSeq := q, reqTime := some (s.txNow 1) }
    s.sendPtp 1 true (s.ptpMsg 1 1 0 0 q 0x7F 0 [])

/-- DELAY_RESP: the path delay of a SLAVE. -/
def execDelayResp (m : PtpMsg) (s : State) : Res :=
  whenOk (s.ptpOn 1 && s.isSlave1) s fun s => s.ptpRx 1 m fun s =>
    let p := s.net.ptp1
    match p.reqTime, p.syncT1 with
    | some t3, some (t1, t2) =>
      if p.reqSeq ≠ m.sequenceId.val ∨ p.master.map Master.clockId ≠ some m.clockId ∨ s.ptpDomain 1 ≠ m.domain.val then s
      else
        let t4 : Int := (m.timestamp : Int) - m.correction
        let d := (((t2 : Int) - t1) + (t4 - t3)) / 2
        (s.setPtp 1 fun p => { p with delay := d, reqTime := none }).put O.MEAN_PATH_DELAY_NS
          (.n ((max d 0).toNat / 65536 % 2 ^ 32))
    | _, _ => s

/-- PTP_MANAGEMENT_DISCARD (R395, R399): discarded. -/
def execPtpManagementDiscard (_port : Fin 2) (_messageType : Fin 16) (s : State) : Res := .next s

/-! ### The ports -/

/-- ARP_REQUEST (R394). -/
def execArpRequest (port : Fin 2) (senderMac : List Byte) (senderIp targetIp : Fin 4294967296) (s : State) : Res :=
  let ip := s.rd (if port = 0 then O.NET0_IPV4 else O.NET1_IPV4)
  whenOk (s.netSends port && ip != 0 && ip == targetIp.val) s fun s =>
    s.emitOut (.frame port (senderMac ++ s.mac port ++ beBytes 2 0x0806 ++ beBytes 2 1 ++ beBytes 2 0x0800 ++ beBytes 2 0x0604 ++
      beBytes 2 2 ++ s.mac port ++ beBytes 4 ip ++ senderMac ++ beBytes 4 senderIp))

/-- NEIGHBOR_SOLICITATION (R394): a neighbour advertisement answers. -/
def execNeighborSolicitation (port : Fin 2) (senderMac senderIp target : List Byte) (s : State) : Res :=
  let ip := s.rdB (if port = 0 then O.NET0_IPV6 else O.NET1_IPV6)
  whenOk (s.netSends port && ip.any (· != 0) && ip == target) s fun s =>
    let icmp := fun (c : Nat) => beBytes 2 0x8800 ++ beBytes 2 c ++ beBytes 4 0x60000000 ++ ip ++ beBytes 2 0x0201 ++ s.mac port
    let pseudo := ip ++ senderIp ++ beBytes 4 32 ++ beBytes 4 58
    let msg := icmp (inetSum (pseudo ++ icmp 0))
    s.emitOut (.frame port (senderMac ++ s.mac port ++ beBytes 2 0x86DD ++ beBytes 4 0x60000000 ++ beBytes 2 32 ++ beBytes 2 0x3AFF ++
      ip ++ senderIp ++ msg))

/-- NET0_LINK_CHANGE (R394): rates that the mode has; a link that goes down interrupts PTP (R391). -/
def execNet0LinkChange (rate : Fin 5) (s : State) : Res :=
  let m := s.rd O.NET0_MODE
  whenOk (s.ready 0x21 && (rate == 0 || (m == 1 && decide (rate.val ≤ 3)) || (m == 2 && rate == 4))) s fun s =>
    let s := s.wr O.NET0_LINK rate
    if rate = 0 then ((s.lostSource 0).setCapable false).setPtp 0 fun _ => Ptp.reset else s

/-- The write of MDIO_ACCESS with START (R394): one clause 22 operation begins. -/
def State.mdioStart (s : State) (v : Nat) : State :=
  if v.testBit 31 then
    (({ s with net := { s.net with mdio := some v } }).put O.MDIO_ACCESS (.n v)).emitOut
      (.mdio (v.testBit 30) (bits v 29 25) (bits v 24 20) (bits v 15 0))
  else s.put O.MDIO_ACCESS (.n v)

/-- MDIO_OPERATION_END (R394). -/
def execMdioOperationEnd (data : Fin 65536) (s : State) : Res := whenAlive s fun s =>
  match s.net.mdio with
  | some v =>
    let v' := clrBit v 31
    ({ s with net := { s.net with mdio := none } }).put O.MDIO_ACCESS
      (.n (if v.testBit 30 then v' / 65536 * 65536 + data else v'))
  | none => s

/-! ### PLCA (R398) -/

/-- PLCA runs as a follower. -/
def State.plcaFollows (s : State) : Bool :=
  s.on O.NET1_ENABLE && s.on O.PLCA_ENABLE && s.rd O.PLCA_NODE_ID != 0 && s.rd O.PLCA_NODE_ID != 255

/-- PLCA_STATUS after a change of the port's settings. -/
def State.showPlca (s : State) : State :=
  s.wr O.PLCA_STATUS
    (if !s.on O.NET1_ENABLE || !s.on O.PLCA_ENABLE || s.rd O.PLCA_NODE_ID == 255 then 0
     else if s.rd O.PLCA_NODE_ID = 0 then 3 else 1)

/-- PLCA_BEACON_LOSS (R398). -/
def execPlcaBeaconLoss (s : State) : Res :=
  whenOk (s.ready 0x22 && s.plcaFollows && s.rd O.PLCA_STATUS == 2) s fun s =>
    ((s.inc O.BEACON_LOSSES).wr O.PLCA_STATUS 1).lostSource 1

/-- PLCA_BEACON_SEEN (R398). -/
def execPlcaBeaconSeen (s : State) : Res :=
  whenOk (s.ready 0x22 && s.plcaFollows && s.rd O.PLCA_STATUS == 1) s fun s => s.wr O.PLCA_STATUS 2

/-- WAKE_FRAME (R400): request source 4 while the NET1 domain is retained. -/
def execWakeFrame (dest : List Byte) (etherType : Fin 65536) (payload : List Byte) (s : State) : Res :=
  whenOk (!s.domOn 58 && s.on O.NET1_WAKE_ENABLE && (dest == s.mac 1 || dest == List.replicate 6 0xFF) &&
      etherType.val == s.rd O.WAKE_ETHERTYPE && decide (8 ≤ payload.length) && payload.take 8 == s.rdB O.WAKE_PATTERN) s fun s =>
    (s.inc O.WAKE_FRAMES).wakeSource 4

/-! ### TIME_IO (R403, R404, R410) -/

/-- TIME_IO_EDGE (R404): a selected edge is captured, and in WAKE_INPUT it is request source 5. -/
def State.edge (s : State) (n : Nat) (falling : Bool) : State :=
  let t := s.tioOwner n
  let mode := s.rd (O.TIO_MODE n t)
  let on := s.domOn 63
  if 32 ≤ t ∨ !(mode == 3 || mode == 1 && on) ∨ !(s.rd (O.TIO_EDGE n t)).testBit (if falling then 1 else 0) then s
  else
    let q := nth s.net.captures n []
    let seq := nth s.net.captureSeq n 0
    let s := { s with net := { s.net with captureSeq := s.net.captureSeq.set n ((seq + 1) % 65536) } }
    let id := n + (if falling then 16 else 0) + (if on then 0 else 32) + 65536 * seq
    let s := if 16 ≤ q.length then (s.inc (O.CAPTURE_DROPS n t)).put (O.CAPTURE_OVERFLOW n t) (.n 1)
      else { s with net := { s.net with captures := s.net.captures.set n (q ++ [leBytes 4 id ++ time96Bytes s.timeNow]) } }
    if mode = 3 then s.wakeSource 5 else s

def execTimeIoEdge (n : Fin 4) (falling : Bool) (s : State) : Res := whenAlive s fun s => s.edge n falling

/-! ### Writes of the time base (R389, R390, R399) -/

/-- A slew of an offset begins, or adds to the one in progress (R389). -/
def State.timeAdjust (s : State) (v : Nat) : State := s.modTime fun x => { x with slew := x.slew + sx 64 v * 1000000000000 }

/-- TIME_SET steps the time, and ends a slew (R389). -/
def State.timeSetTo (s : State) (v : Nat) : State := (s.modTime fun x => { x with slew := 0 }).stepTime v

/-- SYNC_SOURCE takes a value: the quality of the source left is interrupted (R391). -/
def State.setSource (s : State) (v : Nat) : State :=
  if s.rd O.SYNC_SOURCE = v then s else s.holdover.put O.SYNC_SOURCE (.n v)

end Sys2Proof.Machine
end

