-- ==== Sys2Proof/Machine/Security.lean ====
section
/-!
DEFINITION. Security commands that are no dictionary writes (chapter 18): the ends of host transfers and measurements,
entropy (R437, R438), SPDM requests (R455, R456), IDE_KM (R457) and TDISP (R458-R460), and the checks of the writes of
R436, R444, R454 and R462.
-/

namespace Sys2Proof.Machine

/-! ### Ends of what Patrol and the DMA engines do -/

/-- HOST_TRANSFER_COMPLETE (R418, R440). -/
def State.transferEnds (s : State) (f q : Nat) (how : HostEnd) (data : List Byte) : State :=
  match (s.queue f q).job with
  | some j =>
    if !j.waitsHost then s
    else
      let s := match how with
        | .done => if j.opcode = 5 then s.loadFirmwareImage f q j data else s.finishTransfer f q j data
        | c => s.failTransfer f q (hostEndCause c)
      s.patrolRun
  | none => s

def execHostTransferComplete (fn : Fin 32) (q : Fin 8) (how : HostEnd) (data : List Byte) (s : State) : Res :=
  whenAlive s fun s => s.transferEnds fn q how data

/-- The aborts of a MEASURE_REQUEST (R454, Table 18.14). -/
def State.measureAborts (s : State) (t : Nat) (req : List Byte) : List Abort :=
  let a := field req 0 8
  let n := field req 8 4
  (if a % 64 ≠ 0 ∨ n % 64 ≠ 0 ∨ 268435456 < n ∨ field req 12 4 ≠ 0 ∨ !s.allocOk t a n then [.outOfRange] else []) ++
  (if s.rd (O.MEASURE_STATE t) = 1 then [.unitNotIdle] else [])

/-- An accepted MEASURE_REQUEST. -/
def State.measureBegin (s : State) (t : Nat) (req : List Byte) : State :=
  (s.setEv (O.MEASURE_STATE t) 1 0 0x2C 0).addTask (.measure t (field req 0 8) (field req 8 4))

/-- The range has been hashed (R454): the register is extended, or the request fails on a tag. -/
def State.measureEnds (s : State) (t a n : Nat) (tagFault : Bool) : State :=
  if tagFault then
    let s := s.err 0x0303 2 0x2C t (s.loc t a % 2 ^ 32) 0
    ((s.inc (O.TAG_FAULTS t)).inc O.TAG_FAULTS_ALL).setEv (O.MEASURE_STATE t) 3 0x0303 0x2C 0
  else
    let d := sha384 (s.tbytes t a n)
    let s := (s.put (O.WEIGHT_DIGEST t) (.b (sha384 (s.rdB (O.WEIGHT_DIGEST t) ++ d)))).put (O.MEASURE_LAST t) (.b d)
    (s.inc (O.WEIGHT_COUNT t)).setEv (O.MEASURE_STATE t) 2 0 0x2C 0

/-- MEASURE_COMPLETE (R454): of the measurement that Patrol performs. -/
def execMeasureComplete (tenant : Fin 32) (tagFault : Bool) (s : State) : Res :=
  whenOk (s.ready 0x2C) s fun s =>
    match s.security.tasks with
    | .measure t a n :: _ =>
      if t = tenant.val then
        ((s.measureEnds t a n tagFault).modSec fun x => { x with tasks := x.tasks.drop 1 }).patrolRun
      else s
    | _ => s

/-! ### Entropy -/

/-- The first READY since power-up (R437, R442, R446): the nonce, which is not 0, and the Patrol key are drawn, and slot 0
is admitted. -/
def State.firstEntropy (s : State) : State :=
  let s := s.put O.ENTROPY_READY_US (.n ((s.clock - s.porAt) / 1000))
  let (bs, s) := s.draw 4
  let s := s.put O.POWERUP_NONCE (.n (leNat bs % (2 ^ 32 - 1) + 1))
  let (_, s) := s.draw 64
  s.modSec fun x => { x with everReady := true, nonceDue := false }

/-- ENTROPY_READY (R437, R438): what waited for entropy goes on. -/
def execEntropyReady (s : State) : Res := whenAlive s fun s =>
  if s.entropic then s
  else
    let s := s.setEv O.ENTROPY_STATE 1 0 0x2D 0
    let s := if s.security.everReady then s else s.firstEntropy
    let st := s.rd (O.SLOT_STATE 0)
    let s := if st = 0 ∨ st = 4 then (s.setEv (O.SLOT_STATE 0) 1 0 0x2C 0).admitNow 0 else s
    s.patrolRun

/-- ENTROPY_HEALTH_FAIL (R438). -/
def execEntropyHealthFail (s : State) : Res :=
  whenAlive s fun s => (s.setEv O.ENTROPY_STATE 2 0 0x2D 0).inc O.HEALTH_FAILURES

/-- KEY_REQUEST_TIMEOUT (R438): the key request in progress fails: the draw of the nonce first, else that of Patrol's
present task. No detail of KEY_REQUEST_FAIL names a firmware load (R442), which is only counted. -/
def execKeyRequestTimeout (s : State) : Res := whenAlive s fun s =>
  let next := fun (s : State) => (s.modSec fun x => { x with tasks := x.tasks.drop 1 }).patrolRun
  if s.entropic then s
  else if s.security.nonceDue then (s.modSec fun x => { x with nonceDue := false }).keyFail 3
  else match s.security.tasks with
    | .admission t :: _ => next ((s.keyFail 1).admitFail t)
    | .exchange _ :: _ => next ((s.keyFail 2).spdmError 0x05)
    | .firmware f q :: _ =>
      if s.security.everReady then s else next ((s.inc O.KEY_REQUESTS_FAILED).failJob f q .entropyNotReady)
    | _ => s

/-! ### SPDM (R455, R456) -/

def execGetVersion (msg : List Byte) (s : State) : Res := doeCmd s fun s => s.spdmGetVersion msg
def execGetCapabilities (msg : List Byte) (s : State) : Res := doeCmd s fun s => s.spdmCapabilities msg
def execNegotiateAlgorithms (msg : List Byte) (s : State) : Res := doeCmd s fun s => s.spdmAlgorithms msg
def execGetDigests (msg : List Byte) (s : State) : Res := doeCmd s fun s => s.spdmDigests msg
def execGetCertificate (msg : List Byte) (s : State) : Res := doeCmd s fun s => s.spdmCertificate msg
def execChallenge (msg : List Byte) (s : State) : Res := doeCmd s fun s => s.spdmChallenge msg
def execGetMeasurements (session : Fin 4294967296) (msg : List Byte) (s : State) : Res :=
  doeCmd s fun s => s.spdmMeasurements session msg
def execFinish (session : Fin 4294967296) (msg : List Byte) (s : State) : Res :=
  doeCmd s fun s => s.spdmFinish session msg
def execEndSession (session : Fin 4294967296) (msg : List Byte) (s : State) : Res :=
  doeCmd s fun s => s.spdmEndSession session msg
def execSpdmHeartbeat (session : Fin 4294967296) (msg : List Byte) (s : State) : Res :=
  doeCmd s fun s => s.spdmBeat session msg
def execKeyUpdate (session : Fin 4294967296) (msg : List Byte) (s : State) : Res :=
  doeCmd s fun s => s.spdmKeyUpdate session msg

/-- KEY_EXCHANGE (R438, R455): a key request, which waits for entropy. -/
def execKeyExchange (msg : List Byte) (s : State) : Res :=
  doeCmd s fun s => s.spdmAt 0xE4 3 msg fun s =>
    match s.exchangeError msg with
    | some e => s.spdmError e
    | none => s.addTask (.exchange msg)

/-! ### IDE_KM (R457) -/

/-- A vendor-defined request in an established secured session. -/
def sessionCmd (session : Fin 4294967296) (s : State) (go : State → State) : Res :=
  doeCmd s fun s => s.withSession session true fun s _ => go s

def noStream : IdeStream := { state := 0, programmed := 0, active := 0, keys := [] }
def State.ideStream (s : State) (i : Nat) : IdeStream := nth s.security.ide i noStream
def State.modIde (s : State) (i : Nat) (g : IdeStream → IdeStream) : State :=
  (s.modSec fun x => { x with ide := modNth x.ide i g }).showIde

/-- The place of a key set, sub-stream and direction in the bitmaps of a stream. -/
def ideSlot (keySet sub : Nat) (tx : Bool) : Nat := keySet * 16 + sub * 2 + (if tx then 1 else 0)

/-- Every sub-stream of a key set is active in both directions: the stream is Secure (PRESUMED). -/
def ideFull (active keySet : Nat) : Bool := (List.range 6).all fun i => active.testBit (keySet * 16 + i)
def ideSecure (active : Nat) : Bool := ideFull active 0 || ideFull active 1

/-- QUERY: the port and the streams as they stand. -/
def execQuery (session : Fin 4294967296) (port : Fin 256) (s : State) : Res :=
  sessionCmd session s fun s =>
    s.emitOut (.spdm ([1, 0] ++ leBytes 1 port ++ (List.range 5).flatMap fun i => leBytes 1 (s.ideStream i).state))

/-- KP_ACK status of KEY_PROG: 1 for a length, 3 for a stream or sub-stream that does not exist, 4 while CRYPTO1 is not
ready, else 0. -/
def State.keyProgStatus (s : State) (stream sub : Nat) (keyIv : List Byte) : Nat :=
  if keyIv.length ≠ 40 then 1 else if 4 < stream ∨ 2 < sub then 3 else if !s.ready 0x2D then 4 else 0

/-- KEY_PROG: the key set enters CRYPTO1. -/
def execKeyProg (session : Fin 4294967296) (stream : Fin 8) (keySet : Fin 2) (subStream : Fin 8) (tx : Bool)
    (keyIv : List Byte) (s : State) : Res :=
  sessionCmd session s fun s =>
    let st := s.keyProgStatus stream subStream keyIv
    let i := ideSlot keySet subStream tx
    let s := if st ≠ 0 then s
      else s.modIde stream fun x =>
        { x with keys := kvPut i keyIv x.keys, programmed := setBit x.programmed i, active := clrBit x.active i,
                 state := if x.state = 2 ∧ ideSecure (clrBit x.active i) then 2 else 1 }
    s.emitOut (.spdm ([3, 0] ++ leBytes 1 stream ++ leBytes 1 st))

/-- K_SET_GO: the key set of a sub-stream and direction becomes active in place of the other. -/
def execKSetGo (session : Fin 4294967296) (stream : Fin 8) (keySet : Fin 2) (subStream : Fin 8) (tx : Bool)
    (s : State) : Res :=
  sessionCmd session s fun s =>
    let i := ideSlot keySet subStream tx
    let o := ideSlot (1 - keySet.val) subStream tx
    let ok : Bool := decide (stream.val ≤ 4 ∧ subStream.val ≤ 2) && (s.ideStream stream).programmed.testBit i
    let s := if !ok then s
      else s.modIde stream fun x =>
        let a := clrBit (setBit x.active i) o
        { x with active := a, state := if ideSecure a then 2 else x.state }
    s.emitOut (.spdm ([6, 0] ++ leBytes 1 stream ++ leBytes 1 (if ok then 0 else 3)))

/-- K_SET_STOP: the key set stops; a stream that leaves Secure takes its interfaces with it (R459). -/
def execKSetStop (session : Fin 4294967296) (stream : Fin 8) (keySet : Fin 2) (subStream : Fin 8) (tx : Bool)
    (s : State) : Res :=
  sessionCmd session s fun s =>
    let i := ideSlot keySet subStream tx
    let x := s.ideStream stream
    let ok : Bool := decide (stream.val ≤ 4 ∧ subStream.val ≤ 2) && x.programmed.testBit i
    let s := if !ok then s
      else
        let was := x.state = 2 ∧ !ideSecure (clrBit x.active i)
        let s := s.modIde stream fun x =>
          { x with active := clrBit x.active i, programmed := clrBit x.programmed i, keys := kvDel i x.keys }
        if was then s.ideInsecure stream false else s
    s.emitOut (.spdm ([6, 0] ++ leBytes 1 stream ++ leBytes 1 (if ok then 0 else 3)))

/-- IDE_INTEGRITY_FAIL (R457): the TLP is discarded and the stream goes to Insecure. -/
def execIdeIntegrityFail (stream : Fin 8) (s : State) : Res :=
  whenOk (decide (stream.val ≤ 4) && (s.ideStream stream).state == 2) s fun s =>
    (((s.ideInsecure stream false).inc O.IDE_INTEGRITY_ERRORS).err 0x0604 2 0x20 0xFF stream 0)

/-! ### TDISP (R458-R460) -/

/-- A TDISP response: version 1.0, its type and the interface. -/
def tdispMsg (ty fn : Nat) (rest : List Byte) : List Byte :=
  leBytes 1 0x10 ++ leBytes 1 ty ++ [0, 0] ++ leBytes 4 fn ++ List.replicate 8 0 ++ rest

/-- TDISP_ERROR with a code of TDISP 1.0. -/
def State.tdispError (s : State) (fn code : Nat) : State := s.emitOut (.spdm (tdispMsg 0x7F fn (leBytes 4 code ++ leBytes 4 0)))

/-- A request about the interface of a function that exists. -/
def tdispCmd (session : Fin 4294967296) (fn : Fin 32) (s : State) (go : State → State) : Res :=
  sessionCmd session s fun s =>
    if fn != 0 && !s.host.vfEnable then s.tdispError fn 0x0101 else go s

def execGetTdispVersion (session : Fin 4294967296) (fn : Fin 32) (s : State) : Res :=
  tdispCmd session fn s fun s => s.emitOut (.spdm (tdispMsg 0x01 fn [1, 0x10]))

/-- GET_TDISP_CAPABILITIES: what the spec does not give of them is free. -/
def execGetTdispCapabilities (session : Fin 4294967296) (fn : Fin 32) (s : State) : Res :=
  tdispCmd session fn s fun s =>
    let (caps, s) := s.freeBytes 28
    s.emitOut (.spdm (tdispMsg 0x02 fn caps))

/-- LOCK_INTERFACE_REQUEST (R458): the slot is ADMITTED and the stream that covers the function is Secure. -/
def execLockInterfaceRequest (session : Fin 4294967296) (fn : Fin 32) (stream : Fin 8) (s : State) : Res :=
  tdispCmd session fn s fun s =>
    if s.rd (O.TDI_STATE fn) ≠ 0 then s.tdispError fn 0x0004
    else if !s.admitted fn || decide (4 < stream.val) || (s.ideStream stream).state != 2 then s.tdispError fn 0x0104
    else if !s.entropic then s.tdispError fn 0x0103
    else
      let (nonce, s) := s.draw 32
      let s := s.modSec fun x => { x with tdiNonce := x.tdiNonce.set fn nonce, tdiStream := x.tdiStream.set fn stream }
      (s.wr (O.TDI_STATE fn) 1).emitOut (.spdm (tdispMsg 0x03 fn nonce))

/-- The interface report (R458): the 128 KiB BAR as one range, then the tenant record. -/
def State.tdiReport (s : State) (fn : Nat) : List Byte × State :=
  let (bar, s) := s.freeBytes 8
  let r := s.tenantRecord fn
  (List.replicate 12 0 ++ leBytes 4 1 ++ bar ++ leBytes 4 32 ++ [0, 0, 0, 0] ++ leBytes 4 r.length ++ r, s)

/-- GET_DEVICE_INTERFACE_REPORT, in portions, of a locked interface. -/
def execGetDeviceInterfaceReport (session : Fin 4294967296) (fn : Fin 32) (offset length : Fin 65536) (s : State) : Res :=
  tdispCmd session fn s fun s =>
    if !s.tdiLocked fn then s.tdispError fn 0x0004
    else
      let (r, s) := s.tdiReport fn
      if r.length ≤ offset.val then s.tdispError fn 0x0001
      else
        let n := min length.val (r.length - offset.val)
        s.emitOut (.spdm (tdispMsg 0x04 fn (leBytes 2 n ++ leBytes 2 (r.length - offset.val - n) ++ slice r offset n)))

def execGetDeviceInterfaceState (session : Fin 4294967296) (fn : Fin 32) (s : State) : Res :=
  tdispCmd session fn s fun s => s.emitOut (.spdm (tdispMsg 0x05 fn (leBytes 1 (s.rd (O.TDI_STATE fn)))))

/-- START_INTERFACE_REQUEST: a locked interface runs, against its nonce. -/
def execStartInterfaceRequest (session : Fin 4294967296) (fn : Fin 32) (nonce : List Byte) (s : State) : Res :=
  tdispCmd session fn s fun s =>
    if s.rd (O.TDI_STATE fn) ≠ 1 then s.tdispError fn 0x0004
    else if nonce ≠ nth s.security.tdiNonce fn [] then s.tdispError fn 0x0102
    else
      let s := s.modSec fun x => { x with tdiNonce := x.tdiNonce.set fn [] }
      (s.wr (O.TDI_STATE fn) 2).emitOut (.spdm (tdispMsg 0x06 fn []))

/-- STOP_INTERFACE_REQUEST (R459): back to CONFIG_UNLOCKED, out of ERROR too. -/
def execStopInterfaceRequest (session : Fin 4294967296) (fn : Fin 32) (s : State) : Res :=
  tdispCmd session fn s fun s =>
    let s := s.modSec fun x => { x with tdiNonce := x.tdiNonce.set fn [] }
    (s.wr (O.TDI_STATE fn) 0).emitOut (.spdm (tdispMsg 0x07 fn []))

/-- TDI_REJECTED_TLP (R460): Unsupported Request, and nothing but the count changes. -/
def execTdiRejectedTlp (fn : Fin 32) (s : State) : Res :=
  whenOk (s.ready 0x20 && s.rd (O.TDI_STATE fn) == 2) s fun s =>
    (s.inc O.TDI_REJECTED_TLPS).emitOut (.pcie 1 [])

/-! ### Checks of writes -/

/-- A write to SLOT_CONTROL (R444). -/
def State.slotAborts (s : State) (t v : Nat) : List Abort :=
  let empty : Bool := s.rd (O.SLOT_STATE t) == 0 || s.rd (O.SLOT_STATE t) == 4
  (if t = 0 then [.outOfRange] else []) ++ (if s.ready 0x2C && s.ready 0x2D then [] else [.notReady]) ++
  (if v = 1 && !empty || v == 2 && empty then [.unitNotIdle] else [])

/-- A debug token (R462, Table 18.13). -/
def State.tokenOk (s : State) (x : List Byte) : Bool :=
  let signer := slice x 0x40 97
  field x 0 4 == 0x5A564454 && field x 4 2 == 1 && field x 6 1 == 1 && zeros x 7 1 && zeros x 0xC 4 && zeros x 0xA1 31 &&
  sha384 signer == s.rdB (O.ROOT_HASH 2) && ecdsaVerify signer (sha384 (slice x 0 0xC0)) (slice x 0xC0 96) &&
  field x 8 4 == s.rd O.POWERUP_NONCE && slice x 0x10 48 == s.rdB O.DEVICE_ID_DIGEST

/-- An accepted debug token: the TAP is unlocked until the next power-up. -/
def State.unlockDebug (s : State) : State :=
  { s.setEv O.DEBUG_LEVEL 1 0 0x2C 0 with pins := { s.pins with tapUnlocked := true } }

end Sys2Proof.Machine
end

