-- ==== Sys2Proof/Machine/Integrity.lean ====
section
/-!
DEFINITION. Integrity (chapter 19): the rounds of known-answer tests and the picture (R466, R467, R472-R475), ECC errors
and the scrub (R476-R478, Table 19.3), soft repair (R482), and the causes and steps of a die restart (R483-R486).
-/

namespace Sys2Proof.Machine

/-! ### Rounds -/

/-- Rounds run (R472): in BASE, MID and SUMMIT, from the end of bring-up. -/
def State.roundsRun (s : State) : Bool := !s.power.bringup && decide (2 ≤ s.rd O.POWER_STATE)

/-- The cores of a Rink that are granted to a tenant and in service. -/
def State.servingCores (s : State) (t r : Nat) : List Nat :=
  ((List.range 4).map (· + 4 * r)).filter fun c => (s.rd (O.CORE_GRANT r t)).testBit (c % 4) && s.coreServes c

/-- The units of a tenant's Rink set (R467): its Rinks, and its cores in service there. -/
def State.setUnits (s : State) (t : Nat) : List Nat :=
  (s.rinkList t).flatMap fun r => (0x10 + r) :: s.servingCores t r

/-- The two conditions of R467 at the end of round `r`: no cause since it began, and every unit of the Rink set has
passed in a round that began after the last cause. -/
def State.outputClears (s : State) (t r : Nat) : Bool :=
  let cause := nth s.integrity.causeRound t 0
  decide (cause < r) && (s.setUnits t).all fun u => decide (cause + 2 ≤ nth s.integrity.lastPass u 0)

/-- OUTPUT_INVALID cleared at a boundary (R467). -/
def State.clearOutput (s : State) (r t : Nat) : State :=
  if s.on (O.OUTPUT_INVALID t) && s.outputClears t r then s.setEv (O.OUTPUT_INVALID t) 0 0x8006 0xFF 0 else s

/-- Condition 4 of R466: the cores of the picture's Rinks have passed in the round. -/
def State.pictureTested (s : State) : Bool :=
  (List.range 4).all fun r =>
    !(s.rd O.PICTURE_RINKS).testBit r || (s.servingCores 0 r).all fun c => s.integrity.passed.testBit c

/-- PICTURE_OK at a round boundary (R466): it rises only if every condition held, and falls if one does not. -/
def State.judgePicture (s : State) : State :=
  let c := s.pictureCond
  let cond := if c ≠ 0 then c else if !s.pictureTested then 4 else if s.on (O.OUTPUT_INVALID 0) then 5 else 0
  if s.rd O.PICTURE_STATE = 2 then (if cond = 0 then s else s.pictureDrop cond)
  else if cond = 0 ∧ s.integrity.picFailed = 0 then s.setEv O.PICTURE_STATE 2 0x8004 0xFF 0
  else s.wr O.PICTURE_STATE (if c = 0 then 1 else 0)

/-- FTI_ROUND_BOUNDARY (R466, R467, R472): a round ends and the next begins. -/
def execFtiRoundBoundary (s : State) : Res :=
  whenOk s.roundsRun s fun s =>
    let r := s.rd O.KAT_ROUNDS
    let s := (List.range 32).foldl (fun s t => s.clearOutput r t) (s.inc O.KAT_ROUNDS)
    s.judgePicture.roundStart

/-! ### Known-answer tests -/

/-- Units of Table 19.2. -/
def katUnit (u : Nat) : Bool := decide (u < 0x14) || u == 0x2A || u == 0x2D

/-- Live accumulators in core `c`: it holds a chunk of a chain that has begun (R473). -/
def State.accLive (s : State) (c : Nat) : Bool :=
  match (s.core c).act.bind s.activity with
  | some x => ((x.pos (c / 4)).run.map fun u => (u.claimed.any fun q => q.1 == c) && u.chains != []).getD false
  | none => false

/-- A unit's test of the round has passed; a core's record of claims starts anew (R474). -/
def State.katPass (s : State) (u : Nat) : State :=
  s.modInt fun x =>
    { x with
      tested := setBit x.tested u, passed := setBit x.passed u,
      lastPass := modNth x.lastPass u fun _ => s.rd O.KAT_ROUNDS + 1,
      claims := if u < 16 then modNth x.claims u fun _ => [] else x.claims }

/-- A unit has been tested in the round and has failed. -/
def State.katTested (s : State) (u : Nat) : State := s.modInt fun x => { x with tested := setBit x.tested u }

def State.katRecord (s : State) (u sev part : Nat) : State :=
  s.err 0x0206 sev u 0xFF part (s.rd O.KAT_ROUNDS % 2 ^ 32)

/-- The jobs that claimed a tile on a core since its last passing test (R474): those still running end with NOT_READY,
and the output of the tenants of all of them is invalid. -/
def State.katJobs (s : State) (c : Nat) : State :=
  (nth s.integrity.claims c []).foldl (fun (s : State) (e : Nat × Nat) =>
    let s := match s.activity e.1 with
      | some x => if s.jobNo x = e.2 then s.killRun e.1 .notReady else s
      | none => s
    s.outputInvalid (actTenant e.1)) s

/-- A core's test (R473-R475). -/
def State.katCore (s : State) (c : Nat) (failed retestFailed : Bool) (part : Nat) (late : Bool) : State :=
  let s := if late then (s.inc O.KAT_LATE).err 0x0207 1 c 0xFF (s.rd O.KAT_ROUNDS % 2 ^ 32) 0 else s
  let cost := 1280 + if s.accLive c then 768 else 0
  let s := s.addTo O.KAT_CYCLES (if failed then 2 * cost else cost)
  if !failed then s.katPass c
  else
    let s := (s.inc (O.CORE_KAT_FAILS c)).katJobs c
    if retestFailed then (((s.inc (O.CORE_KAT_FAILS c)).katRecord c 3 part).katTested c).loseCore c 2
    else (s.katRecord c 2 part).katPass c

/-- The crypto engines are held (R474): running jobs and the transfers through them end with NOT_READY, and every
tenant's output is invalid. -/
def State.cryptoHeld (s : State) : State :=
  let s := s.holdUnit 0x2D 0x0206
  let s := (s.compute.acts.map Prod.fst).foldl (fun s a => s.killRun a .notReady) s
  let s := (List.range 256).foldl (fun s i =>
    match (s.queue (i / 8) (i % 8)).job with
    | some j => if [2, 3, 5].contains j.opcode then s.failJob (i / 8) (i % 8) .notReady else s
    | none => s) s
  ((List.range 32).foldl State.outputInvalid s).patrolRun

/-- KAT_RUN (R472-R475): the test of a unit in the round. -/
def State.kat (s : State) (u : Nat) (failed retestFailed : Bool) (part : Nat) (late : Bool) : State :=
  if u < 0x10 then s.katCore u failed retestFailed part late
  else if !failed then s.katPass u
  else if u < 0x14 then
    (((s.inc (O.RINK_KAT_FAILS (u - 0x10))).katRecord u 2 part).katTested u).snowplough ((u - 0x10) / 2) 1 u
  else
    let k := if u = 0x2A then O.BASE_KAT_FAILS else O.CRYPTO_KAT_FAILS
    let s := s.inc k
    if retestFailed then
      let s := ((s.inc k).katRecord u 3 part).katTested u
      if u = 0x2A then s.holdForGood 0x2A 0x0206 else s.cryptoHeld
    else (s.katRecord u 2 part).katPass u

def execKatRun (u : Fin 54) (failed retestFailed : Bool) (part : Fin 7) (late : Bool) (s : State) : Res :=
  whenOk (s.roundsRun && katUnit u && s.ready u && s.unitPowered u && !s.integrity.tested.testBit u) s fun s =>
    s.kat u failed retestFailed part late

/-! ### ECC -/

/-- The unit code that counts an error (9005, 9006). -/
def eccUnit : EccPlace → Nat
  | .coreMem c _ => c
  | .lodge _ _ => 0x18
  | .rinkLine r _ _ _ => 0x10 + r
  | .rinkControl r _ => 0x10 + r
  | .historyRing _ => 0x29
  | .baseMem _ => 0x2A
  | .ioBuffer u _ => u
  | .aonControl _ => 0x34
  | .patrolStore _ => 0x2C
  | .traceBuffer _ _ => 0x18

/-- The word address of a record. -/
def eccAddr : EccPlace → Nat
  | .coreMem _ a => a
  | .lodge g a => g * 2 ^ 20 + a
  | .rinkLine _ _ a _ => a
  | .rinkControl _ a => a
  | .historyRing a => a
  | .baseMem a => a
  | .ioBuffer _ a => a
  | .aonControl a => a
  | .patrolStore a => a
  | .traceBuffer _ a => a

/-- A corrected error (R476): counted, with at most one record per unit and second. -/
def State.eccCorrected (s : State) (u addr bit : Nat) : State :=
  let s := s.inc (O.ECC_CORRECTED u)
  let recent := match kvGet u s.integrity.eccRecAt with
    | some c => decide (s.clock < c + 1000000000)
    | none => false
  if recent then s
  else (s.modInt fun x => { x with eccRecAt := kvPut u s.clock x.eccRecAt }).err 0x0301 1 u 0xFF (addr % 2 ^ 32) bit

/-- A word poisoned until it is rewritten (R477). -/
def State.poison (s : State) (key : Nat) : State := s.modInt fun x => { x with poisoned := insNat key x.poisoned }

/-- The firmware image (from 0) whose place in segment 1 holds an offset (Table 18.4), if it is installed there. -/
def State.imageAt (s : State) (a : Nat) : Option Nat :=
  let k := if a < 0x80000 then 0 else if a < 0xC0000 then 1 else 2
  let base := if k = 0 then 0 else if k = 1 then 0x80000 else 0xC0000
  match nth s.security.images k none with
  | some x => if a - base < x.body.length then some k else none
  | none => none

/-- An installed image is lost (Table 19.3): absent in 8003, the result basis follows, and running jobs end. -/
def State.imageLost (s : State) (k : Nat) : State :=
  let s := (s.modSec fun x => { x with images := x.images.set k none }).wr (O.FW_STATE k) 0
  let s := s.firmwareSet.pollRcc
  (s.compute.acts.map Prod.fst).foldl (fun s a => s.killRun a .notReady) s

/-- The owner of a Lodge segment, and the address of an offset in it. -/
def State.segmentAddr (s : State) (g a : Nat) : Option (Nat × Nat) :=
  let t := s.rd (O.LODGE_SEG_OWNER g)
  if t < 32 then some (t, lodgeBase + (s.segments t).idxOf g * 2 ^ 20 + a) else none

/-- A LOAD_FIRMWARE in progress ends with cause 6 of Table 18.5 (Table 19.3). -/
def State.stagingLost (s : State) : State :=
  (List.range 8).foldl (fun s q =>
    match (s.queue 0 q).job with
    | some j =>
      if j.opcode = 5 then
        let s := s.err 0x0601 0 0x2C 0xFF 6 j.arg0
        (s.setEv O.FW_LAST_REJECT 6 0x0601 0x2C 0).failJob 0 q .integrityFault
      else s
    | none => s) s

/-- The frame in flight in the inline ISP is dropped (Table 19.3). -/
def State.ispDrop (s : State) : State :=
  let i := s.rd O.INLINE_INPUT
  match (s.cam i).frame with
  | some f => if i < 16 ∧ f.fate ≠ .dropped then (s.modFrame i fun f => { f with fate := .dropped }).inc (O.FRAMES_DROPPED i) else s
  | none => s

/-- The severity of an uncorrectable error (Table 19.3). -/
def eccSeverity : EccPlace → Nat
  | .lodge g a => if g = 1 then 3 else if g = 0 ∧ 0x80400 ≤ a then 4 else 2
  | .rinkLine _ _ _ dirty => if dirty then 2 else 1
  | .aonControl _ => 4
  | .patrolStore _ => 4
  | _ => 2

/-- The reaction to an uncorrectable error that the scrub finds (Table 19.3). -/
def State.eccReact (s : State) : EccPlace → State
  | .coreMem c a =>
    let s := s.poison (poisonCore c a)
    match (s.core c).holds with
    | some t => s.outputInvalid t
    | none => s
  | .lodge g a =>
    if g.val = 0 then (if a < 0x80400 then (s.poison (poisonPatrol 0 a)).stagingLost else s.safeState 7 0x18)
    else if g.val = 1 then
      match s.imageAt a with
      | some k => s.imageLost k
      | none => s.poison (poisonPatrol 1 a)
    else match s.segmentAddr g a with
      | some (t, at') => (s.poison (poisonTen t at')).outputInvalid t
      | none => s
  | .rinkLine r t a dirty =>
    if dirty then
      let s := s.modRink r fun x => { x with poison := insNat (tkey t a / 8) x.poison }
      let s := (s.killRun t .integrityFault).killRun (t + 32) .integrityFault
      s.outputInvalid t
    else s
  | .rinkControl r _ => s.snowplough (r / 2) 5 (0x10 + r)
  | .historyRing _ => s.ringReset
  | .baseMem _ => (s.unitResetNow 0x2A).bistClear 0x2A
  | .ioBuffer u _ => if u.val = 0x25 then s.ispDrop else s
  | .aonControl _ => s.safeState 8 0xFF
  | .patrolStore _ => s.safeState 7 0x2C
  | .traceBuffer n _ => s.modSec fun x =>
      { x with trace := if (kvGet n.val x.trace).isSome then kvPut n.val (List.replicate 16 0) x.trace else x.trace }

/-- An error found by the scrub (R476, R477). -/
def State.eccFound (s : State) (p : EccPlace) (correctable : Bool) (bit : Nat) : State :=
  if correctable then s.eccCorrected (eccUnit p) (eccAddr p) bit
  else
    let s := s.inc (O.ECC_UNCORRECTABLE (eccUnit p))
    let t := match p with
      | .coreMem c _ => ((s.core c).holds).getD 0xFF
      | .lodge g _ => let o := s.rd (O.LODGE_SEG_OWNER g); if o < 32 then o else 0xFF
      | .rinkLine _ t _ _ => t.val
      | _ => 0xFF
    (s.err 0x0302 (eccSeverity p) (eccUnit p) t (eccAddr p % 2 ^ 32) 0).eccReact p

/-- SCRUB_STEP (R476-R478): what the Groomer finds in the words it reads, and the end of a pass. Only On domains are
scrubbed. -/
def execScrubStep (found : Option EccPlace) (correctable : Bool) (bit : Fin 72) (passComplete : Bool) (s : State) : Res :=
  whenAlive s fun s =>
    let s := if passComplete then s.inc O.SCRUB_PASSES else s
    match found with
    | some p => if s.unitPowered (eccUnit p) then s.eccFound p correctable bit else s
    | none => s

/-! ### Soft repair -/

/-- Rows of a repair block (DESIGN CHOICE, as `blocksOf`). -/
def rowsOf (u : Nat) : Nat := if u < 0x10 then 16 else if u < 0x14 then 32 else if u = 0x18 then 64 else 16

/-- An entry of Table 19.6 that R482 refuses. -/
def entryBad (e : List Byte) : Bool :=
  let (u, b, col, i) := entryOf e
  decide (2 ≤ field e 1 1) || field e 6 2 != 0 ||
  !(decide (u < 0x14) || u == 0x18 || u == 0x29 || u == 0x2A) ||
  decide (blocksOf u ≤ b) || decide ((if col then 8 else rowsOf u) ≤ i)

/-- A write to SOFT_REPAIR_ADD (R482). -/
def State.softRepairAborts (s : State) (bs : List Byte) : List Abort :=
  let es := chunksOf 8 bs
  if es.any entryBad || decide (512 < s.integrity.entries.length + es.length) then [.outOfRange] else []

/-- The entries are taken, and applied where their unit is READY. -/
def State.softRepairAdd (s : State) (bs : List Byte) : State :=
  let first := s.integrity.entries.length
  let s := s.modInt fun x => { x with entries := x.entries ++ chunksOf 8 bs }
  let s := s.put O.SOFT_REPAIR_ENTRIES (.n s.integrity.entries.length)
  allUnits.foldl (fun s u => if s.ready u then s.applyEntries u first else s) s

/-! ### Die restarts -/

/-- A die has a Rink that is On: its control cores run and its links carry traffic. -/
def State.dieOn (s : State) (d : Nat) : Bool := s.rinkOn (2 * d) || s.rinkOn (2 * d + 1)

/-- RCC_WATCHDOG_EXPIRY (R483, cause 2). -/
def execRccWatchdogExpiry (rink : Fin 4) (s : State) : Res :=
  whenOk (s.ready (0x10 + rink)) s fun s => s.snowplough (rink / 2) 2 (0x10 + rink)

/-- D2D_LINK_FAULT (R483, cause 3). -/
def execD2dLinkFault (die : Fin 2) (s : State) : Res :=
  whenOk (s.dieOn die && !s.power.bringup) s fun s => s.snowplough die 3 0xFF

/-- Steps K2 and K3 (Table 19.8): the restart reset is asserted once the die has cooled where it must (cause 6), and
the die's contents are lost; at its release the Rink PLLs lock. -/
def State.dieReset (s : State) (d : Nat) (released : Bool) : State :=
  let plls := [10 + 2 * d, 11 + 2 * d]
  if released then
    if s.rd (O.DIE_STATE d) = 3 then
      s.lockPlls ((plls.filter fun p => s.rinkOn (p - 10)).foldl setBit (s.rd O.PLL_LOCKED))
    else s
  else if s.rd (O.DIE_STATE d) = 2 ∧ !(s.lim d).waitCool then
    ((s.lockPlls (plls.foldl clrBit (s.rd O.PLL_LOCKED))).wr (O.DIE_STATE d) 3).dieLose d
  else s

/-- DIE_RESTART_RESET (R484, R485). -/
def execDieRestartReset (die : Fin 2) (released : Bool) (s : State) : Res := whenAlive s fun s => s.dieReset die released

/-- Steps K5 and K6 (Table 19.8): contexts are formed again from CORE_GRANT, and the die is NORMAL, with SNOWPLOUGH_EXIT,
once its cores and Rinks have set READY or HELD. -/
def State.dieExit (s : State) (d : Nat) : State :=
  let s := (s.inc (O.DIE_RESTARTS d)).put (O.DIE_STATE d) (.n 1)
  let s := (List.range 64).foldl (fun s i => s.refreshContext (i % 32) (2 * d + i / 32)) s
  (s.refreshAllRinks.event (O.DIE_STATE d) 0x8002 0xFF 0).checkPicture

/-- SNOWPLOUGH_EXIT (R484). -/
def execSnowploughExit (die : Fin 2) (s : State) : Res :=
  whenOk (s.rd (O.DIE_STATE die) == 3 &&
      (dieUnits die).all fun u => s.ready u || s.held u || !s.unitPowered u) s fun s => s.dieExit die

/-- PATROL_WATCHDOG_EXPIRY (R488, cause 7). -/
def execPatrolWatchdogExpiry (s : State) : Res := whenOk (s.unitPowered 0x2C) s fun s => s.safeState 7 0x2C

end Sys2Proof.Machine
end

