-- ==== Sys2Proof/Machine/Reads.lean ====
section
/-!
DEFINITION. What a READ returns: the objects that are views of hardware state (R22), the clock domains (R100, R101,
Table 4.3), the log entries that a reader may see (R55) and the queues whose read is destructive (R401, R410).
-/

namespace Sys2Proof.Machine

/-! ### Clock domains -/

/-- The unit that a clock domain serves (Table 4.3); none for the clocks of the always-on island and JTAG. -/
def clockUnit (d : Nat) : Option Nat :=
  if d < 16 then some d
  else if d < 20 then some (0x10 + (d - 16))
  else if d < 24 then some (0x10 + (d - 20))
  else if d = 24 then some 0x18
  else if d < 29 then some (0x19 + (d - 25))
  else if d < 33 then some (0x19 + (d - 29))
  else if d = 33 ∨ d = 34 then some 0x20
  else if d = 35 ∨ d = 36 then some 0x21
  else if d = 37 then some 0x22
  else if d = 38 ∨ d = 39 then some (0x23 + (d - 38))
  else if d = 40 ∨ d = 41 then some (0x25 + (d - 40))
  else if d = 42 ∨ d = 43 then some 0x27
  else if d = 44 ∨ d = 45 then some 0x28
  else if d = 46 then some 0x2B
  else if d = 47 then some 0x2C
  else if d = 48 then some 0x2D
  else if d = 49 ∨ d = 50 ∨ d = 56 then some 0x2E
  else if d = 53 then some 0x2A
  else if d = 57 then some 0x2F
  else none

/-- The PLL that a clock domain comes from (Tables 4.2 and 4.3). -/
def clockPll (d : Nat) : Option Nat :=
  if d < 16 then some (10 + d / 4)
  else if d < 20 then some (10 + (d - 16))
  else if d < 25 then some 0
  else if d < 29 then some (4 + (d - 25))
  else if d < 33 then some (4 + (d - 29))
  else if d = 33 ∨ d = 34 then some 8
  else if d = 35 then some 9
  else if d = 37 ∨ d = 40 ∨ d = 41 then some 1
  else if d = 43 then some 2
  else if (46 ≤ d ∧ d ≤ 50) ∨ d = 56 ∨ d = 57 then some 0
  else none

/-- The state is MID or SUMMIT, or a transition or bring-up runs (R101): the reference and PLL_REG serve. -/
def State.fullClocks (s : State) : Bool := decide (3 ≤ s.rd O.POWER_STATE)

/-- DOMAIN_STATE (2102): 0 off, 1 gated, 2 running, 3 held. DEDUCED where Table 4.3 leaves the unit open. -/
def State.clockState (s : State) (d : Nat) : Nat :=
  if d = 51 ∨ d = 58 ∨ d = 59 then 2
  else if d = 52 ∨ d = 54 then (if 2 ≤ s.rd O.POWER_STATE then 2 else 1)
  else if d = 55 then 1
  else match clockUnit d with
    | none => 1
    | some u =>
      if s.held u then 3
      else if !s.unitPowered u then
        if (unitDomains u).any fun p => s.rd (O.DOMAIN_POWER p) == 1 then 1 else 0
      else if d = 53 ∧ !s.base.started then 1
      else match clockPll d with
        | some p => if (s.rd O.PLL_LOCKED).testBit p then 2 else 1
        | none => if s.ready u then 2 else 1

/-- DOMAIN_FREQ (2101) in kHz, to the nearest kHz, of a domain that runs (Table 4.3). -/
def State.clockKhz (s : State) (d : Nat) : Nat :=
  if s.clockState d ≠ 2 then 0
  else if d < 16 then 1000 * s.freqNow (d / 4)
  else if d < 20 then 1000 * s.freqNow (d - 16)
  else if d < 24 then 2000000
  else if 25 ≤ d ∧ d < 29 then 533312
  else if 29 ≤ d ∧ d < 33 then 4266500
  else match d with
    | 24 | 33 | 48 | 50 | 56 => 1000000
    | 34 => 800000
    | 35 | 36 => if s.rd O.NET0_MODE = 2 then 312500 else 125000
    | 37 => 50000
    | 38 | 39 => s.rd (O.LANE_RATE_MBPS (d - 38)) * 1000 / 8
    | 40 => 600000
    | 41 | 47 | 49 => 400000
    | 42 => if (List.range 8).any fun c => (s.ch c).full then 3072 else 960
    | 43 => 49152
    | 44 | 45 => 256 * rateKhz (s.rd (O.TDM_RATE (d - 44)))
    | 46 => 250000
    | 51 => 33
    | 52 | 54 => 48000
    | 53 => 48000 / 2 ^ (Config.baseDivider % 4)
    | 57 => 500000
    | 58 => if s.fullClocks then 19200 else 24000
    | 59 => if s.fullClocks then 500000 else 48000
    | _ => 0

/-! ### Cores, Rinks and memory -/

/-- The tile at the front of a core's claims waits for a stream ERT (CORE_STATE 4). -/
def State.coreStalled (s : State) (c : Nat) : Bool :=
  match (s.core c).act with
  | none => false
  | some a =>
    match s.activity a, s.claimsOf c with
    | some x, t :: _ =>
      match (x.pos (c / 4)).run with
      | some u =>
        let cx := s.progCtx x.prog a c
        match cx.planOf u.idx with
        | some p => !s.streamReady a (c / 4) u cx p t
        | none => false
      | none => false
    | _, _ => false

/-- CORE_STATE (6000). -/
def State.coreState (s : State) (c : Nat) : Nat :=
  if s.held c then 6
  else if s.rd (O.CORE_SERVICE c) = 0 then 7
  else if !s.coreOn c then s.rd (O.DOMAIN_POWER (11 * (c / 4) + c % 4)) % 2
  else if (s.core c).target.isSome then 5
  else if s.claimsOf c = [] then 2
  else if s.coreStalled c then 4 else 3

/-- RINK_STATE (6010). -/
def State.rinkState (s : State) (r : Nat) : Nat :=
  if s.held (0x10 + r) then 3 else s.rd (O.DOMAIN_POWER (11 * r + 10)) % 3

/-- The first tenant for which `p` holds, 0xFF if none. -/
def firstTenant (p : Nat → Bool) : Nat := ((List.range 32).find? p).getD 0xFF

/-- CHANNEL_STATE (7001). -/
def State.channelState (s : State) (c : Nat) : Nat :=
  if s.held (0x19 + c / 4) then 3
  else if s.channelActive c then 2
  else if s.rd (O.DOMAIN_POWER (52 + c / 4)) = 0 then 0 else 1

/-- DOMAIN_POWER as read: 3 where a unit of the domain is HELD (2204). -/
def State.domainPower (s : State) (d : Nat) : Nat :=
  if d < 76 ∧ allUnits.any (fun u => s.held u && (unitDomains u).contains d) then 3 else s.rd (O.DOMAIN_POWER d)

/-- A set of numbers below `n` as a bitmap. -/
def bitsWhere (n : Nat) (p : Nat → Bool) : Nat := (List.range n).foldl (fun v i => if p i then v + 2 ^ i else v) 0

/-- The trace ring as 8040.02 shows it (R465): 4,096 records of 16 B. -/
def State.traceBytes (s : State) : List Byte :=
  ((List.range 4096).map fun i => (kvGet i s.security.trace).getD (List.replicate 16 0)).flatten

/-! ### Values -/

/-- Objects measured by the monitor (Table 3.8): no command brings their present value. -/
def measuredObj (idx sub : Nat) : Bool :=
  idx == 0x2000 || ((idx == 0x2010 || idx == 0x2011 || idx == 0x2012) && (sub == 1 || sub == 2)) ||
  (idx == 0x2021 && sub == 3) || idx == 0x2022

/-- The value of an object that is a view of hardware state (R22); none for one that is stored. -/
def State.viewOf (s : State) (k : Nat) : Option Val :=
  let i := keyIdx k
  let n := keySub k
  let t := keyTen k
  let num := fun (v : Nat) => some (Val.n v)
  if i < 0x2100 then
    (if i = 0x1000 ∧ n = 0x0A then num ((s.clock - s.porAt) % 2 ^ 64) else none)
  else if i < 0x3000 then
    match i with
    | 0x2101 => num (s.clockKhz (n - 1))
    | 0x2102 => num (s.clockState (n - 1))
    | 0x2104 => num (s.freqNow (n - 1))
    | 0x2200 => if n = 3 then num ((if s.power.prewake then 1 else 0) + (if s.power.trans.isSome then 2 else 0)) else none
    | 0x2204 => num (s.domainPower (n - 1))
    | _ => none
  else if i < 0x5000 then
    match i with
    | 0x3000 =>
      if n = 1 then num s.timeNow else if n = 2 then num (s.timeNow % 2 ^ 64)
      else if n = 5 then num (toU 32 s.time.rho) else none
    | 0x3010 => if n = 0x0A then some (.b (s.net.txts0.headD [])) else none
    | 0x3020 => if n = 0x14 then some (.b (s.net.txts1.headD [])) else none
    | _ =>
      if 0x3100 ≤ i ∧ i ≤ 0x3103 then
        if s.tioOwner (i - 0x3100) ≠ t then some (dictDefault s.fuses k)
        else if n = 8 then some (.b ((nth s.net.captures (i - 0x3100) []).headD []))
        else none
      else none
  else if i < 0x6000 then
    (if i = 0x5000 ∧ n = 4 then num s.mpLoad
     else if (i = 0x5001 ∨ i = 0x5002) ∧ n = 5 then num (s.rxState (i - 0x5001))
     else if 0x5010 ≤ i ∧ i ≤ 0x501F ∧ n = 0x10 then num (s.inputState (i - 0x5010))
     else none)
  else if i < 0x8000 then
    match i with
    | 0x6000 => num (s.coreState (n - 1))
    | 0x6001 => num (match (s.core (n - 1)).act with
      | some a => actTenant a
      | none => 0xFF)
    | 0x6010 => num (s.rinkState (n - 1))
    | 0x6011 => num ((s.rink (n - 1)).ctx.filter Option.isSome).length
    | 0x6020 | 0x6021 | 0x6022 | 0x6023 =>
      num (firstTenant fun u => (s.rd (O.WAY_GRANT (i - 0x6020) u)).testBit (n - 1))
    | 0x6030 | 0x6031 | 0x6032 | 0x6033 =>
      let r := i - 0x6030
      if n ≤ 4 then num ((nth (s.rink r).ctx (n - 1) none).getD 0xFF)
      else if n ≤ 8 then
        match nth (s.rink r).ctx (n - 5) none with
        | some u => num (bitsWhere 4 fun c => (s.tenantCores u).contains (4 * r + c))
        | none => num 0
      else none
    | 0x6050 => if n = 1 then num (bitsWhere 16 fun c => (s.tenantCores t).contains c) else none
    | 0x6206 => num (firstTenant fun u => s.on (O.LC_PERMITTED u) && (s.grantedCores u).contains (n - 1))
    | 0x6210 => num ((s.core (n - 1)).act.getD 0xFF)
    | 0x6320 => num (s.reserveTotal (n - 1))
    | 0x7001 => num (s.channelState (n - 1))
    | 0x7002 => num (firstTenant fun u => (s.rd (O.CHANNEL_GRANT u)).testBit (n - 1))
    | 0x7004 => num (if n = 1 then s.dramBytes t else if n = 2 then s.lodgeBytes t else s.rd (O.CHANNEL_GRANT t))
    | _ => none
  else if i = 0x8040 ∧ n = 2 then some (.b s.traceBytes)
  else if i = 0x9013 ∧ n = 3 then num (popCount 512 s.integrity.applied)
  else if 0xA000 ≤ i ∧ i ≤ 0xA05F ∧ s.streamOwner (i - 0xA000) ≠ t then some (dictDefault s.fuses k)
  else none

/-- The highest subindex of an index (R15). -/
def highestSub (idx : Nat) : Nat :=
  objTable.foldl (fun m r => if r.idxLo ≤ idx ∧ idx ≤ r.idxHi then max m r.subHi else m) 0

/-- The value tenant `w` reads of an object: subindex 0 holds the highest subindex (R15), error records of other
tenants read as zero (R55), and a measured value is free once the monitor has been ready. -/
def State.readVal (s : State) (w k : Nat) : Val × State :=
  let i := keyIdx k
  let n := keySub k
  if n = 0 then (.n (highestSub i), s)
  else if measuredObj i n then
    if s.everReady.testBit 0x33 then
      let (v, s) := s.freeVal (keyBits k)
      (.n v, s)
    else (.n 0, s)
  else if i = 0x1021 then
    let bs := s.rdB k
    if w = 0 ∨ field bs 0x10 1 = w then (.b bs, { s with errRead := setBit s.errRead (n - 1) })
    else (.b (List.replicate 32 0), s)
  else if i = 0x9011 then (s.val k, s.modInt fun x => { x with failRead := setBit x.failRead (n - 1) })
  else ((s.viewOf k).getD (s.val k), s)

/-- What a READ removes (R401, R410): the oldest transmit timestamp or capture. -/
def State.popQueue (s : State) (k : Nat) : State :=
  let i := keyIdx k
  let net := fun (g : Net → Net) => { s with net := g s.net }
  if i = 0x3010 ∧ keySub k = 0x0A then net fun x => { x with txts0 := x.txts0.drop 1 }
  else if i = 0x3020 ∧ keySub k = 0x14 then net fun x => { x with txts1 := x.txts1.drop 1 }
  else if 0x3100 ≤ i ∧ i ≤ 0x3103 ∧ keySub k = 8 ∧ s.tioOwner (i - 0x3100) = keyTen k then
    net fun x => { x with captures := modNth x.captures (i - 0x3100) fun q => q.drop 1 }
  else s

end Sys2Proof.Machine
end

