-- ==== Sys2Proof/Machine/Writes.lean ====
section
/-!
DEFINITION. What a write of each object is refused for beyond its type and range, and what an accepted one does: the
objects of chapters 1 to 13 and 19. One write is one `WReq`; the checks answer every abort that applies, and R30 picks.
-/

namespace Sys2Proof.Machine

/-- A write of one object: the endpoint, the requesting tenant, the object and the value (R19, R38). -/
structure WReq where
  ep : Nat
  w : Nat
  k : Nat
  v : Val
deriving DecidableEq, Repr

def WReq.idx (r : WReq) : Nat := keyIdx r.k
def WReq.sub (r : WReq) : Nat := keySub r.k
def WReq.ten (r : WReq) : Nat := keyTen r.k

/-- The number written; of bytes, the little-endian number. -/
def WReq.num (r : WReq) : Nat :=
  match r.v with
  | .n v => v
  | .b bs => leNat bs

/-- The bytes written to a DOMAIN. -/
def WReq.bytes (r : WReq) : List Byte :=
  match r.v with
  | .n _ => []
  | .b bs => bs

/-- One abort under a condition. -/
def denyIf (c : Bool) (a : Abort) : List Abort := if c then [a] else []

/-- An object takes its value; a later write replaces an unmet request (R23). -/
def State.store (s : State) (r : WReq) : State :=
  let s := s.put r.k r.v
  { s with mismatch := setMem r.k false s.mismatch }

/-- As `store`, with MISMATCH while `late` holds (R23, R136). -/
def State.storeLate (s : State) (r : WReq) (late : Bool) : State := (s.store r).setMismatch r.k late

/-! ### Chapter 1 -/

/-- The writes of a session slot (R18, R42, Table 1.15). -/
def State.sessionAborts (s : State) (r : WReq) (n : Nat) : List Abort :=
  if r.sub = 5 then
    denyIf (r.ep != 0) .tenantDenied ++
    denyIf (s.rd (O.SESSION_PORTS n) == 0 || s.rd (O.SESSION_PEER n) == 0) .notConfigured
  else if r.sub = 8 then []
  else denyIf (s.rd (O.SESSION_STATE n) == 2) .unitNotIdle

/-- A session key is written (R42): PROVISIONED, both counters 0, nothing accepted or kept under the new key. -/
def State.provision (s : State) (n : Nat) (key : List Byte) : State :=
  let s := (s.endSubs (32 + n)).modEp (32 + n) fun x => { x with overflow := false, queue := [] }
  let s := { s with sessions := s.sessions.set n { key, window := [], kept := [] } }
  ((s.put (O.SESSION_TX_COUNTER n) (.n 0)).put (O.SESSION_RX_COUNTER n) (.n 0)).wr (O.SESSION_STATE n) 1

def State.aborts1 (s : State) (r : WReq) : List Abort :=
  if r.idx = 0x1018 then denyIf (r.num != s.rd O.CONFIG_GENERATION) .outOfRange
  else if r.idx = 0x1102 then denyIf (decide (32 ≤ r.ep)) .tenantDenied
  else if 0x1110 ≤ r.idx ∧ r.idx ≤ 0x111F then s.sessionAborts r (r.idx - 0x1110)
  else []

def State.apply1 (s : State) (r : WReq) : State :=
  if r.idx = 0x1018 then (s.wr O.CONFIG_STATE 2).pollStatus
  else if r.idx = 0x1101 then (List.range 16).foldl (fun s n => s.pump (32 + n)) (s.store r)
  else if 0x1110 ≤ r.idx ∧ r.idx ≤ 0x111F ∧ r.sub = 5 then s.provision (r.idx - 0x1110) r.bytes
  else if 0x1110 ≤ r.idx ∧ r.idx ≤ 0x111F ∧ r.sub = 8 then s.discardSession (r.idx - 0x1110)
  else s.store r

/-! ### Chapters 3 to 5 -/

/-- The unit code charged for a host write over an endpoint (Table 5.3). -/
def hostUnit (e : Nat) : Nat := if e = 48 then 0x34 else 0x20

/-- The Base lift is armed in some instance of BASE_PROGRAM (R131). -/
def State.baseArmed (s : State) : Bool := (List.range 32).any fun t => s.rd (O.BASE_PROGRAM t) != 0xFFFFFFFF

/-- The measured bytes of a lift's image (R133, R453). -/
def State.liftImage (s : State) (mid : Bool) (addr n : Nat) : List Byte :=
  if mid then (List.range n).map fun i => s.cbyte s.midCoreNo (addr + i) else s.bbytes addr n

/-- A lift program named by its header passes the checks of R133 and R134. -/
def State.liftOk (s : State) (mid : Bool) (addr : Nat) : Bool :=
  match s.liftProg mid addr with
  | some g => (s.liftCtx mid g).liftBad.isNone
  | none => false

/-- The record that a refused arming writes (R133, R198, R188): of the instruction that fails. -/
def State.armRecord (s : State) (mid : Bool) (addr : Nat) : State :=
  match s.liftProg mid addr with
  | some g =>
    match (s.liftCtx mid g).liftBad with
    | some (b, i) => s.liftReject mid b none i
    | none => s
  | none => s

/-- A lift is armed or disarmed (R133, R134): an accepted arming is measured into its tenant's program log. -/
def State.arm (s : State) (r : WReq) (mid : Bool) : State :=
  match s.liftProg mid r.num with
  | some g => (s.store r).logProgram r.ten (sha384 (s.liftImage mid r.num g.measured))
  | none => s.store r

/-- The writes of the Base engine's objects (R131-R133). DEDUCED: a program is checked for its owner alone, once the
engine has been ready. -/
def State.baseAborts (s : State) (r : WReq) : List Abort :=
  if r.sub = 1 then denyIf s.baseArmed .unitNotIdle
  else if r.ten ≠ s.rd O.BASE_TENANT then [.notOwned]
  else if r.sub = 2 then denyIf (r.num != 0xFFFFFFFF && s.everReady.testBit 0x2A && !s.liftOk false r.num) .outOfRange
  else if r.sub = 4 then
    denyIf (s.rd (O.BASE_PROGRAM r.ten) != 0xFFFFFFFF) .unitNotIdle ++
    denyIf (decide (0xEFFF8 < s.rd (O.BASE_LOAD_OFFSET r.ten) + r.bytes.length)) .outOfRange
  else []

/-- The writes of MID_PROGRAM (R134), checked for its owner while the Mid core can be read. -/
def State.midAborts (s : State) (r : WReq) : List Abort :=
  if r.ten ≠ s.rd O.MID_TENANT then [.notOwned]
  else denyIf (r.num != 0xFFFFFFFF && s.ready s.midCoreNo && !s.liftOk true r.num) .outOfRange

/-- A pending target written by the host (R117, R126). -/
def State.hostTarget (s : State) (r : WReq) : State :=
  let s := s.record 13 0 (hostUnit r.ep)
  let s := { s with mismatch := setMem O.POWER_STATE false (setMem O.TARGET_STATE false s.mismatch) }
  let s := if 3 ≤ r.num then s.makeFirm (hostUnit r.ep) 0 else s
  let s := s.setTarget r.num 13 (hostUnit r.ep) 0
  if 3 ≤ r.num then s.tryMid else s

/-- A Rink's frequency, or a die's setpoint, lies outside a bound just written (R136). -/
def State.envelopeLate (s : State) (r : WReq) : Bool :=
  let f := s.rd (O.RINK_FREQ (r.sub - 1))
  let x := s.lim (r.sub - 1)
  let mv := x.setpointMv
  match r.idx with
  | 0x2230 => f != 0 && decide (f < r.num)
  | 0x2231 => decide (r.num < f)
  | 0x2232 => decide (mv < r.num)
  | _ => decide (r.num < mv)

def State.aborts2 (s : State) (r : WReq) : List Abort :=
  let n := r.sub - 1
  match r.idx with
  | 0x2110 => denyIf (s.unitBusy r.num) .unitNotIdle
  | 0x2201 =>
    denyIf ((r.sub == 1 || r.sub == 2 || r.sub == 4 || r.sub == 5) && (s.power.midRun || s.rd O.POWER_STATE == 3))
      .unitNotIdle
  | 0x2205 => s.baseAborts r
  | 0x2206 => s.midAborts r
  | 0x2230 => denyIf (decide (s.rd (O.FREQ_MAX_MHZ n) < r.num)) .outOfRange
  | 0x2231 => denyIf (decide (r.num < s.rd (O.FREQ_MIN_MHZ n))) .outOfRange
  | 0x2232 => denyIf (decide (s.rd (O.VCORE_MAX_MV n) < r.num)) .outOfRange
  | 0x2233 => denyIf (decide (r.num < s.rd (O.VCORE_MIN_MV n))) .outOfRange
  | 0x2235 => denyIf (decide ((if s.fuses.extended then 115 else 105) < sx 16 r.num)) .outOfRange
  | _ => []

def State.apply2 (s : State) (r : WReq) : State :=
  match r.idx with
  | 0x2020 => s.storeLate r (decide (r.num < s.rd (O.DIE_POWER_MW (r.sub - 1))))
  | 0x2110 => s.unitResetNow r.num
  | 0x2200 => s.hostTarget r
  | 0x2201 => if r.sub = 3 then (s.store r).applyDie (s.rd O.MID_RINK / 2) else s.store r
  | 0x2205 =>
    if r.sub = 1 then
      let s' := s.store r
      if s.rd O.BASE_TENANT = r.num then s' else { s' with bmem := [] }
    else if r.sub = 2 then s.arm r false
    else if r.sub = 4 then
      let o := s.rd (O.BASE_LOAD_OFFSET r.ten)
      (s.bput o r.bytes).put (O.BASE_LOAD_OFFSET r.ten) (.n (o + r.bytes.length))
    else s.store r
  | 0x2206 => s.arm r true
  | 0x2230 | 0x2231 | 0x2232 | 0x2233 => s.storeLate r (s.envelopeLate r)
  | _ => s.store r

/-! ### Chapters 6, 7, 12 and 13 -/

/-- The grants and shares that only tenant 0 writes, and those that a locked interface freezes (R319, R459). -/
def State.grantDenied (s : State) (r : WReq) : List Abort :=
  denyIf (r.w != 0) .tenantDenied ++
  denyIf (s.tdiLocked r.ten && (r.idx == 0x6201 || r.idx == 0x6203 || r.idx == 0x6204 ||
    (r.idx == 0x6202 && r.sub != 2))) .tenantDenied

/-- A core serves an activity, or is switching to one (R160). -/
def State.coreBusy (s : State) (c : Nat) : Bool :=
  (s.core c).act.isSome || (match (s.core c).target with
    | some (some _) => true
    | _ => false)

def State.aborts6 (s : State) (r : WReq) : List Abort :=
  let n := r.sub - 1
  let t := r.ten
  match r.idx with
  | 0x6002 => denyIf (s.coreBusy n) .unitNotIdle
  | 0x6102 =>
    if r.sub = 1 then s.tableAborts t r.num (s.rd (O.TABLE_SIZE t)) else s.tableAborts t (s.rd (O.TABLE_BASE t)) r.num
  | 0x6201 => s.grantDenied r ++ s.coreGrantAborts t n r.num
  | 0x6202 =>
    s.grantDenied r ++
    (match r.sub with
     | 1 => s.lcPermittedAborts t r.num
     | 3 => s.saveAborts t r.num (s.rd (O.SAVE_SIZE t))
     | 4 => s.saveAborts t (s.rd (O.SAVE_BASE t)) r.num
     | _ => [])
  | 0x6203 => s.grantDenied r ++ s.wayGrantAborts t n r.num
  | 0x6204 => s.grantDenied r ++ s.channelAborts t r.num
  | 0x6310 | 0x6311 | 0x6312 => s.grantDenied r ++ s.shareAborts t (r.idx - 0x6310) n r.num
  | _ => []

def State.apply6 (s : State) (r : WReq) : State :=
  let n := r.sub - 1
  match r.idx with
  | 0x6201 => s.setCoreGrant r.ten n r.num
  | 0x6203 => s.setWays r.ten n r.num
  | 0x6204 => s.setChannels r.ten r.num
  | 0x6310 | 0x6311 | 0x6312 => s.setShare r.k r.num
  | _ => s.store r

def State.aborts7 (s : State) (r : WReq) : List Abort :=
  let n := r.sub - 1
  match r.idx with
  | 0x7003 => s.lodgeAborts n r.num
  | 0x7008 =>
    if r.sub = 1 then denyIf (decide (s.rd O.REFRESH_MAX < r.num)) .outOfRange
    else denyIf (decide (r.num < s.rd O.REFRESH_MIN)) .outOfRange
  | 0x7010 => s.windowAborts r.ten n r.num
  | _ => []

/-- Some active channel's refresh code lies outside a bound just written (R136, R312). -/
def State.refreshLate (s : State) (r : WReq) : Bool :=
  (List.range 16).any fun c => s.channelActive c &&
    (if r.sub = 1 then decide (s.rd (O.REFRESH_CODE c) < r.num) else decide (r.num < s.rd (O.REFRESH_CODE c)))

def State.apply7 (s : State) (r : WReq) : State :=
  match r.idx with
  | 0x7003 => s.setSegment (r.sub - 1) r.num
  | 0x7008 => s.storeLate r (s.refreshLate r)
  | _ => s.store r

/-! ### Chapter 19 -/

def State.aborts9 (s : State) (r : WReq) : List Abort :=
  if r.idx = 0x9013 then denyIf (r.bytes.length % 8 != 0) .typeMismatch ++ s.softRepairAborts r.bytes else []

def State.apply9 (s : State) (r : WReq) : State :=
  match r.idx with
  | 0x9013 => s.softRepairAdd r.bytes
  | 0x9020 => (s.store r).checkPicture
  | 0x9030 => s.snowplough r.num 7 0xFF
  | _ => s.store r

end Sys2Proof.Machine
end

