-- ==== Sys2Proof/Machine/Writes2.lean ====
section
/-!
DEFINITION. What a write of each object is refused for and what it does, continued: the objects of chapters 14 to 18.
-/

namespace Sys2Proof.Machine

/-! ### Chapter 14 -/

/-- Some enabled stream context takes an endpoint for which `p` holds as its source, or a handover runs. -/
def State.sourceBusy (s : State) (p : Nat → Bool) : Bool :=
  s.audio.ring.handover.isSome ||
  (List.range 96).any fun k => s.strEnabled k && p (s.rd (O.STR_SOURCE k (s.streamOwner k)))

/-- An ADC channel's endpoint (Table 17.6). -/
def adcEndpoint (c e : Nat) : Bool := e == 0x3000 + c

/-- A handover of tenant `t` is in progress. -/
def State.handingOver (s : State) (t : Nat) : Bool := s.audio.ring.handover.map Handover.tenant == some t

/-- The writes of HANDOVER_CONTROL (R351, R354). -/
def State.handoverAborts (s : State) (r : WReq) : List Abort :=
  let t := r.ten
  let k := s.rd (O.HANDOVER_STREAM t)
  if r.num = 2 then denyIf (!s.handingOver t) .notOwned
  else
    denyIf (s.rd O.RING_CONSUMER_CLAIM != t || decide (96 ≤ k) || s.rd (O.STREAM_CLAIM k) != t) .notOwned ++
    denyIf (s.audio.ring.latch.isNone || s.audio.ring.handover.isSome || !s.ready 0x2F) .notReady ++
    denyIf (s.rd (O.STR_SOURCE k t) != 0x6000) .notConfigured

/-- The slots of a port that tenant `t` owns, as a bitmap (R359). -/
def State.ownSlots (s : State) (port t : Nat) : Nat := bitsWhere 8 fun n => s.rd (slotClaim port n) == t

def State.aborts4 (s : State) (r : WReq) : List Abort :=
  let n := r.sub - 1
  match r.idx with
  | 0x4000 =>
    denyIf (decide (4 ≤ n) && r.num == 2) .outOfRange ++ denyIf (s.sourceBusy (adcEndpoint n)) .unitNotIdle
  | 0x4001 | 0x4002 => denyIf (s.sourceBusy (adcEndpoint n)) .unitNotIdle
  | 0x4005 | 0x4006 => denyIf (s.sourceBusy fun e => e / 4096 == 3) .unitNotIdle
  | 0x4010 =>
    if r.sub = 4 then denyIf (decide (s.rdI 16 O.THRESH_MAX < sx 16 r.num)) .outOfRange
    else if r.sub = 5 then denyIf (decide (sx 16 r.num < s.rdI 16 O.THRESH_MIN)) .outOfRange
    else []
  | 0x4020 =>
    denyIf (decide (r.sub ≤ 2) && (s.audio.ring.latch.isSome || s.audio.ring.handover.isSome)) .unitNotIdle
  | 0x4021 =>
    denyIf (r.w != r.ten) .tenantDenied ++
    (if r.sub = 1 then denyIf (s.handingOver r.ten) .unitNotIdle else s.handoverAborts r)
  | 0x4030 =>
    let p := n % 2
    denyIf ((List.range 32).any fun t => s.rd (O.TDM_RX_SLOTS p t) != 0 || s.rd (O.TDM_TX_SLOTS p t) != 0) .unitNotIdle
  | 0x4031 =>
    denyIf (r.w != r.ten) .tenantDenied ++
    denyIf (Nat.land r.num (255 - s.ownSlots (n % 2) r.ten) != 0) .notOwned
  | _ => []

/-- Some comparator's threshold lies outside a bound just written (R136, R344). -/
def State.thresholdLate (s : State) (r : WReq) : Bool :=
  (List.range 4).any fun c => s.compOn c &&
    (if r.sub = 4 then decide (s.rdI 16 (O.COMP_THRESH c) < sx 16 r.num)
     else decide (sx 16 r.num < s.rdI 16 (O.COMP_THRESH c)))

def State.apply4 (s : State) (r : WReq) : State :=
  let n := r.sub - 1
  match r.idx with
  | 0x4000 =>
    let was := s.rd (O.CH_MODE n)
    let s := s.store r
    let s := if r.num = 2 ∧ was ≠ 2 then s.modCh n fun x => { x with blocks := [] } else s
    s.refreshBias.refreshEstimator
  | 0x4001 => (s.store r).refreshBias
  | 0x4010 =>
    if r.sub = 1 then (s.store r).refreshEstimator
    else if r.sub = 4 ∨ r.sub = 5 then s.storeLate r (s.thresholdLate r)
    else s.store r
  | 0x4020 => if r.sub ≤ 2 then (s.store r).ringReset else s.store r
  | 0x4021 => if r.sub = 1 then s.store r else if r.num = 1 then s.startHandover r.ten else s.endHandover 1
  | 0x4030 => if r.sub ≤ 2 then (s.store r).wr (O.TDM_LOCKED n) (if r.num = 2 then 1 else 0) else s.store r
  | _ => s.store r

/-! ### Chapter 15 -/

/-- Some input of a camera port is enabled. -/
def State.portOn (s : State) (p : Nat) : Bool := (List.range 8).any fun j => s.camOn (8 * p + j)

/-- AE_REGS with a length or a flag out of range (R385). -/
def aeRegsBad (bs : List Byte) : Bool :=
  !decide (1 ≤ field bs 4 1 ∧ field bs 4 1 ≤ 4) || !decide (1 ≤ field bs 5 1 ∧ field bs 5 1 ≤ 2) ||
  decide (1 < field bs 6 1) || field bs 7 1 != 0

/-- The writes of an input's DEV objects. -/
def State.inputAborts (s : State) (r : WReq) (i : Nat) : List Abort :=
  let rwi : Bool := decide (r.sub ≤ 6) || r.sub == 0x0C || r.sub == 0x11 || r.sub == 0x17
  denyIf (rwi && s.camOn i) .unitNotIdle ++
  (match r.sub with
   | 0x0A => denyIf (decide (2 ^ typeBits (s.rd (O.DATA_TYPE i)) ≤ r.num)) .outOfRange
   | 0x13 => denyIf (decide (s.rd (O.EXP_MAX i) < r.num)) .outOfRange
   | 0x14 => denyIf (decide (r.num < s.rd (O.EXP_MIN i))) .outOfRange
   | 0x15 => denyIf (decide (s.rd (O.GAIN_MAX i) < r.num)) .outOfRange
   | 0x16 => denyIf (decide (r.num < s.rd (O.GAIN_MIN i))) .outOfRange
   | 0x17 => denyIf (aeRegsBad r.bytes) .outOfRange
   | 0x1A => denyIf (ispParamsBad r.bytes) .outOfRange
   | _ => [])

/-- The writes of an input's owned objects (Table 15.8). -/
def State.ownedAborts (s : State) (r : WReq) (i : Nat) : List Abort :=
  match r.sub with
  | 0x01 => s.camEnableAborts i r.ten r.w r.num
  | 0x0B => s.camCommitAborts i r.ten r.w
  | 0x0E => s.pushAborts i r.ten r.w r.bytes
  | _ => denyIf (!(r.w == 0 || r.w == s.rd (O.CAM_OWNER i))) .notOwned

def State.aborts5 (s : State) (r : WReq) : List Abort :=
  if r.idx = 0x5000 then
    denyIf ([s.rd O.INLINE_INPUT, r.num].any fun i => decide (i < 16) && s.camOn i) .unitNotIdle
  else if r.idx = 0x5001 ∨ r.idx = 0x5002 then denyIf (s.portOn (r.idx - 0x5001)) .unitNotIdle
  else if r.idx ≤ 0x501F then s.inputAborts r (r.idx - 0x5010)
  else s.ownedAborts r (r.idx - 0x5020)

/-- OWNER takes a value: the output sets and the settings of the former owner are dropped (DEDUCED). -/
def State.setCamOwner (s : State) (r : WReq) (i : Nat) : State :=
  if s.rd (O.CAM_OWNER i) = r.num then s.store r
  else (s.store r).modCam i fun c => { c with active := none, pending := none, queue := [] }

def State.apply5 (s : State) (r : WReq) : State :=
  if r.idx < 0x5010 then s.store r
  else if r.idx ≤ 0x501F then
    let i := r.idx - 0x5010
    if r.sub = 1 then s.setCamOwner r i
    else if 0x13 ≤ r.sub ∧ r.sub ≤ 0x16 then (s.store r).aeMismatch i
    else s.store r
  else
    let i := r.idx - 0x5020
    match r.sub with
    | 0x01 => s.camEnable i r.ten r.num
    | 0x0B => s.camCommit i r.ten
    | 0x0E => s.pushEntry i r.bytes
    | _ => s.store r

/-! ### Chapter 16 -/

/-- An enabled stream context uses a network port, as its source or a sink. -/
def State.portStreams (s : State) (port : Nat) : Bool :=
  (List.range 96).any fun k => s.strEnabled k &&
    ([s.rd (O.STR_SOURCE k (s.streamOwner k)), (s.stream k).active.sink].any fun e => e / 4096 == 7 + port)

/-- A port is in use for R18 (R394-R399): its PTP or UDP transport, or a stream. -/
def State.portBusy (s : State) (port : Nat) (ptp : Bool) : Bool :=
  ptp || (s.rd O.UDP_ENABLE).testBit port || s.portStreams port

def State.aborts3 (s : State) (r : WReq) : List Abort :=
  let i := r.idx
  if i = 0x3000 then denyIf (s.rd O.SYNC_SOURCE != 0) .unitNotIdle
  else if i = 0x3001 then denyIf (r.sub == 1 && r.num == 2 && s.rd O.NET1_PTP_ROLE == 2) .outOfRange
  else if i = 0x3010 then
    let rwi : Bool := r.sub == 1 || decide (3 ≤ r.sub ∧ r.sub ≤ 6) || r.sub == 0x0D || r.sub == 0x0E
    denyIf (rwi && s.portBusy 0 (s.on O.NET0_PTP && !(r.sub == 0x0D && r.num == 0))) .unitNotIdle ++
    denyIf (r.sub == 9 && bits r.num 19 16 != 0) .outOfRange
  else if i = 0x3020 then
    denyIf (r.sub == 0x0D && r.num == 2 && s.rd O.SYNC_SOURCE == 2) .outOfRange ++
    denyIf (decide (r.sub ≤ 0x0F) && s.portBusy 1 (s.on O.NET1_PTP_ROLE && !(r.sub == 0x0D && r.num == 0))) .unitNotIdle
  else if 0x3100 ≤ i ∧ i ≤ 0x3103 then
    let n := i - 0x3100
    if r.sub = 1 then s.tioAborts n r.ten r.w r.num
    else denyIf (decide (r.sub ≤ 7) && s.rd (O.TIO_MODE n r.ten) != 0) .unitNotIdle
  else if 0x3110 ≤ i ∧ i ≤ 0x3117 ∧ r.sub = 1 then s.trigAborts (i - 0x3110) r.ten r.w r.num
  else []

/-- A port's PTP is switched (R394, R399): what it was doing ends, and its quality is interrupted if it served it. -/
def State.switchPtp (s : State) (r : WReq) (port : Nat) : State :=
  let s := (s.store r).setPtp port fun _ => Ptp.reset
  if r.num = 0 then (let s := s.lostSource port; if port = 0 then s.setCapable false else s) else s

def State.apply3 (s : State) (r : WReq) : State :=
  let i := r.idx
  if i = 0x3000 then
    match r.sub with
    | 3 => s.timeSetTo r.num
    | 4 => s.timeAdjust r.num
    | _ => (s.store r).modTime fun x => { x with rho := sx 32 r.num }
  else if i = 0x3001 then (if r.sub = 1 then s.setSource r.num else s.store r)
  else if i = 0x3010 then
    match r.sub with
    | 0x01 => (s.store r).wr O.NET0_LINK 0
    | 0x09 => s.mdioStart r.num
    | 0x0D => s.switchPtp r 0
    | _ => s.store r
  else if i = 0x3020 then
    if r.sub = 0x0D then s.switchPtp r 1
    else if r.sub ≤ 0x0C then (s.store r).showPlca
    else s.store r
  else if 0x3100 ≤ i ∧ i ≤ 0x3103 ∧ r.sub = 1 then s.setTio (i - 0x3100) r.ten r.num
  else if 0x3110 ≤ i ∧ i ≤ 0x3117 then
    let n := i - 0x3110
    match r.sub with
    | 1 => s.setTrig n r.ten r.num
    | 2 | 3 => if s.armed n = some r.ten then (s.store r).armNow n else s.store r
    | _ => s.store r
  else s.store r

/-! ### Chapter 17 -/

def State.abortsHost (s : State) (r : WReq) : List Abort :=
  let i := r.idx
  if 0x7110 ≤ i ∧ i ≤ 0x7117 then
    let q := i - 0x7110
    if r.sub = 1 then s.qEnableAborts r.ten q r.num else denyIf (s.rd (O.Q_ENABLE q r.ten) != 0) .unitNotIdle
  else if i = 0x7120 then s.commitAborts r.ten
  else if 0xA000 ≤ i ∧ i ≤ 0xA05F then
    let k := i - 0xA000
    let on := s.rd (O.STR_ENABLE k r.ten) == 1
    match r.sub with
    | 1 => if r.num = 1 then s.enableAborts k r.ten r.w else []
    | 2 | 4 | 5 => denyIf on .unitNotIdle
    | 0x0B => denyIf on .unitNotIdle ++ denyIf (field r.bytes 4 4 != 0) .outOfRange
    | _ => []
  else []

def State.applyHost (s : State) (r : WReq) : State :=
  let i := r.idx
  if 0x7110 ≤ i ∧ i ≤ 0x7117 ∧ r.sub = 1 then s.setQueue r.ten (i - 0x7110) r.num
  else if i = 0x7120 then s.commitStreams r.ten
  else if 0xA000 ≤ i ∧ i ≤ 0xA05F ∧ r.sub = 1 then
    if r.num = 1 then s.enableStream (i - 0xA000) r.ten else s.disableStream (i - 0xA000) r.ten
  else s.store r

/-! ### Chapter 18 -/

def State.aborts8 (s : State) (r : WReq) : List Abort :=
  match r.idx with
  | 0x8002 => denyIf (!Config.certChainOk r.bytes) .outOfRange
  | 0x8010 => denyIf (!s.tokenOk r.bytes) .outOfRange
  | 0x8020 => denyIf (r.w != r.ten) .tenantDenied
  | 0x8021 => s.measureAborts r.ten r.bytes
  | i => if 0xB000 ≤ i ∧ i ≤ 0xB01F then s.slotAborts (i - 0xB000) r.num else []

def State.apply8 (s : State) (r : WReq) : State :=
  match r.idx with
  | 0x8010 => s.unlockDebug
  | 0x8020 => s.setConsent r.ten (r.sub == 2) r.num
  | 0x8021 => s.measureBegin r.ten r.bytes
  | i =>
    if 0xB000 ≤ i ∧ i ≤ 0xB01F then (if r.num = 1 then s.beginAdmission (i - 0xB000) else s.removeTenant (i - 0xB000))
    else s.store r

/-! ### Any object -/

/-- The aborts of a write that depend on the object and the state. -/
def State.objAborts (s : State) (r : WReq) : List Abort :=
  let i := r.idx
  if i < 0x2000 then s.aborts1 r
  else if i < 0x3000 then s.aborts2 r
  else if i < 0x4000 then s.aborts3 r
  else if i < 0x5000 then s.aborts4 r
  else if i < 0x6000 then s.aborts5 r
  else if i < 0x7000 then s.aborts6 r
  else if i < 0x7100 then s.aborts7 r
  else if i < 0x8000 then s.abortsHost r
  else if i < 0x9000 then s.aborts8 r
  else if i < 0xA000 then s.aborts9 r
  else if i < 0xB000 then s.abortsHost r
  else s.aborts8 r

/-- The effect of an accepted write. -/
def State.objApply (s : State) (r : WReq) : State :=
  let i := r.idx
  if i < 0x2000 then s.apply1 r
  else if i < 0x3000 then s.apply2 r
  else if i < 0x4000 then s.apply3 r
  else if i < 0x5000 then s.apply4 r
  else if i < 0x6000 then s.apply5 r
  else if i < 0x7000 then s.apply6 r
  else if i < 0x7100 then s.apply7 r
  else if i < 0x8000 then s.applyHost r
  else if i < 0x9000 then s.apply8 r
  else if i < 0xA000 then s.apply9 r
  else if i < 0xB000 then s.applyHost r
  else s.apply8 r

end Sys2Proof.Machine
end

