-- ==== Sys2Proof/Machine/Flags.lean ====
section
/-!
DEFINITION. The flags of NYP: those of the message header (Table 1.6), of the event record (Table 1.9) and of the SPI
status byte (R39).
-/

namespace Sys2Proof.Machine

/-! ### Header flags (Table 1.6) -/

def fResponse : Nat := 1
def fAbort : Nat := 2
def fMore : Nat := 4
def fMismatch : Nat := 8
def fReplayed : Nat := 16

/-- FLAGS of a request: only MORE may be set, and only in a WRITE_BLOCK (R28). -/
def flagsBad (op flags : Nat) : Bool := flags != 0 && !(flags == fMore && op == 3)

/-- FLAGS of the response that resends a kept one (R34). -/
def replayFlags (flags : Nat) : Nat := if flags.testBit 4 then flags else flags + fReplayed

/-! ### Event record flags (Table 1.9) -/

def eTentative : Nat := 1
def eRetracted : Nat := 2
def eEarly : Nat := 4
def eLate : Nat := 8
def eMismatch : Nat := 16
def eBreach : Nat := 32
def eOverflow : Nat := 64

/-! ### SPI (R39) -/

/-- The status byte of READ_STATUS. -/
def Spi.status (x : Spi) (events : Bool) : Nat :=
  (if x.response.isSome then 1 else 0) + (if events then 2 else 0) + (if x.busy then 4 else 0) + (if x.crcError then 8 else 0)

/-- SB_IRQ_N is held low: RESPONSE_READY or EVENT_READY is set. -/
def State.sbIrqLow (s : State) : Bool := s.spi.response.isSome || (s.ep 48).queue != []

end Sys2Proof.Machine
end

