-- ==== Sys2Proof/Machine/Operands.lean ====
section
/-!
DEFINITION. The operands of NYP requests: the message and its header (R27, R28, Table 1.5), the payload of each operation
(Table 1.7), the object a request names (R15, R16, R19, R20) and values in their type encoding (R17, Table 1.1).
-/

namespace Sys2Proof.Machine

/-! ### Messages -/

/-- A request as received: the fields of Table 1.5 and the payload. `tb` is the whole byte of TENANT. -/
structure Req where
  version : Nat
  op : Nat
  flags : Nat
  tb : Nat
  session : Nat
  seq : Nat
  idx : Nat
  sub : Nat
  count : Nat
  len : Nat
  status : Nat
  payload : List Byte
deriving DecidableEq, Repr

/-- The instance addressed. -/
def Req.tenant (q : Req) : Nat := q.tb % 32

/-- A request with its header as an operand; the command names the operation. -/
def Req.ofHdr (op : Nat) (h : NypHdr) (payload : List Byte) : Req :=
  { version := h.version, op, flags := h.flags, tb := h.tenantByte, session := h.session, seq := h.seq, idx := h.index,
    sub := h.sub, count := h.count, len := h.length, status := h.status, payload }

/-- A request from the bytes of a message; a header cut short has version 0, which R28 refuses. -/
def Req.parse (bs : List Byte) : Req :=
  { version := if bs.length < 16 then 0 else field bs 0 1 / 16, op := field bs 0 1 % 16, flags := field bs 1 1,
    tb := field bs 2 1, session := field bs 3 1, seq := field bs 4 2, idx := field bs 6 2, sub := field bs 8 1,
    count := field bs 9 1, len := field bs 0xA 2, status := field bs 0xC 4, payload := bs.drop 16 }

/-- The bytes of a request. -/
def Req.bytes (q : Req) : List Byte :=
  leBytes 1 (16 * q.version + q.op) ++ leBytes 1 q.flags ++ leBytes 1 q.tb ++ leBytes 1 q.session ++ leBytes 2 q.seq ++
  leBytes 2 q.idx ++ leBytes 1 q.sub ++ leBytes 1 q.count ++ leBytes 2 q.len ++ leBytes 4 q.status ++ q.payload

/-- The payload has the form of Table 1.7. DEDUCED: a block operation names one subindex. -/
def Req.payloadOk (q : Req) : Bool :=
  let n := q.payload.length
  match q.op with
  | 0 | 5 | 7 | 9 => n == 0
  | 2 => n == 8 && q.count == 1
  | 3 => decide (8 ≤ n) && q.count == 1
  | 4 => n == 4
  | 8 => n == 1 && decide (field q.payload 0 1 ≤ 1)
  | 0xA => n == 1 && decide (1 ≤ field q.payload 0 1 ∧ field q.payload 0 1 ≤ 3)
  | _ => true

/-- The request is malformed (R28, Table 1.7); `net` says that it came over a network session. -/
def Req.bad (q : Req) (net : Bool) : Bool :=
  q.version != 1 || q.op == 6 || decide (0xB ≤ q.op) || q.count == 0 || decide (1024 < q.len) ||
  q.len != q.payload.length || decide (32 ≤ q.tb) || flagsBad q.op q.flags || q.status != 0 ||
  (!net && (q.session != 0 || q.op == 0xA)) || !q.payloadOk

/-- What a response says beside what it echoes: flags, STATUS, SUBINDEX and payload. -/
structure Answer where
  flags : Nat
  status : Nat
  sub : Nat
  body : List Byte
deriving DecidableEq, Repr

def Answer.ok (q : Req) (body : List Byte) : Answer := { flags := fResponse, status := 0, sub := q.sub, body }
def Answer.abort (a : Abort) (sub : Nat) : Answer := { flags := fResponse + fAbort, status := a.code, sub, body := [] }

/-- The response message. -/
def Req.reply (q : Req) (a : Answer) : List Byte :=
  nypHeader q.op a.flags q.tenant q.session q.seq q.idx a.sub q.count a.body.length a.status ++ a.body

/-! ### Objects -/

/-- The index has objects (R16). -/
def idxExists (idx : Nat) : Bool := objTable.any fun r => decide (r.idxLo ≤ idx ∧ idx ≤ r.idxHi)

/-- The row of an object; subindex 0 holds the highest subindex as an RO U8 in the scope of its index (R15). -/
def objInfo (idx sub : Nat) : Option ObjRow :=
  if sub = 0 then
    (objTable.find? fun r => decide (r.idxLo ≤ idx ∧ idx ≤ r.idxHi) && r.scope != .pat).map fun r =>
      orow idx idx 0 0 .u8 .ro r.scope (.num 0) [] .none true
  else objRow idx sub

/-- A name that no object has (R16). -/
def nameAbort (idx : Nat) : Abort := if idxExists idx then .noSubindex else .noObject

/-- The key of the instance addressed. -/
def instKey (r : ObjRow) (idx sub tenant : Nat) : Nat := okey idx sub (if r.scope = .ten then tenant else 0)

/-- Access by scope (R19, R20, Table 1.3): `w` requests, `tenant` is addressed. -/
def scopeAborts (r : ObjRow) (w tenant : Nat) (isWrite : Bool) : List Abort :=
  match r.scope with
  | .dev => denyIf (tenant != w || (isWrite && w != 0)) .tenantDenied
  | .ten => denyIf (w != 0 && tenant != w) .tenantDenied
  | .pat => [.tenantDenied]

/-- The access code refuses a WRITE (Table 1.2). -/
def ObjRow.writeAborts (r : ObjRow) : List Abort :=
  match r.acc with
  | .ro | .ev => [.readOnly]
  | _ => []

/-! ### Values -/

/-- VSTR or DOMAIN. -/
def Ty.blob : Ty → Bool
  | .vstr | .dom _ _ => true
  | _ => false

def Ty.signed : Ty → Bool
  | .i8 | .i16 | .i32 | .i64 => true
  | _ => false

/-- A payload of `n` bytes fits the type (R17). -/
def Ty.lenOk (t : Ty) (n : Nat) : Bool :=
  match t with
  | .vstr => decide (n ≤ 255)
  | .dom lo hi => decide (lo ≤ n ∧ n ≤ hi)
  | t => t.width == some n

/-- A number lies in one of the segments of an object's range. -/
def inSegs (segs : List (Int × Int × Int)) (i : Int) : Bool :=
  segs.any fun g => decide (g.1 ≤ i ∧ i ≤ g.2.1) && (i - g.1) % g.2.2 == 0

/-- Bytes of the right length lie in the object's range (R17, Table 1.1). -/
def ObjRow.rangeOk (r : ObjRow) (bs : List Byte) : Bool :=
  match r.ty with
  | .vstr | .dom _ _ => true
  | .time96 => (time96Of bs).isSome
  | t =>
    let n := leNat bs
    let i : Int := if t.signed then sx (8 * bs.length) n else (n : Int)
    (t != .bool || decide (n ≤ 1)) && (r.segs.isEmpty || inSegs r.segs i)

/-- The value that bytes encode. -/
def ObjRow.valOf (r : ObjRow) (bs : List Byte) : Val :=
  match r.ty with
  | .vstr | .dom _ _ => .b bs
  | .time96 => .n ((time96Of bs).getD 0)
  | _ => .n (leNat bs)

end Sys2Proof.Machine
end

