-- ==== Sys2Proof/Machine/Nyp.lean ====
section
/-!
DEFINITION. The dictionary engine: the operations of NYP (R23-R36, R45, R46, R49-R54, Table 1.7) and their checks in the
order of R30.
-/

namespace Sys2Proof.Machine

/-- A refused request changes nothing. -/
def State.refuse (s : State) (a : Abort) (sub : Nat) : Answer × State := (Answer.abort a sub, s)

/-! ### READ -/

/-- The aborts of reading one subindex. -/
def readAborts (w : Nat) (q : Req) (sub : Nat) : List Abort :=
  match objInfo q.idx sub with
  | none => [nameAbort q.idx]
  | some r => scopeAborts r w q.tenant false ++ denyIf (r.acc == .wo) .writeOnly

/-- The subindices a request names. -/
def Req.subs (q : Req) : List Nat := (List.range q.count).map (q.sub + ·)

/-- COUNT above 1 names a VSTR or DOMAIN object (R29). -/
def Req.manyBlobs (q : Req) : Bool :=
  decide (1 < q.count) && q.subs.any fun n => ((objInfo q.idx n).map fun r => r.ty.blob).getD false

/-- One subindex read: its bytes join those before it; a destructive read takes its entry. -/
def State.readOne (w : Nat) (q : Req) (x : List Byte × State) (sub : Nat) : List Byte × State :=
  match objInfo q.idx sub with
  | none => x
  | some r =>
    let k := instKey r q.idx sub q.tenant
    let (v, s) := x.2.readVal w k
    (x.1 ++ encodeVal r.ty v, s.popQueue k)

/-- An object of the request is in mismatch (R23). -/
def State.reqMismatch (s : State) (q : Req) : Bool :=
  q.subs.any fun n => match objInfo q.idx n with
    | some r => s.mismatch.contains (instKey r q.idx n q.tenant)
    | none => false

/-- READ (R29). DEDUCED: with several failing subindices the code is the first of R30. -/
def State.doRead (s : State) (w : Nat) (q : Req) (extra : List Abort) : Answer × State :=
  if q.manyBlobs then s.refuse .badMessage q.sub
  else match firstAbort (extra ++ q.subs.flatMap (readAborts w q)) with
  | some a => s.refuse a q.sub
  | none =>
    let (body, s') := q.subs.foldl (State.readOne w q) ([], s)
    if 1024 < body.length then s.refuse .badMessage q.sub
    else ({ Answer.ok q body with flags := fResponse + (if s.reqMismatch q then fMismatch else 0) }, s')

/-! ### WRITE -/

/-- A unit takes a write (R24, R53): it is ready, or the always-on control serves the object while the domain has left
On after the unit has once been ready. -/
def State.gateOpen (s : State) (r : ObjRow) (u : Nat) : Bool :=
  u == 0xFF || s.ready u || (r.everyState && !s.held u && s.everReady.testBit u && !s.unitPowered u)

/-- Another endpoint writes the object by blocks (R32). -/
def State.lockedBy (s : State) (k e : Nat) : Bool := s.blocks.any fun b => b.key == k && b.ep != e

/-- The aborts of a write that need no value: scope, access, unit, block transfer (R17-R20, R24, R32, R53). -/
def State.formAborts (s : State) (e w : Nat) (r : ObjRow) (k tenant : Nat) : List Abort :=
  scopeAborts r w tenant true ++ r.writeAborts ++
  denyIf (r.acc == .wpu && s.written.contains k) .alreadyWritten ++
  denyIf (!s.gateOpen r (s.objUnit k)) .notReady ++ denyIf (s.lockedBy k e) .busy

/-- The aborts of a value (R17), and those the object's chapter gives. A wrong length leaves no value to check. -/
def State.valueAborts (s : State) (e w : Nat) (r : ObjRow) (k : Nat) (bs : List Byte) : List Abort :=
  if !r.ty.lenOk bs.length then [.typeMismatch]
  else denyIf (!r.rangeOk bs) .outOfRange ++ s.objAborts { ep := e, w, k, v := r.valOf bs }

/-- A successful write counts (R54); the declaration itself does not. -/
def State.countWrite (s : State) (r : ObjRow) (k : Nat) : State :=
  if r.scope = .dev ∧ k ≠ O.CONFIG_DECLARE then
    let s := s.inc O.CONFIG_GENERATION
    if s.rd O.CONFIG_STATE = 0 then s.wr O.CONFIG_STATE 1 else s
  else s

/-- An accepted write of one object. -/
def State.accept (s : State) (e w : Nat) (r : ObjRow) (k : Nat) (bs : List Byte) : State :=
  let s := s.objApply { ep := e, w, k, v := r.valOf bs }
  let s := if r.acc = .wpu then { s with written := insNat k s.written } else s
  s.countWrite r k

/-- One object written, or the abort that refuses it. -/
def State.writeOne (s : State) (e w : Nat) (r : ObjRow) (k tenant : Nat) (bs : List Byte) (extra : List Abort) :
    Except Abort State :=
  match firstAbort (extra ++ s.formAborts e w r k tenant ++ s.valueAborts e w r k bs) with
  | some a => .error a
  | none => .ok (s.accept e w r k bs)

/-- A refused arming of a lift leaves its record (R133, R134). -/
def State.noteRefusal (s : State) (q : Req) (a : Abort) (bs : List Byte) : State :=
  let addr := leNat bs
  if a = .outOfRange ∧ bs.length = 4 ∧ addr % 64 = 0 then
    if q.idx = 0x2205 ∧ q.sub = 2 ∧ q.tenant = s.rd O.BASE_TENANT ∧ s.everReady.testBit 0x2A then s.armRecord false addr
    else if q.idx = 0x2206 ∧ q.sub = 1 ∧ q.tenant = s.rd O.MID_TENANT ∧ s.ready s.midCoreNo then s.armRecord true addr
    else s
  else s

/-- `n` subindices from `sub` written in order (R29), each checked on the state its predecessors leave (DEDUCED); the
first that fails, with its abort. -/
def State.writeSubs (e w : Nat) (q : Req) (extra : List Abort) :
    Nat → Nat → List Byte → State → Except (Abort × Nat) State
  | 0, _, _, s => .ok s
  | n + 1, sub, bs, s =>
    match objInfo q.idx sub with
    | none => .error ((firstAbort (extra ++ [nameAbort q.idx])).getD .noSubindex, sub)
    | some r =>
      let len := if n = 0 then bs.length else r.ty.width.getD bs.length
      match s.writeOne e w r (instKey r q.idx sub q.tenant) q.tenant (bs.take len) extra with
      | .error a => .error (a, sub)
      | .ok s => State.writeSubs e w q extra n (sub + 1) (bs.drop len) s

/-- WRITE (R29): all of the subindices or none. -/
def State.doWrite (s : State) (e w : Nat) (q : Req) (extra : List Abort) : Answer × State :=
  if q.manyBlobs then s.refuse .badMessage q.sub
  else match State.writeSubs e w q extra q.count q.sub q.payload s with
  | .ok s' => (Answer.ok q [], s')
  | .error (a, sub) => (Answer.abort a sub, s.noteRefusal q a q.payload)

/-! ### Block transfers -/

/-- The most data a segment carries. -/
def segMax : Nat := 1016

/-- A block write of an endpoint to an object ends, applied or not. -/
def State.dropXfer (s : State) (k e : Nat) : State :=
  { s with blocks := s.blocks.filter fun b => !(b.key == k && b.ep == e) }

/-- The segment does not follow those before it (R32). -/
def segBad (cur : Option BlockXfer) (off total n : Nat) (more : Bool) : Bool :=
  (off != 0 && !((cur.map fun b => b.bytes.length == off && b.total == total).getD false)) ||
  decide (total < off + n) || more != decide (off + n < total)

/-- WRITE_BLOCK (R32): the whole block takes effect with its last segment. -/
def State.doWriteBlock (s : State) (e w : Nat) (q : Req) (extra : List Abort) : Answer × State :=
  let off := field q.payload 0 4
  let total := field q.payload 4 4
  let data := q.payload.drop 8
  match objInfo q.idx q.sub with
  | none => s.refuse ((firstAbort (extra ++ [nameAbort q.idx])).getD .noObject) q.sub
  | some r =>
    let k := instKey r q.idx q.sub q.tenant
    let cur := s.blocks.find? fun b => b.key == k && b.ep == e
    let bad := segBad cur off total data.length (q.flags.testBit 2)
    let prev := if off = 0 then [] else (cur.map BlockXfer.bytes).getD []
    match firstAbort (extra ++ s.formAborts e w r k q.tenant ++ denyIf (!r.ty.lenOk total) .typeMismatch ++
        denyIf bad .outOfRange) with
    | some a => (Answer.abort a q.sub, if bad then s.dropXfer k e else s)
    | none =>
      let s := s.dropXfer k e
      let bytes := prev ++ data
      if off + data.length < total then
        (Answer.ok q [], { s with blocks := s.blocks ++ [{ key := k, ep := e, total, bytes }] })
      else match s.writeOne e w r k q.tenant bytes extra with
        | .ok s => (Answer.ok q [], s)
        | .error a => (Answer.abort a q.sub, s.noteRefusal q a bytes)

/-- The segment of a snapshot at an offset, and the snapshot's release after its last one (R33). -/
def State.segment (s : State) (q : Req) (e k off most : Nat) (bytes : List Byte) : Answer × State :=
  let n := min (min most segMax) (bytes.length - off)
  let more := decide (off + n < bytes.length)
  let body := leBytes 4 off ++ leBytes 4 bytes.length ++ slice bytes off n
  let rest := s.snaps.filter fun x => !(x.key == k && x.ep == e)
  ({ Answer.ok q body with flags := fResponse + (if more then fMore else 0) },
   { s with snaps := if more then rest ++ [{ key := k, ep := e, bytes }] else rest })

/-- READ_BLOCK (R33). -/
def State.doReadBlock (s : State) (e w : Nat) (q : Req) (extra : List Abort) : Answer × State :=
  let off := field q.payload 0 4
  let most := field q.payload 4 4
  match objInfo q.idx q.sub with
  | none => s.refuse ((firstAbort (extra ++ [nameAbort q.idx])).getD .noObject) q.sub
  | some r =>
    let k := instKey r q.idx q.sub q.tenant
    let snap := s.snaps.find? fun x => x.key == k && x.ep == e
    let bad : Bool := off != 0 && !((snap.map fun x => decide (off ≤ x.bytes.length)).getD false)
    match firstAbort (extra ++ readAborts w q q.sub ++ denyIf bad .outOfRange) with
    | some a => s.refuse a q.sub
    | none =>
      if off = 0 then
        let (v, s) := s.readVal w k
        (s.popQueue k).segment q e k 0 most (encodeVal r.ty v)
      else s.segment q e k off most ((snap.map Snapshot.bytes).getD [])

/-! ### Subscriptions -/

/-- The aborts of subscribing to one subindex (R18, R35). -/
def subAborts (w : Nat) (q : Req) (sub : Nat) : List Abort :=
  match objInfo q.idx sub with
  | none => [nameAbort q.idx]
  | some r =>
    scopeAborts r w q.tenant false ++ denyIf (r.acc != .ev) .notEvent ++
    denyIf (decide (1000000 < field q.payload 0 4)) .outOfRange

/-- The keys a request names. -/
def Req.keys (q : Req) : List Nat :=
  q.subs.filterMap fun n => (objInfo q.idx n).map fun r => instKey r q.idx n q.tenant

/-- SUBSCRIBE (R35); a repeated one replaces the subscription (DEDUCED). -/
def State.doSubscribe (s : State) (e w : Nat) (q : Req) (extra : List Abort) : Answer × State :=
  let mine := s.subs.filter fun b => b.ep == e
  let fresh := q.keys.filter fun k => !(mine.any fun b => b.key == k)
  match firstAbort (extra ++ q.subs.flatMap (subAborts w q) ++
      denyIf (decide (64 < mine.length + fresh.length)) .noResource) with
  | some a => s.refuse a q.sub
  | none =>
    let (body, s') := q.subs.foldl (State.readOne w q) ([], s)
    if 1024 < body.length then s.refuse .badMessage q.sub
    else
      let old := s'.subs.filter fun b => !(b.ep == e && q.keys.contains b.key)
      let new := q.keys.map fun k =>
        ({ ep := e, key := k, intervalUs := field q.payload 0 4, windowOpen := false, combined := none } : Sub)
      (Answer.ok q body, { s' with subs := old ++ new })

/-- UNSUBSCRIBE (R35); with no subscription it changes nothing. -/
def State.doUnsubscribe (s : State) (e w : Nat) (q : Req) (extra : List Abort) : Answer × State :=
  let aborts := q.subs.flatMap fun n => match objInfo q.idx n with
    | none => [nameAbort q.idx]
    | some r => scopeAborts r w q.tenant false
  match firstAbort (extra ++ aborts) with
  | some a => s.refuse a q.sub
  | none => (Answer.ok q [], { s with subs := s.subs.filter fun b => !(b.ep == e && q.keys.contains b.key) })

/-! ### Claims -/

/-- The claim a subindex names; none for any other object (R49). -/
def claimAt (idx sub : Nat) : Option (Nat × Nat) := if sub = 0 then none else claimOf (okey idx sub 0)

/-- The grant object of a claim class (Table 1.16). -/
def grantKey (cls : Nat) : Nat := okey 0x12F0 (cls + 1) 0

/-- The aborts that CLAIM and RELEASE share: name, tenant, claim object (R49). -/
def claimForm (w : Nat) (q : Req) (sub : Nat) : List Abort :=
  match objInfo q.idx sub with
  | none => [nameAbort q.idx]
  | some _ => denyIf (q.tenant != w) .tenantDenied ++ denyIf (claimAt q.idx sub).isNone .outOfRange

/-- The first subindex that another tenant owns, with its owner (R49). -/
def State.otherOwner (s : State) (w : Nat) (q : Req) : Option (Nat × Nat) :=
  q.subs.findSome? fun n =>
    let o := s.rd (okey q.idx n 0)
    if (claimAt q.idx n).isSome && o != 0xFF && o != w then some (n, o) else none

/-- The class's grant lets the tenant claim (R49). -/
def State.claimGranted (s : State) (w : Nat) (q : Req) : Bool :=
  match claimAt q.idx q.sub with
  | some (cls, _) => w == 0 || (s.rd (grantKey cls)).testBit w
  | none => true

/-- CLAIM (R49): all of the resources or none. -/
def State.doClaim (s : State) (w : Nat) (q : Req) (extra : List Abort) : Answer × State :=
  let held := s.otherOwner w q
  let own := match held with
    | some (_, o) => [Abort.ownedBy o]
    | none => []
  match firstAbort (extra ++ q.subs.flatMap (claimForm w q) ++ denyIf (!s.claimGranted w q) .tenantDenied ++ own) with
  | some a =>
    s.refuse a (match a, held with
      | .ownedBy _, some (n, _) => n
      | _, _ => q.sub)
  | none =>
    (Answer.ok q [], q.subs.foldl (fun s n =>
      let k := okey q.idx n 0
      if s.rd k = w then s else (s.wr k w).inc O.CONFIG_GENERATION) s)

/-- The aborts of releasing one resource (R50): by the owner, or with FORCE by tenant 0. -/
def State.releaseAborts (s : State) (w : Nat) (q : Req) (sub : Nat) : List Abort :=
  let force := (field q.payload 0 1).testBit 0
  let o := s.rd (okey q.idx sub 0)
  match claimAt q.idx sub with
  | none => []
  | some (cls, n) =>
    denyIf (!(o == w || (force && w == 0 && o != 0xFF))) .notOwned ++
    denyIf (!force && o != 0xFF && s.claimBusy cls n o) .unitNotIdle

/-- One resource released: revoked with FORCE, else freed. -/
def State.releaseOne (q : Req) (s : State) (sub : Nat) : State :=
  let k := okey q.idx sub 0
  match claimAt q.idx sub with
  | none => s
  | some (cls, n) =>
    (if (field q.payload 0 1).testBit 0 then s.revoke k cls n (s.rd k) else s.wr k 0xFF).inc O.CONFIG_GENERATION

/-- RELEASE (R50). -/
def State.doRelease (s : State) (w : Nat) (q : Req) (extra : List Abort) : Answer × State :=
  match firstAbort (extra ++ q.subs.flatMap (claimForm w q) ++ q.subs.flatMap (s.releaseAborts w q)) with
  | some a => s.refuse a q.sub
  | none => (Answer.ok q [], q.subs.foldl (State.releaseOne q) s)

/-! ### HEARTBEAT and SESSION -/

/-- HEARTBEAT (R46). -/
def State.doHeartbeat (s : State) (q : Req) (extra : List Abort) : Answer × State :=
  match firstAbort extra with
  | some a => s.refuse a q.sub
  | none => (Answer.ok q (s.heartbeat false), s)

/-- An OPEN session becomes CLOSED, and its subscriptions end (R45). -/
def State.closeSession (s : State) (n : Nat) : State :=
  if s.rd (O.SESSION_STATE n) = 2 then (s.endSubs (32 + n)).wr (O.SESSION_STATE n) 3 else s

/-- SESSION (R45): OPEN, CLOSE or STATUS of the session it came over; the state is the answer. -/
def State.doSession (s : State) (n : Nat) (q : Req) (extra : List Abort) : Answer × State :=
  match firstAbort extra with
  | some a => s.refuse a q.sub
  | none =>
    let st := s.rd (O.SESSION_STATE n)
    let s := match field q.payload 0 1 with
      | 1 => if st = 1 ∨ st = 3 then (s.wr (O.SESSION_STATE n) 2).pump (32 + n) else s
      | 2 => s.closeSession n
      | _ => s
    (Answer.ok q (leBytes 1 (s.rd (O.SESSION_STATE n))), s)

/-! ### Dispatch -/

/-- What the device answers in its safe state (R489). -/
def safeAnswers (q : Req) : Bool :=
  q.op == 9 || (q.op == 0 && (decide (0x1000 ≤ q.idx ∧ q.idx ≤ 0x10FF) || decide (0x2000 ≤ q.idx ∧ q.idx ≤ 0x2002) ||
    q.idx == 0x2110 || decide (0x9000 ≤ q.idx ∧ q.idx ≤ 0x90FF)))

/-- The limited SPI sideband (R41), and a network session that is not OPEN or not the tenant's (R44). -/
def State.epAborts (s : State) (e : Nat) (q : Req) : List Abort :=
  if e = 48 then
    denyIf (!s.on O.SPI_AUTHORITY && !s.on O.DEVICE_SAFE &&
      !(q.op == 9 || (q.op == 0 && decide (0x1000 ≤ q.idx ∧ q.idx ≤ 0x10FF)))) .tenantDenied
  else if 32 ≤ e then
    let n := e - 32
    denyIf (s.rd (O.SESSION_STATE n) != 2 && !(q.op == 0xA && field q.payload 0 1 == 1)) .sessionInvalid ++
    denyIf (q.tenant != s.rd (O.SESSION_TENANT n)) .tenantDenied
  else []

/-- One request executed (R28-R36): its answer, and the state after. -/
def State.execReq (s : State) (e : Nat) (q : Req) : Answer × State :=
  let w := s.epTenant e
  let extra := s.epAborts e q
  if q.bad (decide (32 ≤ e ∧ e < 48)) then s.refuse .badMessage q.sub
  else if s.on O.DEVICE_SAFE && !safeAnswers q then s.refuse .notReady q.sub
  else match q.op with
  | 0 => s.doRead w q extra
  | 1 => s.doWrite e w q extra
  | 2 => s.doReadBlock e w q extra
  | 3 => s.doWriteBlock e w q extra
  | 4 => s.doSubscribe e w q extra
  | 5 => s.doUnsubscribe e w q extra
  | 7 => s.doClaim w q extra
  | 8 => s.doRelease w q extra
  | 9 => s.doHeartbeat q extra
  | _ => s.doSession (e - 32) q extra

/-! ### Endpoints -/

/-- A function's mailbox takes a request (R34, R415), or ignores it while a response waits. -/
def State.mailboxReq (s : State) (f : Nat) (q : Req) (bytes : List Byte) : State :=
  if !(s.alive && s.ready 0x20 && s.fnOpen f) then s
  else if (s.func f).respReady then s.inc (O.MB_IGNORED f)
  else
    let (a, s) := (s.modFunc f fun x => { x with mbRequest := bytes }).execReq f q
    (s.modFunc f fun x => { x with mbResponse := q.reply a, respReady := true }).msix f 0

/-- The SPI target executes a request (R39); BUSY discards it. In the safe state it answers whatever has become ready
(R489). -/
def State.spiReq (s : State) (q : Req) : State :=
  if !(s.released && (s.ready 0x34 || s.on O.DEVICE_SAFE)) || s.spi.busy then s
  else
    let (a, s) := s.execReq 48 q
    { s with spi := { s.spi with response := some (q.reply a), ahead := (s.ep 48).queue.length, busy := true } }

def State.modSession (s : State) (n : Nat) (g : Session → Session) : State :=
  { s with sessions := modNth s.sessions n g }

def State.sess (s : State) (n : Nat) : Session := nth s.sessions n { key := [], window := [], kept := [] }

/-- The kept response to a request that repeats one (R34). -/
def Session.keptFor (x : Session) (q : Req) : Option Kept :=
  x.kept.find? fun k => k.seq == q.seq && k.op == q.op && k.index == q.idx && k.sub == q.sub

/-- A response goes to the peer where the session has a port. -/
def State.sendResp (s : State) (n : Nat) (port : Option Nat) (msg : List Byte) : State :=
  match port with
  | some p => s.sendUdp n p msg
  | none => s

/-- A session executes an authenticated request (R34, R44), or resends the response it keeps. -/
def State.sessionReq (s : State) (n : Nat) (port : Option Nat) (q : Req) : State :=
  if !s.admitted (s.rd (O.SESSION_TENANT n)) then s
  else match (s.sess n).keptFor q with
  | some k => s.sendResp n port (k.resp.set 1 (BitVec.ofNat 8 (replayFlags (field k.resp 1 1))))
  | none =>
    let (a, s) := s.execReq (32 + n) q
    let msg := q.reply a
    let kept : Kept := { seq := q.seq, op := q.op, index := q.idx, sub := q.sub, resp := msg }
    (s.modSession n fun x => { x with kept := (kept :: x.kept).take 8 }).sendResp n port msg

/-- A request over an endpoint. Over a session it has been authenticated, and its SESSION field names the slot (R44). -/
def State.request (s : State) (ep : Endpoint) (q : Req) : State :=
  match ep with
  | .mailbox f => s.mailboxReq f q q.bytes
  | .session n =>
    if s.alive && s.rd (O.SESSION_STATE n) != 0 && (s.sessionPort n).isSome then
      s.sessionReq n (s.sessionPort n) { q with session := n + 1 }
    else s
  | .spi => s.spiReq q

end Sys2Proof.Machine
end

