-- ==== Sys2Proof/Machine/Commands.lean ====
section
/-!
DEFINITION. The commands of NYP: requests by operation (Table 1.7), the mailbox, network and SPI framings (R39, R40, R43,
R44, R415), the timeouts of chapter 1, and the accesses of single objects that have a row of their own.
-/

namespace Sys2Proof.Machine

/-! ### Operations -/

def execRead (ep : Endpoint) (h : NypHdr) (payload : List Byte) (s : State) : Res := .next (s.request ep (Req.ofHdr 0 h payload))
def execWrite (ep : Endpoint) (h : NypHdr) (payload : List Byte) (s : State) : Res := .next (s.request ep (Req.ofHdr 1 h payload))
def execReadBlock (ep : Endpoint) (h : NypHdr) (payload : List Byte) (s : State) : Res :=
  .next (s.request ep (Req.ofHdr 2 h payload))
def execWriteBlock (ep : Endpoint) (h : NypHdr) (payload : List Byte) (s : State) : Res :=
  .next (s.request ep (Req.ofHdr 3 h payload))
def execSubscribe (ep : Endpoint) (h : NypHdr) (payload : List Byte) (s : State) : Res :=
  .next (s.request ep (Req.ofHdr 4 h payload))
def execUnsubscribe (ep : Endpoint) (h : NypHdr) (payload : List Byte) (s : State) : Res :=
  .next (s.request ep (Req.ofHdr 5 h payload))
def execClaim (ep : Endpoint) (h : NypHdr) (payload : List Byte) (s : State) : Res := .next (s.request ep (Req.ofHdr 7 h payload))
def execRelease (ep : Endpoint) (h : NypHdr) (payload : List Byte) (s : State) : Res :=
  .next (s.request ep (Req.ofHdr 8 h payload))
def execHeartbeat (ep : Endpoint) (h : NypHdr) (payload : List Byte) (s : State) : Res :=
  .next (s.request ep (Req.ofHdr 9 h payload))

/-- SESSION with its action byte (Table 1.7): 1 OPEN, 2 CLOSE, 3 STATUS. -/
def execSessionOpen (ep : Endpoint) (h : NypHdr) (s : State) : Res := .next (s.request ep (Req.ofHdr 0xA h [1]))
def execSessionClose (ep : Endpoint) (h : NypHdr) (s : State) : Res := .next (s.request ep (Req.ofHdr 0xA h [2]))
def execSessionStatus (ep : Endpoint) (h : NypHdr) (s : State) : Res := .next (s.request ep (Req.ofHdr 0xA h [3]))

/-! ### Framings -/

/-- MB_DOORBELL (R415): the request in the function's mailbox. -/
def execMbDoorbell (fn : Fin 32) (request : List Byte) (s : State) : Res := .next (s.mailboxReq fn (Req.parse request) request)

/-- A datagram is of a slot in use, from its peer on one of its ports, and long enough (R43, R44). -/
def State.datagramBound (s : State) (port session : Nat) (peer bytes : List Byte) : Bool :=
  decide (1 ≤ session ∧ session ≤ 16 ∧ 40 ≤ bytes.length) && s.rd (O.SESSION_STATE (session - 1)) != 0 &&
  (s.rd (O.SESSION_PORTS (session - 1))).testBit port && peer == s.rdB (O.SESSION_PEER (session - 1))

/-- A counter accepted before, or too old (R44). -/
def State.replayed (s : State) (n ctr : Nat) : Bool :=
  (s.sess n).window.contains ctr || decide (ctr + 64 < s.rd (O.SESSION_RX_COUNTER n))

/-- A counter accepted: the highest, and those of its last 64 (R44). -/
def State.acceptCounter (s : State) (n ctr : Nat) : State :=
  let top := max ctr (s.rd (O.SESSION_RX_COUNTER n))
  (s.modSession n fun x => { x with window := (ctr :: x.window).filter fun c => decide (top ≤ c + 64) }).put
    (O.SESSION_RX_COUNTER n) (.n top)

/-- A datagram received on an enabled port (R44). -/
def State.datagram (s : State) (port : Nat) (peer bytes : List Byte) : State :=
  let session := field bytes 3 1
  let n := session - 1
  let ctr := field bytes 0x10 8
  let ct := (bytes.drop 24).take (bytes.length - 40)
  let tag := bytes.drop (bytes.length - 16)
  if !s.datagramBound port session peer bytes then s.inc O.UDP_AUTH_FAILS
  else match gcmOpen (s.sess n).key (udpNonce n 0 ctr) (bytes.take 24) ct tag with
  | none => s.inc O.UDP_AUTH_FAILS
  | some payload =>
    if s.replayed n ctr then s.inc O.UDP_REPLAYS
    else (s.acceptCounter n ctr).sessionReq n (some port) (Req.parse (bytes.take 16 ++ payload))

/-- NYP_DATAGRAM_RX (R44): on a port whose transport is off (1101.01) nothing is received. -/
def execNypDatagramRx (port : Fin 2) (peer bytes : List Byte) (s : State) : Res :=
  whenOk ((s.rd O.UDP_ENABLE).testBit port && s.ready (0x21 + port)) s fun s => s.datagram port peer bytes

/-- The SPI target answers: it runs, or the device is in its safe state (R489). -/
def State.spiUp (s : State) : Bool := s.released && (s.ready 0x34 || s.on O.DEVICE_SAFE)

def State.modSpi (s : State) (g : Spi → Spi) : State := { s with spi := g s.spi }

/-- A transaction of its own begins: nothing of the last is ignored any more, and nothing has been returned. -/
def State.spiBegin (s : State) : State := s.modSpi fun x => { x with ignoring := false, sdo := [] }

/-- WRITE_FRAME (R39, R40): discarded unchecked while BUSY; a frame that fails its CRC is counted. -/
def State.spiFrame (s : State) (bytes : List Byte) : State :=
  let s := s.spiBegin
  let n := bytes.length - 4
  if s.spi.busy then s
  else if bytes.length < 4 ∨ crc32 (bytes.take n) ≠ field bytes n 4 then
    (s.modSpi fun x => { x with crcError := true }).inc O.SPI_CRC_ERRORS
  else s.spiReq (Req.parse (bytes.take n))

def execWriteFrame (bytes : List Byte) (s : State) : Res := .next (if s.spiUp then s.spiFrame bytes else s)

/-- A frame returned with its CRC (R40). -/
def withCrc (msg : List Byte) : List Byte := msg ++ leBytes 4 (crc32 msg)

/-- READ_FRAME (R39): the oldest pending response or event with its CRC, or 0x00. -/
def State.spiRead (s : State) : State :=
  let s := s.spiBegin
  let q := (s.ep 48).queue
  let event := fun (s : State) (m : EventMsg) =>
    ((s.modEp 48 fun x => { x with queue := q.tail }).modSpi fun x =>
      { x with ahead := x.ahead - 1, sdo := withCrc (s.eventBytes 48 m) })
  match s.spi.response, q with
  | some r, [] => s.modSpi fun x => { x with response := none, busy := false, sdo := withCrc r }
  | some r, m :: _ =>
    if s.spi.ahead = 0 then s.modSpi fun x => { x with response := none, busy := false, sdo := withCrc r } else event s m
  | none, m :: _ => event s m
  | none, [] => s.modSpi fun x => { x with sdo := [0] }

def execReadFrame (s : State) : Res := .next (if s.spiUp then s.spiRead else s)

/-- READ_STATUS (R39): the status byte; CRC_ERROR is cleared by the read. -/
def execReadStatus (s : State) : Res :=
  .next (if s.spiUp then
      let s := s.spiBegin
      s.modSpi fun x => { x with sdo := leBytes 1 (x.status ((s.ep 48).queue != [])), crcError := false }
    else s)

/-- SPI_UNKNOWN_COMMAND (R39): zeros are returned, and nothing changes. -/
def execSpiUnknownCommand (cmd : Fin 256) (s : State) : Res :=
  .next (if s.spiUp && !decide (1 ≤ cmd.val ∧ cmd.val ≤ 3) then s.modSpi fun x => { x with ignoring := true, sdo := [0] } else s)

/-! ### Timeouts -/

/-- The object and instance that a timeout row names; none for a name that no object has. -/
def rowKey (index sub tenant : Nat) : Option Nat := (objInfo index sub).map fun r => instKey r index sub tenant

/-- BLOCK_TRANSFER_TIMEOUT (R32). -/
def execBlockTransferTimeout (index : Fin 65536) (sub : Fin 256) (tenant : Fin 32) (s : State) : Res := whenAlive s fun s =>
  match rowKey index sub tenant with
  | some k => { s with blocks := s.blocks.filter fun b => b.key != k }
  | none => s

/-- SNAPSHOT_TIMEOUT (R33). -/
def execSnapshotTimeout (ep : Endpoint) (s : State) : Res := whenAlive s fun s =>
  { s with snaps := s.snaps.filter fun x => x.ep != epIdx ep }

/-- SESSION_IDLE_TIMEOUT (R45). -/
def execSessionIdleTimeout (n : Fin 16) (s : State) : Res := whenAlive s fun s => s.closeSession n

/-- HEARTBEAT_PERIOD_EXPIRY (R46): on every OPEN session. -/
def execHeartbeatPeriodExpiry (s : State) : Res := whenAlive s fun s => s.sendHeartbeats false

/-- The end of a subscription's window (R35): one EVENT with the latest of what was combined opens a new window. -/
def State.windowEnd (s : State) (e k : Nat) : State :=
  match s.subs.findIdx? fun b => b.ep == e && b.key == k with
  | none => s
  | some i =>
    match s.subs[i]? with
    | none => s
    | some b =>
      let upd := fun (g : Sub → Sub) => { s with subs := modNth s.subs i g }
      match b.combined with
      | some c => (upd fun b => { b with combined := none, windowOpen := true }).queueEvent e k c
      | none => upd fun b => { b with windowOpen := false }

/-- SUBSCRIPTION_WINDOW_END (R35). -/
def execSubscriptionWindowEnd (ep : Endpoint) (index : Fin 65536) (sub : Fin 256) (tenant : Fin 32) (s : State) : Res :=
  whenAlive s fun s => match rowKey index sub tenant with
    | some k => s.windowEnd (epIdx ep) k
    | none => s

/-- REQUEST_STATE_TIMEOUT (R23): the object shows the state reached, with MISMATCH. -/
def execRequestStateTimeout (index : Fin 65536) (sub : Fin 256) (tenant : Fin 32) (s : State) : Res :=
  whenAlive s fun s => match rowKey index sub tenant with
    | some k => s.setMismatch k true
    | none => s

/-! ### Accesses of one object -/

/-- A SEQ that repeats none of the requests a session keeps (R34): an access row names no SEQ. -/
def State.freshSeq (s : State) (e : Nat) : Nat :=
  if 32 ≤ e ∧ e < 48 then
    ((List.range 9).find? fun q => !((s.sess (e - 32)).kept.any fun k => k.seq == q)).getD 0
  else 0

/-- The request that an access row stands for: its TENANT field names the instance, or the requester for a DEV object. -/
def State.rowReq (s : State) (ep : Endpoint) (op flags idx sub tenant : Nat) (payload : List Byte) : Req :=
  let e := epIdx ep
  let ten : Bool := match objInfo idx sub with
    | some r => r.scope == .ten
    | none => false
  { version := 1, op, flags, tb := if ten then tenant else s.epTenant e, session := if 32 ≤ e ∧ e < 48 then e - 31 else 0,
    seq := s.freshSeq e, idx, sub, count := 1, len := payload.length, status := 0, payload }

/-- The endpoint takes a request now. -/
def State.takes (s : State) (ep : Endpoint) : Bool :=
  match ep with
  | .mailbox f => s.alive && s.ready 0x20 && s.fnOpen f && !(s.func f).respReady
  | .session n => s.alive && s.rd (O.SESSION_STATE n) != 0 && (s.sessionPort n).isSome
  | .spi => s.spiUp && !s.spi.busy

/-- A write too long for one message: the last segment of its WRITE_BLOCK, the earlier ones having been taken (R32). -/
def State.longWrite (s : State) (ep : Endpoint) (idx sub tenant : Nat) (bytes : List Byte) : State :=
  let e := epIdx ep
  let off := (bytes.length - 1) / segMax * segMax
  let q := s.rowReq ep 3 0 idx sub tenant (leBytes 4 off ++ leBytes 4 bytes.length ++ bytes.drop off)
  match rowKey idx sub tenant with
  | some k =>
    if s.takes ep then
      let s := s.dropXfer k e
      let prior : BlockXfer := { key := k, ep := e, total := bytes.length, bytes := bytes.take off }
      (({ s with blocks := s.blocks ++ [prior] }).request ep q).dropXfer k e
    else s.request ep q
  | none => s.request ep q

/-- One object written over an endpoint. -/
def State.writeRow (s : State) (ep : Endpoint) (idx sub tenant : Nat) (bytes : List Byte) : State :=
  if bytes.length ≤ 1024 then s.request ep (s.rowReq ep 1 0 idx sub tenant bytes) else s.longWrite ep idx sub tenant bytes

/-- One object read over an endpoint. -/
def State.readRow (s : State) (ep : Endpoint) (idx sub tenant : Nat) : State :=
  s.request ep (s.rowReq ep 0 0 idx sub tenant [])

/-- CONFIG_DECLARE (R54). -/
def execConfigDeclare (ep : Endpoint) (value : Fin 4294967296) (s : State) : Res :=
  .next (s.writeRow ep 0x1018 3 0 (leBytes 4 value))
/-- SPI_AUTHORITY_WRITE (R41). -/
def execSpiAuthorityWrite (ep : Endpoint) (value : Fin 256) (s : State) : Res :=
  .next (s.writeRow ep 0x1102 1 0 (leBytes 1 value))
/-- SESSION_KEY (R42). -/
def execSessionKey (ep : Endpoint) (n : Fin 16) (key : List Byte) (s : State) : Res :=
  .next (s.writeRow ep (0x1110 + n) 5 0 key)
/-- SESSION_DISCARD (R42). -/
def execSessionDiscard (ep : Endpoint) (n : Fin 16) (value : Fin 256) (s : State) : Res :=
  .next (s.writeRow ep (0x1110 + n) 8 0 (leBytes 1 value))
/-- UNIT_RESET (R106). -/
def execUnitReset (ep : Endpoint) (code : Fin 256) (s : State) : Res := .next (s.writeRow ep 0x2110 3 0 (leBytes 1 code))
/-- TARGET_STATE_WRITE (R117). -/
def execTargetStateWrite (ep : Endpoint) (value : Fin 256) (s : State) : Res :=
  .next (s.writeRow ep 0x2200 2 0 (leBytes 1 value))
/-- WAKE_TARGET_WRITE (R116). -/
def execWakeTargetWrite (ep : Endpoint) (source : Fin 8) (value : Fin 256) (s : State) : Res :=
  .next (s.writeRow ep 0x2210 (source + 1) 0 (leBytes 1 value))
/-- BASE_PROGRAM (R133). -/
def execBaseProgram (ep : Endpoint) (tenant : Fin 32) (address : Fin 4294967296) (s : State) : Res :=
  .next (s.writeRow ep 0x2205 2 tenant (leBytes 4 address))
/-- BASE_DISARM (R133). -/
def execBaseDisarm (ep : Endpoint) (tenant : Fin 32) (s : State) : Res :=
  .next (s.writeRow ep 0x2205 2 tenant (leBytes 4 0xFFFFFFFF))
/-- BASE_LOAD_WINDOW (R132). -/
def execBaseLoadWindow (ep : Endpoint) (tenant : Fin 32) (data : List Byte) (s : State) : Res :=
  .next (s.writeRow ep 0x2205 4 tenant data)
/-- BASE_TENANT_WRITE (R131). -/
def execBaseTenantWrite (ep : Endpoint) (value : Fin 256) (s : State) : Res :=
  .next (s.writeRow ep 0x2205 1 0 (leBytes 1 value))
/-- MID_PROGRAM (R134). -/
def execMidProgram (ep : Endpoint) (tenant : Fin 32) (address : Fin 4294967296) (s : State) : Res :=
  .next (s.writeRow ep 0x2206 1 tenant (leBytes 4 address))

/-- The object that holds a bound (Table 5.10): index, subindex and bytes. -/
def boundObj : EnvBound → Nat × Nat × Nat
  | .freqMin r => (0x2230, r + 1, 2)
  | .freqMax r => (0x2231, r + 1, 2)
  | .vcoreMin d => (0x2232, d + 1, 2)
  | .vcoreMax d => (0x2233, d + 1, 2)
  | .threshMin => (0x4010, 4, 2)
  | .threshMax => (0x4010, 5, 2)
  | .expMin i => (0x5010 + i, 0x13, 2)
  | .expMax i => (0x5010 + i, 0x14, 2)
  | .gainMin i => (0x5010 + i, 0x15, 2)
  | .gainMax i => (0x5010 + i, 0x16, 2)
  | .refreshMin => (0x7008, 1, 1)
  | .refreshMax => (0x7008, 2, 1)

/-- ENVELOPE_BOUND_WRITE (R136). -/
def execEnvelopeBoundWrite (ep : Endpoint) (bound : EnvBound) (value : Fin 65536) (s : State) : Res :=
  let (i, n, len) := boundObj bound
  .next (s.writeRow ep i n 0 (leBytes (if value.val < 256 then len else 2) value))
/-- CORE_SERVICE (R160). -/
def execCoreService (ep : Endpoint) (core : Fin 16) (value : Fin 256) (s : State) : Res :=
  .next (s.writeRow ep 0x6002 (core + 1) 0 (leBytes 1 value))
/-- CORE_GRANT (R316). -/
def execCoreGrant (ep : Endpoint) (tenant : Fin 32) (rink : Fin 4) (value : Fin 256) (s : State) : Res :=
  .next (s.writeRow ep 0x6201 (rink + 1) tenant (leBytes 1 value))
/-- LC_PERMITTED_WRITE (R316). -/
def execLcPermittedWrite (ep : Endpoint) (tenant : Fin 32) (value : Fin 256) (s : State) : Res :=
  .next (s.writeRow ep 0x6202 1 tenant (leBytes 1 value))
/-- WAY_GRANT (R317). -/
def execWayGrant (ep : Endpoint) (tenant : Fin 32) (rink : Fin 4) (value : Fin 65536) (s : State) : Res :=
  .next (s.writeRow ep 0x6203 (rink + 1) tenant (leBytes 2 value))
/-- CHANNEL_GRANT (R318). -/
def execChannelGrant (ep : Endpoint) (tenant : Fin 32) (value : Fin 65536) (s : State) : Res :=
  .next (s.writeRow ep 0x6204 1 tenant (leBytes 2 value))
/-- LODGE_SEG_OWNER (R296). -/
def execLodgeSegOwner (ep : Endpoint) (seg : Fin 32) (value : Fin 256) (s : State) : Res :=
  .next (s.writeRow ep 0x7003 (seg + 1) 0 (leBytes 1 value))

/-- The index of a share (Table 13.5). -/
def shareIdx : BudgetShare → Nat
  | .lcReserve => 0x6310
  | .lcLimit => 0x6311
  | .beLimit => 0x6312

/-- BUDGET_SHARE_WRITE (R334). -/
def execBudgetShareWrite (ep : Endpoint) (tenant : Fin 32) (which : BudgetShare) (resource : Fin 13) (value : Fin 65536)
    (s : State) : Res :=
  .next (s.writeRow ep (shareIdx which) (resource + 1) tenant (leBytes 2 value))
/-- Q_ENABLE (R416). -/
def execQEnable (ep : Endpoint) (tenant : Fin 32) (q : Fin 8) (value : Fin 256) (s : State) : Res :=
  .next (s.writeRow ep (0x7110 + q) 1 tenant (leBytes 1 value))
/-- STREAM_ENABLE (R422). -/
def execStreamEnable (ep : Endpoint) (tenant : Fin 32) (ctx : Fin 96) (value : Fin 256) (s : State) : Res :=
  .next (s.writeRow ep (0xA000 + ctx) 1 tenant (leBytes 1 value))
/-- STREAM_COMMIT (R426). -/
def execStreamCommit (ep : Endpoint) (tenant : Fin 32) (value : Fin 256) (s : State) : Res :=
  .next (s.writeRow ep 0x7120 1 tenant (leBytes 1 value))
/-- CH_GAIN_WRITE (R340). -/
def execChGainWrite (ep : Endpoint) (channel : Fin 8) (isDelay : Bool) (value : Fin 4294967296) (s : State) : Res :=
  .next (if isDelay then s.writeRow ep 0x4004 (channel + 1) 0 (leBytes (if value.val < 65536 then 2 else 4) value)
    else s.writeRow ep 0x4003 (channel + 1) 0 (leBytes 4 value))
/-- RING_CONFIG_WRITE (R348). -/
def execRingConfigWrite (ep : Endpoint) (isBits : Bool) (value : Fin 256) (s : State) : Res :=
  .next (s.writeRow ep 0x4020 (if isBits then 2 else 1) 0 (leBytes 1 value))
/-- START (R351). -/
def execStart (ep : Endpoint) (tenant : Fin 32) (s : State) : Res := .next (s.writeRow ep 0x4021 2 tenant [1])
/-- CLOSE (R354). -/
def execClose (ep : Endpoint) (tenant : Fin 32) (s : State) : Res := .next (s.writeRow ep 0x4021 2 tenant [2])
/-- CAMERA_ENABLE (R365). -/
def execCameraEnable (ep : Endpoint) (tenant : Fin 32) (input : Fin 16) (value : Fin 256) (s : State) : Res :=
  .next (s.writeRow ep (0x5020 + input) 1 tenant (leBytes 1 value))
/-- COMMIT (R373). -/
def execCommit (ep : Endpoint) (tenant : Fin 32) (input : Fin 16) (value : Fin 256) (s : State) : Res :=
  .next (s.writeRow ep (0x5020 + input) 0x0B tenant (leBytes 1 value))
/-- QUEUE_PUSH (R380). -/
def execQueuePush (ep : Endpoint) (tenant : Fin 32) (input : Fin 16) (entry : List Byte) (s : State) : Res :=
  .next (s.writeRow ep (0x5020 + input) 0x0E tenant entry)
/-- ISP_PARAMS_WRITE (R371). -/
def execIspParamsWrite (ep : Endpoint) (input : Fin 16) (params : List Byte) (s : State) : Res :=
  .next (s.writeRow ep (0x5010 + input) 0x1A 0 params)
/-- CAM_CLK_WRITE (R363). -/
def execCamClkWrite (ep : Endpoint) (port : Fin 2) (value : Fin 256) (s : State) : Res :=
  .next (s.writeRow ep (0x5001 + port) 3 0 (leBytes 1 value))
/-- AE_ENABLE_WRITE (R384). -/
def execAeEnableWrite (ep : Endpoint) (input : Fin 16) (value : Fin 256) (s : State) : Res :=
  .next (s.writeRow ep (0x5010 + input) 0x11 0 (leBytes 1 value))
/-- TIME_SET (R389). -/
def execTimeSet (ep : Endpoint) (value : List Byte) (s : State) : Res := .next (s.writeRow ep 0x3000 3 0 value)
/-- TIME_ADJUST (R389). -/
def execTimeAdjust (ep : Endpoint) (value : Fin 18446744073709551616) (s : State) : Res :=
  .next (s.writeRow ep 0x3000 4 0 (leBytes 8 value))
/-- RATE_ADJ (R389). -/
def execRateAdj (ep : Endpoint) (value : Fin 4294967296) (s : State) : Res := .next (s.writeRow ep 0x3000 5 0 (leBytes 4 value))
/-- MDIO_ACCESS (R394). -/
def execMdioAccess (ep : Endpoint) (value : Fin 4294967296) (s : State) : Res :=
  .next (s.writeRow ep 0x3010 9 0 (leBytes 4 value))
/-- TXTS_QUEUE (R401): a destructive read of the oldest transmit timestamp. -/
def execTxtsQueue (ep : Endpoint) (port : Fin 2) (s : State) : Res :=
  .next (if port = 0 then s.readRow ep 0x3010 0x0A 0 else s.readRow ep 0x3020 0x14 0)
/-- TIO_MODE (R403). -/
def execTioMode (ep : Endpoint) (tenant : Fin 32) (n : Fin 4) (value : Fin 256) (s : State) : Res :=
  .next (s.writeRow ep (0x3100 + n) 1 tenant (leBytes 1 value))
/-- CAPTURE_QUEUE (R410): a destructive read of the oldest capture. -/
def execCaptureQueue (ep : Endpoint) (tenant : Fin 32) (n : Fin 4) (s : State) : Res :=
  .next (s.readRow ep (0x3100 + n) 8 tenant)
/-- TRIG_ACTIONS (R407). -/
def execTrigActions (ep : Endpoint) (tenant : Fin 32) (n : Fin 8) (value : Fin 256) (s : State) : Res :=
  .next (s.writeRow ep (0x3110 + n) 1 tenant (leBytes 1 value))
/-- TRIG_TARGET_WRITE (R407). -/
def execTrigTargetWrite (ep : Endpoint) (tenant : Fin 32) (n : Fin 8) (isPeriod : Bool)
    (value : Fin 18446744073709551616) (s : State) : Res :=
  .next (s.writeRow ep (0x3110 + n) (if isPeriod then 3 else 2) tenant (leBytes 8 value))
/-- ADMIT (R445). -/
def execAdmitTenant (ep : Endpoint) (t : Fin 32) (s : State) : Res := .next (s.writeRow ep (0xB000 + t) 2 0 [1])
/-- REMOVE (R447). -/
def execRemove (ep : Endpoint) (t : Fin 32) (s : State) : Res := .next (s.writeRow ep (0xB000 + t) 2 0 [2])
/-- CERT_CHAIN (R436). -/
def execCertChain (ep : Endpoint) (chain : List Byte) (s : State) : Res := .next (s.writeRow ep 0x8002 1 0 chain)
/-- DEBUG_TOKEN (R462). -/
def execDebugToken (ep : Endpoint) (token : List Byte) (s : State) : Res := .next (s.writeRow ep 0x8010 2 0 token)
/-- MEASURE_REQUEST (R454). -/
def execMeasureRequest (ep : Endpoint) (tenant : Fin 32) (request : List Byte) (s : State) : Res :=
  .next (s.writeRow ep 0x8021 1 tenant request)
/-- CONSENT_WRITE (R464). -/
def execConsentWrite (ep : Endpoint) (tenant : Fin 32) (isProfile : Bool) (value : Fin 256) (s : State) : Res :=
  .next (s.writeRow ep 0x8020 (if isProfile then 2 else 1) tenant (leBytes 1 value))
/-- SOFT_REPAIR_ADD (R482). -/
def execSoftRepairAdd (ep : Endpoint) (entries : List Byte) (s : State) : Res := .next (s.writeRow ep 0x9013 1 0 entries)
/-- DIE_RESTART_REQUEST (R483). -/
def execDieRestartRequest (ep : Endpoint) (value : Fin 256) (s : State) : Res :=
  .next (s.writeRow ep 0x9030 7 0 (leBytes 1 value))

end Sys2Proof.Machine
end

