-- ==== Sys2Proof/Machine/Dispatch.lean ====
section
/-!
DEFINITION. The effect of a command: one arm per constructor of `Instr`, each one call of that command's meaning.
-/

namespace Sys2Proof.Machine

def exec (i : Instr) (s : State) : Host.Outcome State Fault Refusal :=
  match i with
  | .read ep h payload => Sys2Proof.Machine.execRead ep h payload s
  | .write ep h payload => Sys2Proof.Machine.execWrite ep h payload s
  | .readBlock ep h payload => Sys2Proof.Machine.execReadBlock ep h payload s
  | .writeBlock ep h payload => Sys2Proof.Machine.execWriteBlock ep h payload s
  | .subscribe ep h payload => Sys2Proof.Machine.execSubscribe ep h payload s
  | .unsubscribe ep h payload => Sys2Proof.Machine.execUnsubscribe ep h payload s
  | .claim ep h payload => Sys2Proof.Machine.execClaim ep h payload s
  | .release ep h payload => Sys2Proof.Machine.execRelease ep h payload s
  | .heartbeat ep h payload => Sys2Proof.Machine.execHeartbeat ep h payload s
  | .sessionOpen ep h => Sys2Proof.Machine.execSessionOpen ep h s
  | .sessionClose ep h => Sys2Proof.Machine.execSessionClose ep h s
  | .sessionStatus ep h => Sys2Proof.Machine.execSessionStatus ep h s
  | .nypDatagramRx port peer bytes => Sys2Proof.Machine.execNypDatagramRx port peer bytes s
  | .blockTransferTimeout index sub tenant => Sys2Proof.Machine.execBlockTransferTimeout index sub tenant s
  | .snapshotTimeout ep => Sys2Proof.Machine.execSnapshotTimeout ep s
  | .sessionIdleTimeout n => Sys2Proof.Machine.execSessionIdleTimeout n s
  | .heartbeatPeriodExpiry => Sys2Proof.Machine.execHeartbeatPeriodExpiry s
  | .subscriptionWindowEnd ep index sub tenant => Sys2Proof.Machine.execSubscriptionWindowEnd ep index sub tenant s
  | .requestStateTimeout index sub tenant => Sys2Proof.Machine.execRequestStateTimeout index sub tenant s
  | .writeFrame bytes => Sys2Proof.Machine.execWriteFrame bytes s
  | .readFrame => Sys2Proof.Machine.execReadFrame s
  | .readStatus => Sys2Proof.Machine.execReadStatus s
  | .spiUnknownCommand cmd => Sys2Proof.Machine.execSpiUnknownCommand cmd s
  | .sbCsNFalling => Sys2Proof.Machine.execSbCsNFalling s
  | .configDeclare ep value => Sys2Proof.Machine.execConfigDeclare ep value s
  | .spiAuthorityWrite ep value => Sys2Proof.Machine.execSpiAuthorityWrite ep value s
  | .sessionKey ep n key => Sys2Proof.Machine.execSessionKey ep n key s
  | .sessionDiscard ep n value => Sys2Proof.Machine.execSessionDiscard ep n value s
  | .porNAssert lowNs => Sys2Proof.Machine.execPorNAssert lowNs s
  | .porNRelease refInRange testEn aonBistHeld pttLow camPrivLow banks => Sys2Proof.Machine.execPorNRelease refInRange testEn aonBistHeld pttLow camPrivLow banks s
  | .unitReady u selfTestOk cells => Sys2Proof.Machine.execUnitReady u selfTestOk cells s
  | .readyTimeout u => Sys2Proof.Machine.execReadyTimeout u s
  | .unitReset ep code => Sys2Proof.Machine.execUnitReset ep code s
  | .watchdogExpiry => Sys2Proof.Machine.execWatchdogExpiry s
  | .aonUndervoltage => Sys2Proof.Machine.execAonUndervoltage s
  | .railExcursion rail high mv => Sys2Proof.Machine.execRailExcursion rail high mv s
  | .phaseFailOpen reg phase load => Sys2Proof.Machine.execPhaseFailOpen reg phase load s
  | .phaseSenseDisagreement reg phase load => Sys2Proof.Machine.execPhaseSenseDisagreement reg phase load s
  | .phaseOvercurrent reg phase load => Sys2Proof.Machine.execPhaseOvercurrent reg phase load s
  | .burstEnd reg failOpen disagreement burstUs load => Sys2Proof.Machine.execBurstEnd reg failOpen disagreement burstUs load s
  | .housekeepingTick disagreeA disagreeB disagreeIo load => Sys2Proof.Machine.execHousekeepingTick disagreeA disagreeB disagreeIo load s
  | .powerLimitWindow die powerMw => Sys2Proof.Machine.execPowerLimitWindow die powerMw s
  | .ref38Loss => Sys2Proof.Machine.execRef38Loss s
  | .pllUnlock n => Sys2Proof.Machine.execPllUnlock n s
  | .xtal32kQualified => Sys2Proof.Machine.execXtal32kQualified s
  | .xtal32kFailure ppm => Sys2Proof.Machine.execXtal32kFailure ppm s
  | .perstNAssert => Sys2Proof.Machine.execPerstNAssert s
  | .perstNRelease => Sys2Proof.Machine.execPerstNRelease s
  | .hostWake => Sys2Proof.Machine.execHostWake s
  | .pttPress => Sys2Proof.Machine.execPttPress s
  | .pttRelease => Sys2Proof.Machine.execPttRelease s
  | .camPrivacyOn => Sys2Proof.Machine.execCamPrivacyOn s
  | .camPrivacyOff => Sys2Proof.Machine.execCamPrivacyOff s
  | .jtagTrst => Sys2Proof.Machine.execJtagTrst s
  | .targetStateWrite ep value => Sys2Proof.Machine.execTargetStateWrite ep value s
  | .wakeTargetWrite ep source value => Sys2Proof.Machine.execWakeTargetWrite ep source value s
  | .idleTimerExpiry => Sys2Proof.Machine.execIdleTimerExpiry s
  | .entryStart => Sys2Proof.Machine.execEntryStart s
  | .linkQuiesced => Sys2Proof.Machine.execLinkQuiesced s
  | .linkQuiesceTimeout => Sys2Proof.Machine.execLinkQuiesceTimeout s
  | .entryDrainComplete => Sys2Proof.Machine.execEntryDrainComplete s
  | .drainTimeout u => Sys2Proof.Machine.execDrainTimeout u s
  | .exitStart => Sys2Proof.Machine.execExitStart s
  | .exitStepComplete => Sys2Proof.Machine.execExitStepComplete s
  | .exitComplete => Sys2Proof.Machine.execExitComplete s
  | .transitionLatencyExpired => Sys2Proof.Machine.execTransitionLatencyExpired s
  | .comparatorTrigger channel => Sys2Proof.Machine.execComparatorTrigger channel s
  | .baseLiftRun => Sys2Proof.Machine.execBaseLiftRun s
  | .prewakeWindowExpiry => Sys2Proof.Machine.execPrewakeWindowExpiry s
  | .baseHoldExpiry => Sys2Proof.Machine.execBaseHoldExpiry s
  | .midLiftRun => Sys2Proof.Machine.execMidLiftRun s
  | .midDecisionTimeout => Sys2Proof.Machine.execMidDecisionTimeout s
  | .baseProgram ep tenant address => Sys2Proof.Machine.execBaseProgram ep tenant address s
  | .baseDisarm ep tenant => Sys2Proof.Machine.execBaseDisarm ep tenant s
  | .baseLoadWindow ep tenant data => Sys2Proof.Machine.execBaseLoadWindow ep tenant data s
  | .baseTenantWrite ep value => Sys2Proof.Machine.execBaseTenantWrite ep value s
  | .midProgram ep tenant address => Sys2Proof.Machine.execMidProgram ep tenant address s
  | .envelopeBoundWrite ep bound value => Sys2Proof.Machine.execEnvelopeBoundWrite ep bound value s
  | .vfLoopStep demand0 demand1 demand2 demand3 => Sys2Proof.Machine.execVfLoopStep demand0 demand1 demand2 demand3 s
  | .thermalThrottleStep die tj => Sys2Proof.Machine.execThermalThrottleStep die tj s
  | .thermalRecoveryStep die tj => Sys2Proof.Machine.execThermalRecoveryStep die tj s
  | .thermalCritical die tj => Sys2Proof.Machine.execThermalCritical die tj s
  | .thermalCooled die tj => Sys2Proof.Machine.execThermalCooled die tj s
  | .coreService ep core value => Sys2Proof.Machine.execCoreService ep core value s
  | .coreGrant ep tenant rink value => Sys2Proof.Machine.execCoreGrant ep tenant rink value s
  | .lcPermittedWrite ep tenant value => Sys2Proof.Machine.execLcPermittedWrite ep tenant value s
  | .wayGrant ep tenant rink value => Sys2Proof.Machine.execWayGrant ep tenant rink value s
  | .channelGrant ep tenant value => Sys2Proof.Machine.execChannelGrant ep tenant value s
  | .lodgeSegOwner ep seg value => Sys2Proof.Machine.execLodgeSegOwner ep seg value s
  | .budgetShareWrite ep tenant which resource value => Sys2Proof.Machine.execBudgetShareWrite ep tenant which resource value s
  | .schedulerDecision rink => Sys2Proof.Machine.execSchedulerDecision rink s
  | .beQuantumExpiry core => Sys2Proof.Machine.execBeQuantumExpiry core s
  | .switchComplete core switchNs waited => Sys2Proof.Machine.execSwitchComplete core switchNs waited s
  | .budgetPeriodBoundary => Sys2Proof.Machine.execBudgetPeriodBoundary s
  | .matmul rink tenant lc => Sys2Proof.Machine.execMatmul rink tenant lc s
  | .matmulBwd rink tenant lc => Sys2Proof.Machine.execMatmulBwd rink tenant lc s
  | .conv rink tenant lc => Sys2Proof.Machine.execConv rink tenant lc s
  | .dwconv rink tenant lc => Sys2Proof.Machine.execDwconv rink tenant lc s
  | .tconv rink tenant lc => Sys2Proof.Machine.execTconv rink tenant lc s
  | .attend rink tenant lc => Sys2Proof.Machine.execAttend rink tenant lc s
  | .attendBwd rink tenant lc => Sys2Proof.Machine.execAttendBwd rink tenant lc s
  | .scan rink tenant lc => Sys2Proof.Machine.execScan rink tenant lc s
  | .filter rink tenant lc => Sys2Proof.Machine.execFilter rink tenant lc s
  | .cropResize rink tenant lc => Sys2Proof.Machine.execCropResize rink tenant lc s
  | .warp rink tenant lc => Sys2Proof.Machine.execWarp rink tenant lc s
  | .elementwise rink tenant lc => Sys2Proof.Machine.execElementwise rink tenant lc s
  | .reduce rink tenant lc => Sys2Proof.Machine.execReduce rink tenant lc s
  | .gather rink tenant lc => Sys2Proof.Machine.execGather rink tenant lc s
  | .scatter rink tenant lc => Sys2Proof.Machine.execScatter rink tenant lc s
  | .copy rink tenant lc => Sys2Proof.Machine.execCopy rink tenant lc s
  | .fuseBegin rink tenant lc => Sys2Proof.Machine.execFuseBegin rink tenant lc s
  | .fuseEnd rink tenant lc => Sys2Proof.Machine.execFuseEnd rink tenant lc s
  | .barrier rink tenant lc => Sys2Proof.Machine.execBarrier rink tenant lc s
  | .barrierRelease tenant lc => Sys2Proof.Machine.execBarrierRelease tenant lc s
  | .fence rink tenant lc => Sys2Proof.Machine.execFence rink tenant lc s
  | .checkpoint rink tenant lc => Sys2Proof.Machine.execCheckpoint rink tenant lc s
  | .ticketClaim core => Sys2Proof.Machine.execTicketClaim core s
  | .tileComplete core mismatches column use => Sys2Proof.Machine.execTileComplete core mismatches column use s
  | .streamFetch rink tenant lc => Sys2Proof.Machine.execStreamFetch rink tenant lc s
  | .rinkFillComplete rink tenant lc address link => Sys2Proof.Machine.execRinkFillComplete rink tenant lc address link s
  | .refreshTick temps => Sys2Proof.Machine.execRefreshTick temps s
  | .run fn q => Sys2Proof.Machine.execRun fn q s
  | .copyIn fn q => Sys2Proof.Machine.execCopyIn fn q s
  | .copyOut fn q => Sys2Proof.Machine.execCopyOut fn q s
  | .streamPost fn q => Sys2Proof.Machine.execStreamPost fn q s
  | .loadFirmware fn q => Sys2Proof.Machine.execLoadFirmware fn q s
  | .resume fn q => Sys2Proof.Machine.execResume fn q s
  | .abandon fn q => Sys2Proof.Machine.execAbandon fn q s
  | .nop fn q => Sys2Proof.Machine.execNop fn q s
  | .loadBase fn q => Sys2Proof.Machine.execLoadBase fn q s
  | .mbDoorbell fn request => Sys2Proof.Machine.execMbDoorbell fn request s
  | .mbRespAck fn => Sys2Proof.Machine.execMbRespAck fn s
  | .mbEventAck fn => Sys2Proof.Machine.execMbEventAck fn s
  | .sqTail fn q entries tail => Sys2Proof.Machine.execSqTail fn q entries tail s
  | .cqHead fn q head => Sys2Proof.Machine.execCqHead fn q head s
  | .streamDoorbell fn value => Sys2Proof.Machine.execStreamDoorbell fn value s
  | .barWriteIgnored fn w => Sys2Proof.Machine.execBarWriteIgnored fn w s
  | .qEnable ep tenant q value => Sys2Proof.Machine.execQEnable ep tenant q value s
  | .streamEnable ep tenant ctx value => Sys2Proof.Machine.execStreamEnable ep tenant ctx value s
  | .streamCommit ep tenant value => Sys2Proof.Machine.execStreamCommit ep tenant value s
  | .streamBlockBoundary ctx block srcDesc snkDesc sampleTime => Sys2Proof.Machine.execStreamBlockBoundary ctx block srcDesc snkDesc sampleTime s
  | .netFrameRx port frame => Sys2Proof.Machine.execNetFrameRx port frame s
  | .pcieConfigRequest fn vfEnable => Sys2Proof.Machine.execPcieConfigRequest fn vfEnable s
  | .flr fn => Sys2Proof.Machine.execFlr fn s
  | .linkDown => Sys2Proof.Machine.execLinkDown s
  | .linkL0 speed width => Sys2Proof.Machine.execLinkL0 speed width s
  | .l11Entry => Sys2Proof.Machine.execL11Entry s
  | .l1Exit => Sys2Proof.Machine.execL1Exit s
  | .pmeTurnOff => Sys2Proof.Machine.execPmeTurnOff s
  | .wakeHoldExpiry => Sys2Proof.Machine.execWakeHoldExpiry s
  | .ringBlockBoundary taps => Sys2Proof.Machine.execRingBlockBoundary taps s
  | .chGainWrite ep channel isDelay value => Sys2Proof.Machine.execChGainWrite ep channel isDelay value s
  | .noiseFloorBlock channel => Sys2Proof.Machine.execNoiseFloorBlock channel s
  | .thresholdLoopStep => Sys2Proof.Machine.execThresholdLoopStep s
  | .micbiasFault b => Sys2Proof.Machine.execMicbiasFault b s
  | .micbiasFaultClear b => Sys2Proof.Machine.execMicbiasFaultClear b s
  | .latchExpiry => Sys2Proof.Machine.execLatchExpiry s
  | .ringConfigWrite ep isBits value => Sys2Proof.Machine.execRingConfigWrite ep isBits value s
  | .start ep tenant => Sys2Proof.Machine.execStart ep tenant s
  | .close ep tenant => Sys2Proof.Machine.execClose ep tenant s
  | .handoverLive => Sys2Proof.Machine.execHandoverLive s
  | .tdmClockLoss port => Sys2Proof.Machine.execTdmClockLoss port s
  | .tdmRelock port ppm => Sys2Proof.Machine.execTdmRelock port ppm s
  | .tdmUnderrun port slot frames => Sys2Proof.Machine.execTdmUnderrun port slot frames s
  | .cameraEnable ep tenant input value => Sys2Proof.Machine.execCameraEnable ep tenant input value s
  | .frameStart port vc sensorFrame ecc => Sys2Proof.Machine.execFrameStart port vc sensorFrame ecc s
  | .frameEnd port vc ecc => Sys2Proof.Machine.execFrameEnd port vc ecc s
  | .linePacket port vc dataType codes crcOk ecc => Sys2Proof.Machine.execLinePacket port vc dataType codes crcOk ecc s
  | .frameTimeout input => Sys2Proof.Machine.execFrameTimeout input s
  | .mempassProcess => Sys2Proof.Machine.execMempassProcess s
  | .ispFrameComplete input => Sys2Proof.Machine.execIspFrameComplete input s
  | .commit ep tenant input value => Sys2Proof.Machine.execCommit ep tenant input value s
  | .queuePush ep tenant input entry => Sys2Proof.Machine.execQueuePush ep tenant input entry s
  | .i3cBusError input => Sys2Proof.Machine.execI3cBusError input s
  | .ispParamsWrite ep input params => Sys2Proof.Machine.execIspParamsWrite ep input params s
  | .camClkWrite ep port value => Sys2Proof.Machine.execCamClkWrite ep port value s
  | .aeEnableWrite ep input value => Sys2Proof.Machine.execAeEnableWrite ep input value s
  | .timeSet ep value => Sys2Proof.Machine.execTimeSet ep value s
  | .timeAdjust ep value => Sys2Proof.Machine.execTimeAdjust ep value s
  | .rateAdj ep value => Sys2Proof.Machine.execRateAdj ep value s
  | .sync port m twoStep => Sys2Proof.Machine.execSync port m twoStep s
  | .followUp port m => Sys2Proof.Machine.execFollowUp port m s
  | .pdelayReq m => Sys2Proof.Machine.execPdelayReq m s
  | .pdelayResp m => Sys2Proof.Machine.execPdelayResp m s
  | .pdelayRespFollowUp m => Sys2Proof.Machine.execPdelayRespFollowUp m s
  | .announce port m a => Sys2Proof.Machine.execAnnounce port m a s
  | .signaling m pdelayLog syncLog announceLog => Sys2Proof.Machine.execSignaling m pdelayLog syncLog announceLog s
  | .delayReq m => Sys2Proof.Machine.execDelayReq m s
  | .delayResp m => Sys2Proof.Machine.execDelayResp m s
  | .ptpManagementDiscard port messageType => Sys2Proof.Machine.execPtpManagementDiscard port messageType s
  | .syncIntervalExpiry port => Sys2Proof.Machine.execSyncIntervalExpiry port s
  | .pdelayIntervalExpiry responseMissing => Sys2Proof.Machine.execPdelayIntervalExpiry responseMissing s
  | .announceIntervalExpiry port => Sys2Proof.Machine.execAnnounceIntervalExpiry port s
  | .delayReqIntervalExpiry => Sys2Proof.Machine.execDelayReqIntervalExpiry s
  | .syncReceiptTimeout port => Sys2Proof.Machine.execSyncReceiptTimeout port s
  | .errorBoundTick => Sys2Proof.Machine.execErrorBoundTick s
  | .arpRequest port senderMac senderIp targetIp => Sys2Proof.Machine.execArpRequest port senderMac senderIp targetIp s
  | .neighborSolicitation port senderMac senderIp target => Sys2Proof.Machine.execNeighborSolicitation port senderMac senderIp target s
  | .net0LinkChange rate => Sys2Proof.Machine.execNet0LinkChange rate s
  | .mdioAccess ep value => Sys2Proof.Machine.execMdioAccess ep value s
  | .plcaBeaconLoss => Sys2Proof.Machine.execPlcaBeaconLoss s
  | .wakeFrame dest etherType payload => Sys2Proof.Machine.execWakeFrame dest etherType payload s
  | .txtsQueue ep port => Sys2Proof.Machine.execTxtsQueue ep port s
  | .tioMode ep tenant n value => Sys2Proof.Machine.execTioMode ep tenant n value s
  | .timeIoEdge n falling => Sys2Proof.Machine.execTimeIoEdge n falling s
  | .captureQueue ep tenant n => Sys2Proof.Machine.execCaptureQueue ep tenant n s
  | .pulseEdge n => Sys2Proof.Machine.execPulseEdge n s
  | .trigActions ep tenant n value => Sys2Proof.Machine.execTrigActions ep tenant n value s
  | .trigTargetWrite ep tenant n isPeriod value => Sys2Proof.Machine.execTrigTargetWrite ep tenant n isPeriod value s
  | .triggerFire => Sys2Proof.Machine.execTriggerFire s
  | .triggerSleepWake => Sys2Proof.Machine.execTriggerSleepWake s
  | .admitTenant ep t => Sys2Proof.Machine.execAdmitTenant ep t s
  | .remove ep t => Sys2Proof.Machine.execRemove ep t s
  | .entropyReady => Sys2Proof.Machine.execEntropyReady s
  | .entropyHealthFail => Sys2Proof.Machine.execEntropyHealthFail s
  | .keyRequestTimeout => Sys2Proof.Machine.execKeyRequestTimeout s
  | .certChain ep chain => Sys2Proof.Machine.execCertChain ep chain s
  | .debugToken ep token => Sys2Proof.Machine.execDebugToken ep token s
  | .measureRequest ep tenant request => Sys2Proof.Machine.execMeasureRequest ep tenant request s
  | .consentWrite ep tenant isProfile value => Sys2Proof.Machine.execConsentWrite ep tenant isProfile value s
  | .getVersion msg => Sys2Proof.Machine.execGetVersion msg s
  | .getCapabilities msg => Sys2Proof.Machine.execGetCapabilities msg s
  | .negotiateAlgorithms msg => Sys2Proof.Machine.execNegotiateAlgorithms msg s
  | .getDigests msg => Sys2Proof.Machine.execGetDigests msg s
  | .getCertificate msg => Sys2Proof.Machine.execGetCertificate msg s
  | .challenge msg => Sys2Proof.Machine.execChallenge msg s
  | .getMeasurements session msg => Sys2Proof.Machine.execGetMeasurements session msg s
  | .keyExchange msg => Sys2Proof.Machine.execKeyExchange msg s
  | .finish session msg => Sys2Proof.Machine.execFinish session msg s
  | .endSession session msg => Sys2Proof.Machine.execEndSession session msg s
  | .spdmHeartbeat session msg => Sys2Proof.Machine.execSpdmHeartbeat session msg s
  | .keyUpdate session msg => Sys2Proof.Machine.execKeyUpdate session msg s
  | .query session port => Sys2Proof.Machine.execQuery session port s
  | .keyProg session stream keySet subStream tx keyIv => Sys2Proof.Machine.execKeyProg session stream keySet subStream tx keyIv s
  | .kSetGo session stream keySet subStream tx => Sys2Proof.Machine.execKSetGo session stream keySet subStream tx s
  | .kSetStop session stream keySet subStream tx => Sys2Proof.Machine.execKSetStop session stream keySet subStream tx s
  | .getTdispVersion session fn => Sys2Proof.Machine.execGetTdispVersion session fn s
  | .getTdispCapabilities session fn => Sys2Proof.Machine.execGetTdispCapabilities session fn s
  | .lockInterfaceRequest session fn stream => Sys2Proof.Machine.execLockInterfaceRequest session fn stream s
  | .getDeviceInterfaceReport session fn offset length => Sys2Proof.Machine.execGetDeviceInterfaceReport session fn offset length s
  | .getDeviceInterfaceState session fn => Sys2Proof.Machine.execGetDeviceInterfaceState session fn s
  | .startInterfaceRequest session fn nonce => Sys2Proof.Machine.execStartInterfaceRequest session fn nonce s
  | .stopInterfaceRequest session fn => Sys2Proof.Machine.execStopInterfaceRequest session fn s
  | .ideIntegrityFail stream => Sys2Proof.Machine.execIdeIntegrityFail stream s
  | .tdiRejectedTlp fn => Sys2Proof.Machine.execTdiRejectedTlp fn s
  | .ftiRoundBoundary => Sys2Proof.Machine.execFtiRoundBoundary s
  | .katRun u failed retestFailed part late => Sys2Proof.Machine.execKatRun u failed retestFailed part late s
  | .scrubStep found correctable bit passComplete => Sys2Proof.Machine.execScrubStep found correctable bit passComplete s
  | .softRepairAdd ep entries => Sys2Proof.Machine.execSoftRepairAdd ep entries s
  | .rccWatchdogExpiry rink => Sys2Proof.Machine.execRccWatchdogExpiry rink s
  | .d2dLinkFault die => Sys2Proof.Machine.execD2dLinkFault die s
  | .dieRestartRequest ep value => Sys2Proof.Machine.execDieRestartRequest ep value s
  | .dieRestartReset die released => Sys2Proof.Machine.execDieRestartReset die released s
  | .snowploughExit die => Sys2Proof.Machine.execSnowploughExit die s
  | .patrolWatchdogExpiry => Sys2Proof.Machine.execPatrolWatchdogExpiry s
  | .vddAonRising => Sys2Proof.Machine.execVddAonRising s
  | .plcaBeaconSeen => Sys2Proof.Machine.execPlcaBeaconSeen s
  | .railBackInRange rail forOneMs => Sys2Proof.Machine.execRailBackInRange rail forOneMs s
  | .hostTransferComplete fn q how data => Sys2Proof.Machine.execHostTransferComplete fn q how data s
  | .measureComplete tenant tagFault => Sys2Proof.Machine.execMeasureComplete tenant tagFault s
  | .mdioOperationEnd data => Sys2Proof.Machine.execMdioOperationEnd data s

end Sys2Proof.Machine
end

