-- ==== Sys2Proof/Safety.lean ====
section
/-!
DEFINITION. The terms in which statements speak of runs: what a command leaves as it was, the canonical form of the
memories, and a request that no check of R30 refuses.
-/

namespace Sys2Proof.Machine

/-! ### What is left as it was -/

/-- The parts of the state beside the object dictionary. -/
inductive Part where
  /-- The commands waiting. -/
  | queue
  /-- The time since power-up and that of the last release of POR_N. -/
  | clock
  | fuses
  | pins
  /-- What carries events and signals: the endpoints' queues and subscriptions, the mailboxes and MSI-X of the functions,
  and what the device has put out. -/
  | delivery
  /-- The keys, windows and kept responses of the network sessions. -/
  | sessions
  /-- Block writes and snapshots in progress. -/
  | transfers
  | spi
  | mismatch
  /-- The WPU objects written, and the log entries and units that have been read or ready. -/
  | marks
  | power
  | base
  | dies
  | audio
  | camera
  | time
  | net
  /-- The queue pairs of the functions. -/
  | jobs
  | streams
  /-- Doorbell order and VF Enable. -/
  | link
  | security
  | integrity
  | compute
  | tenantMem
  | coreMem
  | baseMem
  | hostMem
  /-- The number of free values drawn. -/
  | draws
deriving DecidableEq, Repr

/-- A part is the same in two states. -/
def Part.same : Part → State → State → Prop
  | .queue, s, t => t.pending = s.pending
  | .clock, s, t => t.clock = s.clock ∧ t.porAt = s.porAt
  | .fuses, s, t => t.fuses = s.fuses
  | .pins, s, t => t.pins = s.pins
  | .delivery, s, t => t.eps = s.eps ∧ t.subs = s.subs ∧ t.out = s.out ∧
      t.host.funcs.map (fun f => { f with queues := [] }) = s.host.funcs.map (fun f => { f with queues := [] })
  | .sessions, s, t => t.sessions = s.sessions
  | .transfers, s, t => t.blocks = s.blocks ∧ t.snaps = s.snaps
  | .spi, s, t => t.spi = s.spi
  | .mismatch, s, t => t.mismatch = s.mismatch
  | .marks, s, t => t.written = s.written ∧ t.errRead = s.errRead ∧ t.everReady = s.everReady
  | .power, s, t => t.power = s.power
  | .base, s, t => t.base = s.base
  | .dies, s, t => t.dies = s.dies
  | .audio, s, t => t.audio = s.audio
  | .camera, s, t => t.camera = s.camera
  | .time, s, t => t.time = s.time
  | .net, s, t => t.net = s.net
  | .jobs, s, t => t.host.funcs.map Func.queues = s.host.funcs.map Func.queues
  | .streams, s, t => t.host.streams = s.host.streams
  | .link, s, t => t.host.stamp = s.host.stamp ∧ t.host.vfEnable = s.host.vfEnable
  | .security, s, t => t.security = s.security
  | .integrity, s, t => t.integrity = s.integrity
  | .compute, s, t => t.compute = s.compute
  | .tenantMem, s, t => t.tmem = s.tmem
  | .coreMem, s, t => t.clm = s.clm
  | .baseMem, s, t => t.bmem = s.bmem
  | .hostMem, s, t => t.hmem = s.hmem
  | .draws, s, t => t.free = s.free

/-- The objects that count what carrying an event costs an endpoint: EVENT_DROPS (R37) and the transmit counter of a
session (R43). -/
def carrier (k : Nat) : Prop := (∃ f, f < 32 ∧ k = O.EVENT_DROPS f) ∨ ∃ n, n < 16 ∧ k = O.SESSION_TX_COUNTER n

/-- Of the parts, at most those in `ps` differ, and of the objects at most those with a key in `ks`, besides the
carriers where events may have been carried. -/
def State.Frame (ps : List Part) (ks : List Nat) (s t : State) : Prop :=
  (∀ p, p ∉ ps → p.same s t) ∧
  ∀ k, k ∉ ks → (Part.delivery ∈ ps → ¬ carrier k) → t.val k = s.val k

/-! ### Canonical form -/

/-- Every memory is in its canonical form: addresses rising, no byte at what an unlisted address reads as. -/
def State.memsWf (s : State) : Bool :=
  memWf none s.tmem && memWf (some 0) s.clm && memWf (some 0) s.bmem && memWf none s.hmem

/-! ### Sizes -/

/-- The things the spec gives a fixed number of are that many: endpoints, session slots, dies, functions with their queue
pairs, stream contexts, cores, Rinks, channels, camera inputs, tenants, IDE streams, balls and units. -/
def State.sized (s : State) : Bool :=
  s.eps.length == 49 && s.sessions.length == 16 && s.dies.length == 2 && s.pins.tioLevel.length == 4 &&
  s.host.funcs.length == 32 && s.host.funcs.all (fun f => f.queues.length == 8) && s.host.streams.length == 96 &&
  s.compute.cores.length == 16 && s.compute.rinks.length == 4 && s.compute.rinks.all (fun r => r.ctx.length == 4) &&
  s.compute.gens.length == 32 && s.compute.applied.length == 32 && s.audio.ch.length == 8 &&
  s.camera.ins.length == 16 &&
  s.net.captures.length == 4 && s.net.captureSeq.length == 4 && s.net.trains.length == 4 &&
  s.security.slots.length == 32 && s.security.progLogs.length == 32 && s.security.images.length == 3 &&
  s.security.ide.length == 5 && s.security.tdiNonce.length == 32 && s.security.tdiStream.length == 32 &&
  s.integrity.lastPass.length == 54 && s.integrity.causeRound.length == 32 && s.integrity.claims.length == 16 &&
  s.integrity.causes.length == 2

end Sys2Proof.Machine
end

