-- ==== Sys2Proof/Certificates/Slice0/Obligations.lean ====
section
/-!
DEFINITION. The statements for the provers. Each says what commands do, from the spec's numbered rules: where a command
completes, what its next state holds, and what it leaves as it was.
-/

open Sys2Proof Sys2Proof.Machine

/-! ### Steps and reset -/

/-- The step: the command in front of the queue is executed on the state with the queue's rest. -/
def Obligations.StepRunsTheFrontCommand : Prop :=
  ∀ (s : State) (c : Instr) (rest : List Instr), s.pending = c :: rest → step s = exec c { s with pending := rest }

/-- With no command waiting a step is one cycle of TIME_CLK, 4 ns of device time: time passes and nothing else happens
(the model's choice, log entry 2). -/
def Obligations.EmptyQueueLetsTimePass : Prop :=
  ∀ s : State, s.pending = [] →
    ∃ t, step s = .next t ∧ t.clock = s.clock + 4 ∧ t.porAt = s.porAt ∧ s.Frame [.clock, .time] [] t

/-- R21, R61: right after power-up every object has its After power-up value, of which some of Tables 1.13, 4.9, 5.13 and
12.8 are named here; nothing is ready, the memories list nothing and no command waits. The invariants of
StepsKeepForm hold. -/
def Obligations.ResetHoldsPowerUpValues : Prop :=
  (∀ k, State.reset.val k = dictDefault State.reset.fuses k) ∧
  State.reset.rd O.READY = 0 ∧ State.reset.rd O.HELD = 0 ∧ State.reset.rd O.CONFIG_STATE = 0 ∧
  State.reset.rd O.DEVICE_SAFE = 0 ∧ State.reset.rd O.TARGET_STATE = 4 ∧ State.reset.rd O.POWER_STATE = 4 ∧
  State.reset.rd O.RESET_CAUSE = 0 ∧ (∀ t, t < 32 → State.reset.rd (O.BASE_PROGRAM t) = 0xFFFFFFFF) ∧
  State.reset.pending = [] ∧ State.reset.tmem = [] ∧ State.reset.clm = [] ∧ State.reset.bmem = [] ∧
  State.reset.compute.acts = [] ∧ State.reset.alive = false ∧ State.reset.memsWf = true ∧ State.reset.sized = true

/-- POR_N_ASSERT, VDD_AON_RISING and JTAG_TRST (R63, R104): a device-wide reset gives every object but the cause and the
count of watchdog resets its After power-up value and empties every memory of the package; what the host's memory holds
and what the device has put out stay. Below 2 µs nothing happens; between, the pulse is forbidden. The TAP's reset
touches nothing else. -/
def Obligations.ResetsRestorePowerUpValues : Prop :=
  (∀ (s : State) (lowNs : Nat), s.released = true → 10000 ≤ lowNs →
    ∃ t, exec (.porNAssert lowNs) s = .next t ∧ t.rd O.RESET_CAUSE = 1 ∧ t.rd O.WDOG_RESETS = s.rd O.WDOG_RESETS ∧
      (∀ k, k ≠ O.RESET_CAUSE → k ≠ O.WDOG_RESETS → t.val k = dictDefault s.fuses k) ∧
      t.fuses = s.fuses ∧ t.pins.porN = false ∧ t.tmem = [] ∧ t.clm = [] ∧ t.bmem = [] ∧ t.compute.acts = [] ∧
      t.sessions = State.reset.sessions ∧ t.subs = [] ∧ t.pending = s.pending ∧ t.hmem = s.hmem ∧ t.out = s.out) ∧
  (∀ (s : State) (lowNs : Nat), s.released = true → lowNs < 2000 → exec (.porNAssert lowNs) s = .next s) ∧
  (∀ (s : State) (lowNs : Nat), s.released = true → 2000 ≤ lowNs → lowNs < 10000 →
    exec (.porNAssert lowNs) s = .fault .forbiddenPulse) ∧
  (∀ s : State, ∃ t, exec .vddAonRising s = .next t ∧ (∀ k, t.val k = dictDefault s.fuses k) ∧ t.fuses = s.fuses ∧
      t.pins.porN = false ∧ t.pins.powered = true ∧ t.tmem = [] ∧ t.clm = [] ∧ t.bmem = [] ∧ t.compute.acts = [] ∧
      t.sessions = State.reset.sessions ∧ t.pending = s.pending ∧ t.hmem = s.hmem ∧ t.out = s.out) ∧
  (∀ s : State, s.pins.powered = true →
    ∃ t, exec .jtagTrst s = .next t ∧ t.pins = { s.pins with tapReset := true } ∧ s.Frame [.pins] [] t)

/-- POR_N_RELEASE (R107, R61, R72, R96): with the reference within its window bring-up starts, the bank levels are
sampled and ALIVE toggles; a high TEST_EN, a failed self-test of the always-on control or a failed reference puts the
device in its safe state instead. -/
def Obligations.ReleaseStartsBringup : Prop :=
  ∀ (s : State) (ptt priv : Bool) (b : BankMv), s.pins.powered = true → s.pins.porN = false →
    s.rd O.DEVICE_SAFE = 0 →
    (∃ t, exec (.porNRelease true false false ptt priv b) s = .next t ∧ t.pins.porN = true ∧ t.power.bringup = true ∧
      t.pins.alive = true ∧ t.rd O.REF38_STATE = 1 ∧ t.rd (O.DOMAIN_POWER 76) = 2 ∧ t.rd O.DEVICE_SAFE = 0 ∧
      t.rd (O.BANK_LEVEL 0) = bankLevel false b.aon ∧ t.rd (O.BANK_LEVEL 1) = bankLevel true b.cam ∧
      t.rd (O.BANK_LEVEL 2) = bankLevel false b.aud ∧ t.rd (O.BANK_LEVEL 3) = bankLevel false b.net ∧
      t.rd (O.BANK_LEVEL 4) = bankLevel false b.gen ∧ t.porAt = s.clock ∧ t.pins.pttBlocked = ptt ∧
      t.pins.privRaw = priv ∧ t.rd O.READY = s.rd O.READY ∧
      s.Frame [.pins, .clock, .power, .delivery, .marks]
        ([O.REF38_STATE, O.AON_FAST_TRIM, O.DOMAIN_POWER 76, O.ERRLOG_WRITTEN, O.ERRLOG_OVERWRITTEN] ++
          (List.range 5).map O.BANK_LEVEL ++ (List.range 64).map O.ERRLOG_RECORD) t) ∧
    (∀ ref bist, ∃ t, exec (.porNRelease ref true bist ptt priv b) s = .next t ∧ t.rd O.DEVICE_SAFE = 1 ∧
      t.rd O.SAFE_CAUSE = 9 ∧ t.pins.faultAsserted = true ∧ t.pins.porN = true) ∧
    (∀ ref, ∃ t, exec (.porNRelease ref false true ptt priv b) s = .next t ∧ t.rd O.DEVICE_SAFE = 1 ∧
      t.rd O.SAFE_CAUSE = 8 ∧ t.pins.faultAsserted = true) ∧
    (∃ t, exec (.porNRelease false false false ptt priv b) s = .next t ∧ t.rd O.DEVICE_SAFE = 1 ∧
      t.rd O.SAFE_CAUSE = 3 ∧ t.rd O.REF38_STATE = 2 ∧ t.pins.faultAsserted = true)

/-- AON_UNDERVOLTAGE, RAIL_EXCURSION of VDD_AON and WATCHDOG_EXPIRY (R84, R105): the device resets from within and starts
bring-up again, naming the cause; a watchdog reset within 10 s of the last puts it in its safe state. -/
def Obligations.InternalResetsRestart : Prop :=
  (∀ s : State, s.released = true → s.pins.testEn = false → s.pins.refInRange = true →
    ∃ t, exec .aonUndervoltage s = .next t ∧ t.rd O.RESET_CAUSE = 2 ∧ t.power.bringup = true ∧ t.pins.porN = true ∧
      t.rd O.READY = 0 ∧ t.tmem = [] ∧ t.clm = [] ∧ t.compute.acts = [] ∧ t.hmem = s.hmem ∧
      t.rd O.WDOG_RESETS = s.rd O.WDOG_RESETS) ∧
  (∀ (s : State) (mv : Fin 65536), s.released = true → s.pins.testEn = false → s.pins.refInRange = true →
    mv.val < 720 → exec (.railExcursion 1 false mv) s = exec .aonUndervoltage s) ∧
  (∀ s : State, s.alive = true → s.pins.testEn = false → s.pins.refInRange = true → s.rd O.WDOG_RESETS < 255 →
    (∀ c, s.pins.lastWdog = some c → c + 10000000000 < s.clock) →
    ∃ t, exec .watchdogExpiry s = .next t ∧ t.rd O.RESET_CAUSE = 3 ∧ t.rd O.WDOG_RESETS = s.rd O.WDOG_RESETS + 1 ∧
      t.power.bringup = true ∧ t.rd O.DEVICE_SAFE = 0 ∧ t.pins.lastWdog = some s.clock ∧ t.rd O.READY = 0 ∧
      t.compute.acts = []) ∧
  (∀ (s : State) (c : Nat), s.alive = true → s.pins.lastWdog = some c → s.clock ≤ c + 10000000000 →
    ∃ t, exec .watchdogExpiry s = .next t ∧ t.rd O.RESET_CAUSE = 3 ∧ t.rd O.DEVICE_SAFE = 1 ∧ t.rd O.SAFE_CAUSE = 6 ∧
      t.pins.faultAsserted = true)

/-- UNIT_READY and READY_TIMEOUT (R108, R53): a unit that comes up and passes its self-test sets READY; one that fails it,
or does neither in time, sets HELD. -/
def Obligations.UnitsReportReadyOrHeld : Prop :=
  ∀ (s : State) (u : Fin 54), s.alive = true → s.comingUp u = true →
    (∃ t, exec (.unitReady u true []) s = .next t ∧ t.ready u = true ∧ t.held u = false) ∧
    (∃ t, exec (.unitReady u false []) s = .next t ∧ t.ready u = false ∧ t.held u = true) ∧
    (∃ t, exec (.readyTimeout u) s = .next t ∧ t.ready u = false ∧ t.held u = true)

/-! ### Rails, regulators, loops and clocks -/

/-- RAIL_EXCURSION and RAIL_BACK_IN_RANGE (R84, Table 3.3): a rail out of range is acted on once: RAIL_STATUS shows the side,
the I/O-die rail takes the device to its safe state, and the others hold their units until the next release of POR_N.
Back in range, bit 0 is set, and after 1 ms the rail is acted on again. -/
def Obligations.RailsOutOfRangeAreActedOnOnce : Prop :=
  (∀ (s : State) (rail : Fin 9) (high : Bool) (mv : Fin 65536), s.alive = true → s.ready 0x33 = true → rail ≠ 1 →
    s.pins.railActed.testBit rail = false →
    ∃ t, exec (.railExcursion rail high mv) s = .next t ∧ t.pins.railActed.testBit rail = true ∧
      t.rd (O.RAIL_MV rail) = mv ∧ (t.rd (O.RAIL_STATUS rail)).testBit 0 = false ∧
      (t.rd (O.RAIL_STATUS rail)).testBit (if high then 2 else 1) = true ∧
      (rail = 0 → t.rd O.DEVICE_SAFE = 1 ∧ t.rd O.SAFE_CAUSE = 1 ∧ t.pins.faultAsserted = true) ∧
      (2 ≤ rail.val → rail.val ≤ 5 → ∀ u, 0x19 ≤ u → u ≤ 0x1C → t.held u = true ∧ t.integrity.lost.testBit u = true) ∧
      (rail = 6 ∨ rail = 7 → ∀ u, 0x20 ≤ u → u ≤ 0x24 → t.held u = true ∧ t.integrity.lost.testBit u = true) ∧
      (rail = 8 → t.held 0x27 = true ∧ t.integrity.lost.testBit 0x27 = true)) ∧
  (∀ (s : State) (rail : Fin 9) (high : Bool) (mv : Fin 65536), s.alive = true → rail ≠ 1 →
    s.pins.railActed.testBit rail = true → exec (.railExcursion rail high mv) s = .next s) ∧
  (∀ (s : State) (rail : Fin 9) (oneMs : Bool), s.alive = true → s.ready 0x33 = true →
    ∃ t, exec (.railBackInRange rail oneMs) s = .next t ∧ (t.rd (O.RAIL_STATUS rail)).testBit 0 = true ∧
      t.pins.railActed.testBit rail = (s.pins.railActed.testBit rail && !oneMs) ∧
      s.Frame [.pins, .delivery] [O.RAIL_STATUS rail] t)

/-- The objects that an error record is written to. -/
def Sys2Proof.Machine.errKeys : List Nat :=
  [O.ERRLOG_WRITTEN, O.ERRLOG_OVERWRITTEN] ++ (List.range 64).map O.ERRLOG_RECORD

/-- What the removal of a phase leaves in the objects of its regulator (R87, R88). Where phases enough are left for the
load, nothing else changes but the error log. -/
def Sys2Proof.Machine.State.phaseRemoved (s t : State) (g p cause mA : Nat) : Prop :=
  t.rd (O.REG_PHASE_MAP g) = clrBit (s.rd (O.REG_PHASE_MAP g)) p % 65536 ∧
  t.rd (O.REG_PHASES_ACTIVE g) = popCount 8 (clrBit (s.rd (O.REG_PHASE_MAP g)) p) ∧
  t.rd (O.REG_ILIMIT_MA g) = min (railRating g) (popCount 8 (clrBit (s.rd (O.REG_PHASE_MAP g)) p) * phaseMa g) ∧
  t.rd (O.REG_PHASE_CAUSE g) = s.rd (O.REG_PHASE_CAUSE g) + cause * 4 ^ p ∧
  (g = 2 → popCount 8 (clrBit (s.rd (O.REG_PHASE_MAP g)) p) < 3 → t.rd O.DEVICE_SAFE = 1 ∧ t.rd O.SAFE_CAUSE = 2) ∧
  t.bmem = s.bmem ∧ t.camera = s.camera ∧ t.time = s.time ∧ t.net = s.net ∧
  ((if g = 2 then 3 else 6) ≤ popCount 8 (clrBit (s.rd (O.REG_PHASE_MAP g)) p) → mA ≤ t.rd (O.REG_ILIMIT_MA g) →
    s.Frame [.delivery, .marks] ([O.REG_PHASE_MAP g, O.REG_PHASES_ACTIVE g, O.REG_IOUT_MA g, O.REG_PHASE_CAUSE g,
      O.REG_ILIMIT_MA g] ++ errKeys) t)

/-- PHASE_FAIL_OPEN, PHASE_SENSE_DISAGREEMENT, PHASE_OVERCURRENT, BURST_END and HOUSEKEEPING_TICK (R87, R88, R102): the
phase leaves the rotation for its cause, the limit follows the phases that are left, and an I/O regulator with fewer than
three phases takes the device to its safe state. A burst judges the one phase that switches. -/
def Obligations.FailedPhasesLeaveTheRotation : Prop :=
  (∀ (s : State) (g : Fin 3) (p : Fin 8) (l : RailLoad), s.alive = true → s.regRuns g = true →
    (s.rd (O.REG_PHASE_MAP g)).testBit p = true →
    (∃ t, exec (.phaseFailOpen g p l) s = .next t ∧ s.phaseRemoved t g p 1 l.totalMa) ∧
    (∃ t, exec (.phaseSenseDisagreement g p l) s = .next t ∧ s.phaseRemoved t g p 2 l.totalMa) ∧
    ∃ t, exec (.phaseOvercurrent g p l) s = .next t ∧ s.phaseRemoved t g p 3 l.totalMa) ∧
  (∀ (s : State) (g : Fin 3) (l : RailLoad) (us : Nat), s.alive = true → s.regBursts g = true →
    (s.rd (O.REG_PHASE_MAP g)).testBit (s.burstPhase g) = true →
    (∀ d, ∃ t, exec (.burstEnd g true d us l) s = .next t ∧ s.phaseRemoved t g (s.burstPhase g) 1 l.totalMa) ∧
    (50 ≤ us → ∃ t, exec (.burstEnd g false true us l) s = .next t ∧ s.phaseRemoved t g (s.burstPhase g) 2 l.totalMa) ∧
    (us < 50 → exec (.burstEnd g false true us l) s = .next s) ∧ exec (.burstEnd g false false us l) s = .next s) ∧
  (∀ (s : State) (g : Fin 3) (l : RailLoad), s.alive = true → s.rd O.POWER_STATE ≤ 2 → s.regBursts g = true →
    (s.rd (O.REG_PHASE_MAP g)).testBit (s.burstPhase g) = true →
    ∃ t, exec (.housekeepingTick (g == 0) (g == 1) (g == 2) l) s = .next t ∧ s.phaseRemoved t g (s.burstPhase g) 2 l.totalMa)

/-- POWER_LIMIT_WINDOW and VF_LOOP_STEP (R93, R135, R136): with a die's power above its limit the ceiling falls by 25 MHz,
never below 200 MHz, else it rises by 25 MHz up to the die's highest FREQ_MAX_MHZ, and REG_FREQ_CEILING reports it; every
Rink takes the frequency that demand and the limits choose, never one above its FREQ_MAX_MHZ. One step a window and no
effect on a die that does not serve are the model's (log entry 34). -/
def Obligations.FrequencyFollowsPowerAndDemand : Prop :=
  (∀ (s : State) (die : Fin 2) (mw : Fin 4294967296), s.alive = true → s.ready 0x33 = true → s.dieServes die = true →
    s.dies.length = 2 →
    ∃ t, exec (.powerLimitWindow die mw) s = .next t ∧ t.rd (O.DIE_POWER_MW die) = mw ∧
      (s.rd (O.DIE_POWER_LIMIT_MW die) < mw.val →
        (t.lim die).powerCeiling = max 200 (min (s.lim die).powerCeiling (s.lim die).regCeiling - 25)) ∧
      (mw.val ≤ s.rd (O.DIE_POWER_LIMIT_MW die) →
        let top := max (s.rd (O.FREQ_MAX_MHZ (2 * die))) (s.rd (O.FREQ_MAX_MHZ (2 * die + 1)))
        (t.lim die).powerCeiling =
          if (s.lim die).powerCeiling < top then min top ((s.lim die).powerCeiling + 25) else (s.lim die).powerCeiling) ∧
      t.rd (O.REG_FREQ_CEILING die) = min (t.lim die).regCeiling (t.lim die).powerCeiling ∧
      (t.lim die).regCeiling = (s.lim die).regCeiling ∧
      s.Frame [.dies, .delivery, .mismatch] [O.DIE_POWER_MW die, O.REG_FREQ_CEILING die, O.RINK_FREQ (2 * die),
        O.RINK_FREQ (2 * die + 1), O.BREACH_CAUSE (2 * die), O.BREACH_CAUSE (2 * die + 1)] t) ∧
  (∀ (s : State) (d0 d1 d2 d3 : Fin 2048), s.alive = true → s.dies.length = 2 →
    ∃ t, exec (.vfLoopStep d0 d1 d2 d3) s = .next t ∧ (t.lim 0).demand = [d0.val, d1.val] ∧
      (t.lim 1).demand = [d2.val, d3.val] ∧
      (∀ r, r < 4 → t.rd (O.RINK_FREQ r) = t.freqNow r ∧
        (s.rd (O.FREQ_MIN_MHZ r) ≤ s.rd (O.FREQ_MAX_MHZ r) → t.rd (O.RINK_FREQ r) ≤ s.rd (O.FREQ_MAX_MHZ r))) ∧
      s.Frame [.dies, .delivery, .mismatch] ((List.range 4).map O.RINK_FREQ ++ (List.range 4).map O.BREACH_CAUSE) t)

/-- THERMAL_THROTTLE_STEP, THERMAL_RECOVERY_STEP, THERMAL_CRITICAL and THERMAL_COOLED (R138): at the threshold the limits
fall by 25 MHz, more than 2 °C below it they rise until they bind no more, at the critical temperature a die stops in the
Snowplough and the I/O die takes the device to its safe state, and a die that waits is released 10 °C below. -/
def Obligations.ThermalLimitsFollowTemperature : Prop :=
  (∀ (s : State) (die : Fin 2) (tj : Int), s.alive = true → s.ready 0x33 = true → s.dies.length = 2 →
    s.rdI 16 O.THERMAL_THROTTLE_C ≤ tj →
    ∃ t, exec (.thermalThrottleStep die tj) s = .next t ∧ t.rd (O.TJ_C die) = toU 16 tj ∧
      (t.lim die).thermal = [max 200 (s.freqNow (2 * die) - 25), max 200 (s.freqNow (2 * die + 1) - 25)] ∧
      s.Frame [.dies, .delivery] [O.TJ_C die, O.RINK_FREQ (2 * die), O.RINK_FREQ (2 * die + 1),
        O.BREACH_CAUSE (2 * die), O.BREACH_CAUSE (2 * die + 1)] t) ∧
  (∀ (s : State) (die : Fin 2) (tj : Int), s.alive = true → s.ready 0x33 = true → s.dies.length = 2 →
    tj + 2 < s.rdI 16 O.THERMAL_THROTTLE_C →
    ∃ t, exec (.thermalRecoveryStep die tj) s = .next t ∧ t.rd (O.TJ_C die) = toU 16 tj ∧
      (∀ i, i < 2 → nth (t.lim die).thermal i 0 =
        if s.wanted (2 * die + i) ≤ nth (s.lim die).thermal i 1200 + 25 then 1200
        else nth (s.lim die).thermal i 1200 + 25) ∧
      s.Frame [.dies, .delivery] [O.TJ_C die, O.RINK_FREQ (2 * die), O.RINK_FREQ (2 * die + 1),
        O.BREACH_CAUSE (2 * die), O.BREACH_CAUSE (2 * die + 1)] t) ∧
  (∀ (s : State) (die : Fin 2) (tj : Int), s.alive = true → s.ready 0x33 = true → s.dies.length = 2 →
    s.rdI 16 O.THERMAL_CRITICAL_C ≤ tj → s.rd (O.DIE_STATE die) < 2 →
    ∃ t, exec (.thermalCritical (die.castLE (by decide)) tj) s = .next t ∧ t.rd (O.DIE_STATE die) = 2 ∧
      t.rd (O.DIE_LAST_CAUSE die) = 6 ∧ (t.lim die).waitCool = true ∧ t.rd (O.RINK_FREQ (2 * die)) = 0 ∧
      t.rd (O.RINK_FREQ (2 * die + 1)) = 0) ∧
  (∀ (s : State) (tj : Int), s.alive = true → s.ready 0x33 = true → s.rdI 16 O.THERMAL_CRITICAL_C ≤ tj →
    ∃ t, exec (.thermalCritical 2 tj) s = .next t ∧ t.rd O.DEVICE_SAFE = 1 ∧ t.rd O.SAFE_CAUSE = 5) ∧
  (∀ (s : State) (die : Fin 2) (tj : Int), s.alive = true → (s.lim die).waitCool = true →
    tj + 10 ≤ s.rdI 16 O.THERMAL_THROTTLE_C →
    ∃ t, exec (.thermalCooled die tj) s = .next t ∧ (t.lim die).waitCool = false ∧ t.rd (O.TJ_C die) = toU 16 tj ∧
      s.Frame [.dies] [O.TJ_C die] t)

/-- REF38_LOSS, PLL_UNLOCK, XTAL32K_QUALIFIED and XTAL32K_FAILURE (R97, R103, Table 4.4): the loss of the reference or of a
PLL of the whole device is the device safe state, a Rink's PLL restarts its die, every other PLL holds what it feeds; the
crystal qualifies once, and a failure stands. -/
def Obligations.ClockFaultsTakeTheirAction : Prop :=
  (∀ s : State, s.alive = true → 3 ≤ s.rd O.POWER_STATE →
    ∃ t, exec .ref38Loss s = .next t ∧ t.rd O.REF38_STATE = 2 ∧ t.rd O.DEVICE_SAFE = 1 ∧ t.rd O.SAFE_CAUSE = 3 ∧
      t.pins.faultAsserted = true) ∧
  (∀ (s : State) (n : Fin 14), s.alive = true → (s.rd O.PLL_LOCKED).testBit n = true →
    ∃ t, exec (.pllUnlock n) s = .next t ∧ (t.rd O.PLL_LOCKED).testBit n = false ∧
      t.rd O.PLL_UNLOCKS = (s.rd O.PLL_UNLOCKS + 1) % 4294967296 ∧
      (n = 0 ∨ n = 3 → t.rd O.DEVICE_SAFE = 1 ∧ t.rd O.SAFE_CAUSE = 4) ∧
      (10 ≤ n.val → 2 ≤ t.rd (O.DIE_STATE ((n.val - 10) / 2)) ∧ t.rd (O.RINK_FREQ (n.val - 10)) = 0) ∧
      (4 ≤ n.val → n.val < 8 → t.held (0x19 + (n.val - 4)) = true) ∧
      (n = 1 ∨ n = 2 ∨ n = 8 ∨ n = 9 → ∀ u, u ∈ pllUnits n → t.held u = true)) ∧
  (∀ s : State, s.alive = true → s.rd O.XTAL32K_STATE = 0 →
    ∃ t, exec .xtal32kQualified s = .next t ∧ t.rd O.XTAL32K_STATE = 1 ∧
      t.rd O.XTAL32K_START = (s.clock - s.porAt) / 1000000 % 65536 ∧
      s.Frame [.delivery] [O.XTAL32K_STATE, O.XTAL32K_START] t) ∧
  (∀ (s : State) (ppm : Fin 4294967296), s.alive = true → s.rd O.XTAL32K_STATE = 1 →
    ∃ t, exec (.xtal32kFailure ppm) s = .next t ∧ t.rd O.XTAL32K_STATE = 2 ∧
      s.Frame [.delivery, .marks] ([O.XTAL32K_STATE, O.ERRLOG_WRITTEN, O.ERRLOG_OVERWRITTEN] ++
        (List.range 64).map O.ERRLOG_RECORD) t) ∧
  (∀ s : State, s.alive = true → s.rd O.XTAL32K_STATE = 2 → exec .xtal32kQualified s = .next s)

/-! ### Balls, the link and power states -/

/-- A request source has acted (R116, R117): it is counted and named, and the pending target is at least its target. -/
def Sys2Proof.Machine.State.requested (s t : State) (src tgt : Nat) : Prop :=
  t.rd O.LAST_REQUEST_SOURCE = src ∧ t.rd (O.REQUEST_COUNT src) = (s.rd (O.REQUEST_COUNT src) + 1) % 4294967296 ∧
  t.rd O.TARGET_STATE = max (s.rd O.TARGET_STATE) tgt

/-- The objects of a request source. -/
def Sys2Proof.Machine.requestKeys (src : Nat) : List Nat :=
  [O.LAST_REQUEST_SOURCE, O.LAST_REQUEST_TIME, O.REQUEST_COUNT src, O.TARGET_STATE]

/-- HOST_WAKE, PTT_PRESS, PTT_RELEASE, CAM_PRIVACY_ON and CAM_PRIVACY_OFF (R68, R70, R71, R116, R349): the balls act as
request sources 2, 1 and 7; a press latches a ring wake where none is latched, and the privacy switch sets PRIVACY. -/
def Obligations.BallsActAsRequestSources : Prop :=
  (∀ s : State, s.alive = true → s.pins.wakeDriven = false →
    ∃ t, exec .hostWake s = .next t ∧ s.requested t 2 (s.rd (O.WAKE_TARGET 2)) ∧
      s.Frame [.power, .delivery] (requestKeys 2) t) ∧
  (∀ s : State, s.alive = true → s.pins.pttPressed = false → s.pins.pttBlocked = false →
    ∃ t, exec .pttPress s = .next t ∧ t.pins = { s.pins with pttPressed := true } ∧
      s.requested t 1 (s.rd (O.WAKE_TARGET 1)) ∧
      (s.audio.ring.latch = none → s.audio.ring.handover = none →
        ∃ w, t.audio.ring.latch = some w ∧ w.source = 1 ∧ w.time = s.timeNow ∧ w.early = false ∧
          t.rd O.RING_STATE = 2 ∧ t.audio.ring.markers = s.audio.ring.markers) ∧
      (s.audio.ring.latch.isSome = true ∨ s.audio.ring.handover.isSome = true →
        t.audio.ring.latch = s.audio.ring.latch ∧
          ∃ w, w.source = 1 ∧ t.audio.ring.markers = s.audio.ring.markers ++ [w]) ∧
      s.Frame [.pins, .power, .audio, .delivery] (requestKeys 1 ++ [O.RING_STATE, O.WAKES_LATCHED]) t) ∧
  (∀ s : State, s.alive = true →
    ∃ t, exec .pttRelease s = .next t ∧ t.pins = { s.pins with pttPressed := false, pttBlocked := false } ∧
      s.Frame [.pins] [] t) ∧
  (∀ s : State, s.alive = true → s.rd O.PRIVACY = 0 →
    ∃ t, exec .camPrivacyOn s = .next t ∧ t.pins = { s.pins with privRaw := true } ∧ t.rd O.PRIVACY = 1 ∧
      t.rd O.PRIVACY_CHANGES = (s.rd O.PRIVACY_CHANGES + 1) % 4294967296 ∧ s.requested t 7 (s.rd (O.WAKE_TARGET 7))) ∧
  (∀ s : State, s.alive = true → s.rd O.PRIVACY = 1 →
    ∃ t, exec .camPrivacyOff s = .next t ∧ t.pins = { s.pins with privRaw := false } ∧ t.rd O.PRIVACY = 0 ∧
      s.requested t 7 (s.rd (O.WAKE_TARGET 7)) ∧ (∀ c ∈ t.camera.ins, c.unsettled = 4) ∧
      s.Frame [.pins, .power, .camera, .delivery] (requestKeys 7 ++ [O.PRIVACY, O.PRIVACY_CHANGES]) t)

/-- PERST_N_ASSERT, PERST_N_RELEASE, LINK_DOWN, LINK_L0, L1_1_ENTRY, L1_EXIT, PME_TURN_OFF and WAKE_HOLD_EXPIRY (R67, R107,
R413, R428, R429, R430): the link's state, its rate and width, CLKREQ_N and WAKE_N. -/
def Obligations.LinkStatesFollowTheLink : Prop :=
  (∀ s : State, s.alive = true →
    ∃ t, exec .perstNAssert s = .next t ∧ t.pins.perstN = false ∧ t.ready 0x20 = false ∧ t.rd O.LINK_STATE = 0 ∧
      t.rd O.LINK_SPEED = 0 ∧ t.rd O.LINK_WIDTH = 0 ∧ t.host.vfEnable = false) ∧
  (∀ s : State, s.alive = true → s.domOn 56 = true → s.rd O.LINK_STATE = 0 →
    ∃ t, exec .perstNRelease s = .next t ∧ t.pins = { s.pins with perstN := true } ∧ t.rd O.LINK_STATE = 1 ∧
      s.Frame [.pins, .delivery] [O.LINK_STATE] t) ∧
  (∀ s : State, s.alive = true → s.rd O.LINK_STATE ≠ 0 →
    ∃ t, exec .linkDown s = .next t ∧ t.rd O.LINK_STATE = 0 ∧ t.rd O.LINK_SPEED = 0 ∧ t.rd O.LINK_WIDTH = 0 ∧
      (2 ≤ s.rd O.LINK_STATE → s.rd O.LINK_STATE ≤ 4 →
        t.rd O.LINK_DOWNS = (s.rd O.LINK_DOWNS + 1) % 4294967296)) ∧
  (∀ (s : State) (v : Fin 6) (w : Fin 9), s.alive = true → s.domOn 56 = true → s.pins.perstN = true → v ≠ 0 →
    w.val ∈ [1, 2, 4, 8] →
    ∃ t, exec (.linkL0 v w) s = .next t ∧ t.rd O.LINK_STATE = 2 ∧ t.rd O.LINK_SPEED = v ∧ t.rd O.LINK_WIDTH = w ∧
      t.rd O.QUIESCE_STATE = 0 ∧ t.pins = { s.pins with wakeDriven := false } ∧
      s.Frame [.pins, .delivery] [O.LINK_STATE, O.LINK_SPEED, O.LINK_WIDTH, O.QUIESCE_STATE] t) ∧
  (∀ s : State, s.alive = true → s.rd O.LINK_STATE = 2 ∨ s.rd O.LINK_STATE = 3 →
    ∃ t, exec .l11Entry s = .next t ∧ t.rd O.LINK_STATE = 4 ∧ t.pins = { s.pins with clkreqAsserted := false } ∧
      s.Frame [.pins, .delivery] [O.LINK_STATE] t) ∧
  (∀ s : State, s.alive = true → s.rd O.LINK_STATE = 3 ∨ s.rd O.LINK_STATE = 4 →
    ∃ t, exec .l1Exit s = .next t ∧ t.rd O.LINK_STATE = 3 ∧ t.pins = { s.pins with clkreqAsserted := true } ∧
      s.Frame [.pins, .delivery] [O.LINK_STATE] t) ∧
  (∀ s : State, s.alive = true → 2 ≤ s.rd O.LINK_STATE → s.rd O.LINK_STATE ≤ 4 →
    ∃ t, exec .pmeTurnOff s = .next t ∧ t.rd O.LINK_STATE = 5 ∧ t.rd O.QUIESCE_STATE = 2) ∧
  (∀ s : State, s.alive = true →
    ∃ t, exec .wakeHoldExpiry s = .next t ∧ t.pins = { s.pins with wakeDriven := false } ∧ s.Frame [.pins] [] t)

/-- PCIE_CONFIG_REQUEST and FLR (R412, R430): a configuration request is answered with Retry Status until the PCIe unit is
ready, with an error by a function that is not enabled, and VF Enable follows the PF's write; an FLR disables the
function's queues and ends its interface. -/
def Obligations.FunctionsAnswerAndReset : Prop :=
  (∀ (s : State) (f : Fin 32) (v : Option Bool), s.alive = true → s.pins.perstN = true →
    ∃ t, exec (.pcieConfigRequest f v) s = .next t ∧
      (s.ready 0x20 = false → t.out = .pcie 2 [] :: s.out ∧ t.host = s.host) ∧
      (s.ready 0x20 = true → f ≠ 0 → s.host.vfEnable = false → t.out = .pcie 1 [] :: s.out ∧ t.host = s.host) ∧
      (s.ready 0x20 = true → f = 0 ∨ s.host.vfEnable = true → t.out = .pcie 0 [] :: s.out ∧
        t.host.vfEnable = (if f = 0 then v.getD s.host.vfEnable else s.host.vfEnable)) ∧
      s.Frame [.delivery, .link] [] t) ∧
  (∀ (s : State) (f : Fin 32), s.alive = true → s.linkUp = true → f = 0 ∨ s.host.vfEnable = true →
    ∃ t, exec (.flr f) s = .next t ∧ t.rd O.FLR_COUNT = (s.rd O.FLR_COUNT + 1) % 4294967296 ∧ t.rd (O.TDI_STATE f) = 0 ∧
      (∀ q, q < 8 → t.rd (O.Q_ENABLE q f) = 0 ∧ t.rd (O.Q_STATE q f) = 0 ∧ t.rd (O.Q_FAULT_CAUSE q f) = 0) ∧
      (∀ b ∈ t.subs, b.ep ≠ f) ∧ (f = 0 → t.host.vfEnable = false))

/-- A transition that leaves, abandoned or refused: it has ended where it began (R118, R121). -/
def Sys2Proof.Machine.State.gaveUp (s t : State) (counter : Nat) : Prop :=
  t.power.trans = none ∧ t.rd O.TRANSITION_STEP = 0 ∧ t.rd O.TRANSITION_ORIGIN = 0 ∧ t.rd counter = (s.rd counter + 1) % 4294967296 ∧ t.rd O.POWER_STATE = s.rd O.POWER_STATE ∧
  s.Frame ([.power, .delivery] ++ if counter = O.EXIT_ABORTS then [.time] else [])
    ([O.ENTRY_REFUSALS, O.ENTRY_ABORTS, O.EXIT_ABORTS, O.LAST_REFUSAL, O.TARGET_STATE, O.TRANSITION_STEP,
      O.TRANSITION_ORIGIN, O.REFUSED_BY_UNIT s.power.unit] ++ (List.range 256).map O.REFUSED_BY_UNIT ++
      if counter = O.EXIT_ABORTS then [O.PLL_LOCKED] else []) t

/-- ENTRY_START, LINK_QUIESCED, LINK_QUIESCE_TIMEOUT, ENTRY_DRAIN_COMPLETE and DRAIN_TIMEOUT (R118-R121, R429): an entry that
a condition refuses ends with the target at its origin; else claims stop, the units drain, and the destination is
reached, unless the pending target has moved to the far side of the origin at an abort point. -/
def Obligations.EntriesAreRefusedAbandonedOrReachTheirState : Prop :=
  (∀ s : State, s.alive = true → s.power.trans = none → s.power.bringup = false →
    s.rd O.TARGET_STATE < s.rd O.POWER_STATE →
    let s0 := s.put O.TRANSITION_ORIGIN (.n (s.rd O.POWER_STATE))
    let dest := s.rd O.TARGET_STATE
    ∃ t, exec .entryStart s = .next t ∧ t.rd O.POWER_STATE = s.rd O.POWER_STATE ∧
      (s0.dieWait dest = false → (s0.refusal dest).isSome = true →
        s.gaveUp t O.ENTRY_REFUSALS ∧ t.rd O.TARGET_STATE = s.rd O.POWER_STATE) ∧
      (s0.dieWait dest = false → s0.refusal dest = none → dest ≤ 2 → 3 ≤ s.rd O.POWER_STATE → s0.linkQuiet = false →
        t.rd O.QUIESCE_STATE = 1 ∧ t.rd O.TRANSITION_STEP = 0x10 ∧ t.power.trans.map Trans.dest = some dest) ∧
      (s0.dieWait dest = false → s0.refusal dest = none → 2 < dest ∨ s.rd O.POWER_STATE < 3 ∨ s0.linkQuiet = true →
        t.rd O.TRANSITION_STEP = 0x12 ∧ t.power.trans.map Trans.step = some 0x12 ∧
          t.power.trans.map Trans.dest = some dest)) ∧
  (∀ (s : State) (x : Trans), s.alive = true → s.power.trans = some x → x.dest < x.origin → x.step = 0x10 →
    s.linkQuiet = true → s.dieWait x.dest = false →
    ∃ t, exec .linkQuiesced s = .next t ∧
      (s.farSide x = false → t.power.trans = some { x with step := 0x12 } ∧ t.rd O.TRANSITION_STEP = 0x12) ∧
      (s.farSide x = true → s.gaveUp t O.ENTRY_ABORTS)) ∧
  (∀ (s : State) (x : Trans), s.alive = true → s.power.trans = some x → x.dest < x.origin → x.step = 0x10 →
    x.dest ≤ 2 → s.linkQuiet = false →
    ∃ t, exec .linkQuiesceTimeout s = .next t ∧ s.gaveUp t O.ENTRY_REFUSALS ∧ t.rd O.TARGET_STATE = x.origin ∧
      t.rd (O.REFUSED_BY_UNIT 0x20) = (s.rd (O.REFUSED_BY_UNIT 0x20) + 1) % 4294967296) ∧
  (∀ (s : State) (x : Trans), s.alive = true → s.power.trans = some x → x.dest < x.origin → x.origin ≤ 4 →
    x.step = 0x12 → s.drained x = true →
    ∃ t, exec .entryDrainComplete s = .next t ∧
      (s.farSide x = false → t.power.trans = none ∧ t.rd O.POWER_STATE = x.dest ∧ t.rd O.TRANSITION_STEP = 0) ∧
      (s.farSide x = true → s.gaveUp t O.ENTRY_ABORTS)) ∧
  (∀ (s : State) (x : Trans) (u : Fin 54), s.alive = true → s.power.trans = some x → x.dest < x.origin →
    unitExists u = true → s.leaving x u = true → x.step = 0x12 →
    ∃ t, exec (.drainTimeout u) s = .next t ∧ s.gaveUp t O.ENTRY_REFUSALS ∧ t.rd O.TARGET_STATE = x.origin ∧
      t.rd (O.REFUSED_BY_UNIT u) = (s.rd (O.REFUSED_BY_UNIT u) + 1) % 4294967296)

/-- EXIT_START, EXIT_STEP_COMPLETE, EXIT_COMPLETE, TRANSITION_LATENCY_EXPIRED and IDLE_TIMER_EXPIRY (R112, R118, R122-R124):
an exit goes to its latched destination step by step, from DORMANT to BASE first, gives up at points A and B, and
POWER_STATE changes only with its end; the idle timer lowers the target by one state. -/
def Obligations.ExitsGoStepByStep : Prop :=
  (∀ s : State, s.alive = true → s.power.trans = none → s.power.bringup = false →
    s.rd O.POWER_STATE < s.rd O.TARGET_STATE →
    ∃ t x, exec .exitStart s = .next t ∧ t.power.trans = some x ∧ x.origin = s.rd O.POWER_STATE ∧
      x.dest = (if s.rd O.POWER_STATE = 1 then 2 else s.rd O.TARGET_STATE) ∧ x.step = 0x21 ∧ x.startedAt = s.clock ∧
      t.rd O.TRANSITION_STEP = 0x21 ∧ t.rd O.TRANSITION_ORIGIN = s.rd O.POWER_STATE ∧
      s.Frame [.power] [O.TRANSITION_STEP, O.TRANSITION_ORIGIN] t) ∧
  (∀ (s : State) (x : Trans), s.alive = true → s.power.trans = some x → x.origin < x.dest →
    ∃ t, exec .exitStepComplete s = .next t ∧ t.rd O.POWER_STATE = s.rd O.POWER_STATE ∧
      (x.step = 0x21 → t.rd O.TRANSITION_STEP = if x.origin ≤ 2 ∧ 3 ≤ x.dest then 0x22 else 0x23) ∧
      (x.step = 0x22 → t.rd O.TRANSITION_STEP = 0x23 ∧ (t.rd O.PLL_LOCKED).testBit 0 = true ∧
        (x.origin ≤ 2 → 3 ≤ x.dest → t.time.asleep = none)) ∧
      (x.step = 0x23 → s.farSide x = false → t.rd O.TRANSITION_STEP = 0x24) ∧
      (x.step = 0x24 → s.farSide x = false → t.rd O.TRANSITION_STEP = 0x25) ∧
      (x.step = 0x23 ∨ x.step = 0x24 → s.farSide x = true → s.gaveUp t O.EXIT_ABORTS) ∧
      (x.step = 0x25 → t.rd O.TRANSITION_STEP = 0x26 ∧
        ∀ d, d < 80 → t.rd (O.DOMAIN_POWER d) = if s.onIn x.dest d then 2 else 1) ∧
      (x.step = 0x26 → t.rd O.TRANSITION_STEP = if 3 ≤ x.dest then 0x27 else 0x29) ∧
      (x.step = 0x27 → t.rd O.TRANSITION_STEP = if x.dest = 4 then 0x28 else 0x29) ∧
      (x.step = 0x28 → t.rd O.TRANSITION_STEP = 0x29)) ∧
  (∀ (s : State) (x : Trans), s.alive = true → s.power.trans = some x → x.origin < x.dest → x.dest ≤ 4 →
    x.step = 0x29 → s.allUp x.dest = true →
    ∃ t, exec .exitComplete s = .next t ∧ t.power.trans = none ∧ t.rd O.POWER_STATE = x.dest ∧
      t.rd O.TRANSITION_STEP = 0 ∧ t.rd O.TRANSITION_ORIGIN = 0) ∧
  (∀ s : State, s.alive = true → s.power.source = 13 → s.rd O.TARGET_STATE ≠ s.rd O.POWER_STATE →
    ∃ t, exec .transitionLatencyExpired s = .next t ∧ t.mismatch.contains O.TARGET_STATE = true ∧
      t.mismatch.contains O.POWER_STATE = true ∧ s.Frame [.delivery, .mismatch] [] t) ∧
  (∀ s : State, s.alive = true → s.power.trans = none → s.power.bringup = false →
    s.rd O.TARGET_STATE = s.rd O.POWER_STATE → s.idleHeld = false → s.rd O.IDLE_FLOOR < s.rd O.POWER_STATE →
    s.rd (if s.rd O.POWER_STATE = 4 then O.SUMMIT_IDLE_MS else if s.rd O.POWER_STATE = 3 then O.MID_IDLE_MS
      else O.BASE_IDLE_MS) ≠ 0 →
    ∃ t, exec .idleTimerExpiry s = .next t ∧ t.rd O.TARGET_STATE = s.rd O.POWER_STATE - 1 ∧
      t.rd O.LAST_REQUEST_SOURCE = 14 ∧ t.rd (O.REQUEST_COUNT 14) = (s.rd (O.REQUEST_COUNT 14) + 1) % 4294967296 ∧
      s.Frame [.power, .delivery] (requestKeys 14) t)

/-- COMPARATOR_TRIGGER, BASE_LIFT_RUN, PREWAKE_WINDOW_EXPIRY and BASE_HOLD_EXPIRY (R125, R126, R133, R341, R342): an enabled
comparator starts the armed Base engine as source 0; a run ends with its decision word at 0 and its decision taken; the
window's end retracts a pre-wake, and the hold's end gates the engine. -/
def Obligations.BaseLiftWakesAndRetracts : Prop :=
  (∀ (s : State) (c : Fin 4), s.alive = true → s.domOn 79 = true → s.ready 0x27 = true → s.rd (O.CH_MODE c) = 2 →
    (s.rd O.COMP_ENABLE).testBit c = true →
    ∃ t, exec (.comparatorTrigger c) s = .next t ∧ t.rd O.LAST_REQUEST_SOURCE = 0 ∧
      t.rd O.COMP_TRIGGERS = (s.rd O.COMP_TRIGGERS + 1) % 4294967296 ∧ t.rd O.TARGET_STATE = s.rd O.TARGET_STATE ∧
      (s.rd (O.BASE_PROGRAM (s.rd O.BASE_TENANT)) ≠ 0xFFFFFFFF → s.domOn 77 = true → t.base.started = true) ∧
      (s.rd (O.BASE_PROGRAM (s.rd O.BASE_TENANT)) = 0xFFFFFFFF → t.base.started = s.base.started) ∧
      s.Frame [.base, .power, .delivery] (requestKeys 0 ++ [O.COMP_TRIGGERS, O.BASE_RUNS]) t) ∧
  (∀ (s : State) (g : Prog), s.alive = true → s.base.started = true → s.domOn 77 = true → s.ready 0x2A = true →
    s.liftProg false (s.rd (O.BASE_PROGRAM (s.rd O.BASE_TENANT))) = some g →
    let r := (s.liftRun false g).takeDecision false
    ∃ t, exec .baseLiftRun s = .next t ∧ (∀ i, i < 8 → t.bbyte (0xEFFF8 + i) = 0) ∧ t.bmem = r.2.bmem ∧
      (r.1 = -1 → t.power.prewake = false) ∧
      (0 ≤ r.1 → r.1 ≤ 65535 → t.rd O.BASE_CONFIDENCE = r.1.toNat) ∧
      (0 ≤ r.1 → r.1 ≤ 65535 → r.2.rd O.WAKE_THRESHOLD ≤ r.1.toNat → t.power.prewake = false ∧
        t.rd (O.REQUEST_COUNT 9) = (r.2.rd (O.REQUEST_COUNT 9) + 1) % 4294967296)) ∧
  (∀ s : State, s.alive = true → s.power.prewake = true →
    ∃ t, exec .prewakeWindowExpiry s = .next t ∧ t.power.prewake = false ∧ t.rd O.LAST_REQUEST_SOURCE = 15 ∧
      t.rd O.PREWAKE_CANCELS = (s.rd O.PREWAKE_CANCELS + 1) % 4294967296 ∧
      (s.power.targetTentative = true → s.rd O.TARGET_STATE = 3 → t.rd O.TARGET_STATE = 2) ∧
      (s.power.targetTentative = false → t.rd O.TARGET_STATE = s.rd O.TARGET_STATE) ∧
      s.Frame [.power, .delivery] (requestKeys 15 ++ [O.PREWAKE_CANCELS]) t) ∧
  (∀ s : State, s.alive = true → s.power.prewake = false →
    ∃ t, exec .baseHoldExpiry s = .next t ∧ t.base.started = false ∧ s.Frame [.base] [] t)

/-- MID_LIFT_RUN and MID_DECISION_TIMEOUT (R129, R134): a run of the Mid core ends with its decision word at 0; CONFIRM is
source 10 and raises the target to SUMMIT, REJECT and the timeout are source 11, which lowers a target of MID to BASE. -/
def Obligations.MidLiftConfirmsOrRejects : Prop :=
  (∀ (s : State) (g : Prog), s.alive = true → s.power.midRun = true → s.rd O.POWER_STATE = 3 →
    s.ready s.midCoreNo = true → s.liftProg true (s.rd (O.MID_PROGRAM (s.rd O.MID_TENANT))) = some g →
    let r := (s.liftRun true g).takeDecision true
    ∃ t, exec .midLiftRun s = .next t ∧ t.clm = r.2.clm ∧
      (∀ i, i < 8 → t.cbyte (s.liftRun true g).midCoreNo (0x1FEFF8 + i) = 0) ∧
      (r.1 = 0 → t.power = r.2.power) ∧
      (r.1 = 1 → t.power.midRun = false ∧ r.2.requested t 10 4) ∧
      (r.1 = 2 → t.power.midRun = false ∧ t.rd O.MID_REJECTS = (r.2.rd O.MID_REJECTS + 1) % 4294967296 ∧
        t.rd O.LAST_REQUEST_SOURCE = 11 ∧
        t.rd O.TARGET_STATE = (if r.2.rd O.TARGET_STATE = 3 then 2 else r.2.rd O.TARGET_STATE))) ∧
  (∀ s : State, s.alive = true → s.power.midRun = true →
    ∃ t, exec .midDecisionTimeout s = .next t ∧ t.power.midRun = false ∧ t.power.midFirm = false ∧
      t.rd O.MID_TIMEOUTS = (s.rd O.MID_TIMEOUTS + 1) % 4294967296 ∧ t.rd O.LAST_REQUEST_SOURCE = 11 ∧
      t.rd O.TARGET_STATE = (if s.rd O.TARGET_STATE = 3 then 2 else s.rd O.TARGET_STATE) ∧
      s.Frame [.power, .delivery] (requestKeys 11 ++ [O.MID_TIMEOUTS]) t)
/-! ### NYP -/

/-- A request as its endpoint executes it: over a session it is authenticated, and SESSION names the slot (R44). -/
def Sys2Proof.Machine.Req.via (q : Req) (ep : Endpoint) : Req :=
  match ep with
  | .session n => { q with session := n + 1 }
  | _ => q

/-- The endpoint takes the request now, and it repeats none that the session keeps a response to (R34). -/
def Sys2Proof.Machine.State.hears (s : State) (ep : Endpoint) (q : Req) : Bool :=
  s.takes ep && match ep with
    | .session n => s.admitted (s.rd (O.SESSION_TENANT n)) && ((s.sess n).keptFor (q.via ep)).isNone
    | _ => true

/-- The state a request is executed on: a mailbox holds it in MB_REQUEST. -/
def Sys2Proof.Machine.State.posted (s : State) (ep : Endpoint) (q : Req) : State :=
  match ep with
  | .mailbox f => s.modFunc f fun x => { x with mbRequest := q.bytes }
  | _ => s

/-- An endpoint is a network session. -/
def Sys2Proof.Machine.isNetEp (ep : Endpoint) : Bool := decide (32 ≤ epIdx ep ∧ epIdx ep < 48)

/-- The response that stands at an endpoint: in MB_RESPONSE, kept last by the session, or waiting for READ_FRAME. -/
def Sys2Proof.Machine.State.response (s : State) (ep : Endpoint) : Option (List Byte) :=
  match ep with
  | .mailbox f => if (s.func f).respReady then some (s.func f).mbResponse else none
  | .session n => (s.sess n).kept.head?.map Kept.resp
  | .spi => s.spi.response

/-- The parts that carry a response and the events of a request. -/
def Sys2Proof.Machine.answerParts : List Part := [.delivery, .sessions, .spi]

/-- The requests of Table 1.7 that name a subindex of one object, other than SESSION. -/
def Sys2Proof.Machine.nypRow (op : Nat) (ep : Endpoint) (h : NypHdr) (p : List Byte) : Instr :=
  match op with
  | 0 => .read ep h p
  | 1 => .write ep h p
  | 2 => .readBlock ep h p
  | 3 => .writeBlock ep h p
  | 4 => .subscribe ep h p
  | 5 => .unsubscribe ep h p
  | 7 => .claim ep h p
  | 8 => .release ep h p
  | _ => .heartbeat ep h p

/-- READ, WRITE, READ_BLOCK, WRITE_BLOCK, SUBSCRIBE, UNSUBSCRIBE, CLAIM, RELEASE, HEARTBEAT and the three SESSION actions
(R28-R30, R34, R489): an endpoint that hears a request executes it and holds its response; a malformed request is
answered BAD_MESSAGE, in the safe state all but the served reads NOT_READY, and neither changes an object. One that it
does not take changes at most MB_IGNORED, or resends a kept response. -/
def Obligations.RequestsAreAnswered : Prop :=
  (∀ (s : State) (op : Nat) (ep : Endpoint) (h : NypHdr) (p : List Byte), s.sized = true →
    op ∈ [0, 1, 2, 3, 4, 5, 7, 8, 9] →
    let q := (Req.ofHdr op h p).via ep
    let x := (s.posted ep q).execReq (epIdx ep) q
    s.hears ep q = true →
    ∃ t, exec (nypRow op ep h p) s = .next t ∧ t.response ep = some (q.reply x.1) ∧ x.2.Frame answerParts [] t ∧
      (q.bad (isNetEp ep) = true → t.response ep = some (q.reply (Answer.abort .badMessage q.sub)) ∧
        s.Frame answerParts [] t) ∧
      (q.bad (isNetEp ep) = false → s.on O.DEVICE_SAFE = true → safeAnswers q = false →
        t.response ep = some (q.reply (Answer.abort .notReady q.sub)) ∧ s.Frame answerParts [] t)) ∧
  (∀ (s : State) (ep : Endpoint) (h : NypHdr) (c : Instr) (a : Byte), s.sized = true →
    (c, a) ∈ [(.sessionOpen ep h, 1), (.sessionClose ep h, 2), (.sessionStatus ep h, 3)] →
    let q := (Req.ofHdr 0xA h [a]).via ep
    let x := (s.posted ep q).execReq (epIdx ep) q
    s.hears ep q = true →
    ∃ t, exec c s = .next t ∧ t.response ep = some (q.reply x.1) ∧ x.2.Frame answerParts [] t ∧
      (isNetEp ep = false → t.response ep = some (q.reply (Answer.abort .badMessage q.sub)) ∧
        s.Frame answerParts [] t)) ∧
  (∀ (s : State) (op : Nat) (ep : Endpoint) (h : NypHdr) (p : List Byte), op ∈ [0, 1, 2, 3, 4, 5, 7, 8, 9] →
    s.hears ep ((Req.ofHdr op h p).via ep) = false →
    ∃ t, exec (nypRow op ep h p) s = .next t ∧ s.Frame [.delivery] ((List.range 32).map O.MB_IGNORED) t)

/-- READ and READ_BLOCK of one subindex, and SNAPSHOT_TIMEOUT.  A READ (R22, R23, R29) is answered with the value that the
object shows, and MISMATCH where its request is unmet; no object changes.  R33: a READ_BLOCK at offset 0 takes a snapshot,
later offsets are read from it, MORE says that data remain, the last segment and the timeout release it, and a nonzero
offset with no snapshot held is OUT_OF_RANGE. -/
def Obligations.ReadsReturnTheValue : Prop :=
  (∀ (s : State) (ep : Endpoint) (h : NypHdr) (r : ObjRow), s.sized = true →
    let q := (Req.ofHdr 0 h []).via ep
    let s0 := s.posted ep q
    let w := s.epTenant (epIdx ep)
    let k := instKey r q.idx q.sub q.tenant
    let body := encodeVal r.ty (s0.readVal w k).1
    s.hears ep q = true → q.bad (isNetEp ep) = false → (s.on O.DEVICE_SAFE = true → safeAnswers q = true) →
    q.count = 1 → objInfo q.idx q.sub = some r →
    firstAbort (s0.epAborts (epIdx ep) q ++ readAborts w q q.sub) = none →
    ∃ t, exec (.read ep h []) s = .next t ∧
      t.response ep = some (q.reply (if 1024 < body.length then Answer.abort .badMessage q.sub
        else { flags := 1 + (if s.mismatch.contains k then 8 else 0), status := 0, sub := q.sub, body })) ∧
      s.Frame (answerParts ++ [.marks, .net, .integrity, .draws]) [] t) ∧
  (∀ (s : State) (ep : Endpoint) (h : NypHdr) (p : List Byte) (r : ObjRow), s.sized = true →
    s.on O.DEVICE_SAFE = false →
    let q := (Req.ofHdr 2 h p).via ep
    let s0 := s.posted ep q
    let w := s.epTenant (epIdx ep)
    let k := instKey r q.idx q.sub q.tenant
    let off := field p 0 4
    let snap := s.snaps.find? fun x => x.key == k && x.ep == epIdx ep
    let bytes := if off = 0 then encodeVal r.ty (s0.readVal w k).1 else (snap.map Snapshot.bytes).getD []
    let n := min (min (field p 4 4) 1016) (bytes.length - off)
    s.hears ep q = true → q.bad (isNetEp ep) = false → objInfo q.idx q.sub = some r →
    firstAbort (s0.epAborts (epIdx ep) q ++ readAborts w q q.sub) = none →
    (off ≠ 0 → ∃ x, snap = some x ∧ off ≤ x.bytes.length) →
    ∃ t, exec (.readBlock ep h p) s = .next t ∧
      t.response ep = some (q.reply
        { flags := 1 + (if off + n < bytes.length then 4 else 0), status := 0, sub := q.sub,
          body := leBytes 4 off ++ leBytes 4 bytes.length ++ slice bytes off n }) ∧
      (t.snaps.find? fun x => x.key == k && x.ep == epIdx ep) =
        (if off + n < bytes.length then some { key := k, ep := epIdx ep, bytes } else none) ∧
      s.Frame (answerParts ++ [.transfers, .marks, .net, .integrity, .draws]) [] t) ∧
  (∀ (s : State) (ep : Endpoint) (h : NypHdr) (p : List Byte) (r : ObjRow), s.sized = true →
    s.on O.DEVICE_SAFE = false →
    let q := (Req.ofHdr 2 h p).via ep
    let k := instKey r q.idx q.sub q.tenant
    s.hears ep q = true → q.bad (isNetEp ep) = false → objInfo q.idx q.sub = some r →
    firstAbort ((s.posted ep q).epAborts (epIdx ep) q ++ readAborts (s.epTenant (epIdx ep)) q q.sub) = none →
    field p 0 4 ≠ 0 → (s.snaps.find? fun x => x.key == k && x.ep == epIdx ep) = none →
    ∃ t, exec (.readBlock ep h p) s = .next t ∧ t.response ep = some (q.reply (Answer.abort .outOfRange q.sub)) ∧
      t.snaps = s.snaps ∧ s.Frame answerParts [] t) ∧
  (∀ (s : State) (ep : Endpoint), s.alive = true →
    ∃ t, exec (.snapshotTimeout ep) s = .next t ∧ (∀ x, x ∈ t.snaps ↔ x ∈ s.snaps ∧ x.ep ≠ epIdx ep) ∧
      t.blocks = s.blocks ∧ s.Frame [.transfers] [] t)

/-- WRITE and WRITE_BLOCK (R24, R29, R32, R54): a write that no check refuses takes effect as a whole, and a DEV object
counts in CONFIG_GENERATION; one that is refused leaves every object as it was; a segment that is not the last is kept
and changes no object. -/
def Obligations.WritesTakeEffectWholeOrNotAtAll : Prop :=
  (∀ (s : State) (ep : Endpoint) (h : NypHdr) (p : List Byte) (r : ObjRow), s.sized = true →
    s.on O.DEVICE_SAFE = false →
    let q := (Req.ofHdr 1 h p).via ep
    let s0 := s.posted ep q
    let w := s.epTenant (epIdx ep)
    let k := instKey r q.idx q.sub q.tenant
    s.hears ep q = true → q.bad (isNetEp ep) = false → q.count = 1 → objInfo q.idx q.sub = some r →
    firstAbort (s0.epAborts (epIdx ep) q ++ s0.formAborts (epIdx ep) w r k q.tenant ++
      s0.valueAborts (epIdx ep) w r k p) = none →
    ∃ t, exec (.write ep h p) s = .next t ∧ t.response ep = some (q.reply (Answer.ok q [])) ∧
      (s0.accept (epIdx ep) w r k p).Frame answerParts [] t ∧
      (r.scope = .dev → k ≠ O.CONFIG_DECLARE → t.rd O.CONFIG_GENERATION =
        ((s0.objApply { ep := epIdx ep, w, k, v := r.valOf p }).rd O.CONFIG_GENERATION + 1) % 4294967296)) ∧
  (∀ (s : State) (ep : Endpoint) (h : NypHdr) (p : List Byte) (a : Abort) (sub : Nat), s.sized = true →
    s.on O.DEVICE_SAFE = false →
    let q := (Req.ofHdr 1 h p).via ep
    let s0 := s.posted ep q
    s.hears ep q = true → q.bad (isNetEp ep) = false → q.manyBlobs = false →
    State.writeSubs (epIdx ep) (s.epTenant (epIdx ep)) q (s0.epAborts (epIdx ep) q) q.count q.sub p s0 = .error (a, sub) →
    ∃ t, exec (.write ep h p) s = .next t ∧ t.response ep = some (q.reply (Answer.abort a sub)) ∧
      (a ≠ .outOfRange → s.Frame answerParts [] t) ∧
      (s0.noteRefusal q a p).Frame answerParts [] t) ∧
  (∀ (s : State) (ep : Endpoint) (h : NypHdr) (p : List Byte) (r : ObjRow), s.sized = true →
    s.on O.DEVICE_SAFE = false →
    let q := (Req.ofHdr 3 h p).via ep
    let s0 := s.posted ep q
    let e := epIdx ep
    let w := s.epTenant e
    let k := instKey r q.idx q.sub q.tenant
    let off := field p 0 4
    let total := field p 4 4
    let cur := s.blocks.find? fun b => b.key == k && b.ep == e
    let bytes := (if off = 0 then [] else (cur.map BlockXfer.bytes).getD []) ++ p.drop 8
    s.hears ep q = true → q.bad (isNetEp ep) = false → objInfo q.idx q.sub = some r →
    firstAbort (s0.epAborts e q ++ s0.formAborts e w r k q.tenant) = none → r.ty.lenOk total = true →
    segBad cur off total (p.length - 8) (q.flags.testBit 2) = false →
    ∃ t, exec (.writeBlock ep h p) s = .next t ∧
      (off + (p.length - 8) < total → t.response ep = some (q.reply (Answer.ok q [])) ∧
        { key := k, ep := e, total, bytes } ∈ t.blocks ∧ s.Frame (answerParts ++ [.transfers]) [] t) ∧
      (total ≤ off + (p.length - 8) →
        firstAbort (s0.epAborts e q ++ (s0.dropXfer k e).formAborts e w r k q.tenant ++
          (s0.dropXfer k e).valueAborts e w r k bytes) = none →
        t.response ep = some (q.reply (Answer.ok q [])) ∧
        ((s0.dropXfer k e).accept e w r k bytes).Frame answerParts [] t))

/-- SUBSCRIBE, UNSUBSCRIBE and SUBSCRIPTION_WINDOW_END (R35): a subscription to an EV object is made or replaced and its
value returned; UNSUBSCRIBE ends it; the end of a window sends the latest of what was combined and opens another. -/
def Obligations.SubscriptionsCarryTheLatestChange : Prop :=
  (∀ (s : State) (ep : Endpoint) (h : NypHdr) (p : List Byte) (r : ObjRow), s.sized = true →
    s.on O.DEVICE_SAFE = false →
    let q := (Req.ofHdr 4 h p).via ep
    let s0 := s.posted ep q
    let e := epIdx ep
    let w := s.epTenant e
    let k := instKey r q.idx q.sub q.tenant
    s.hears ep q = true → q.bad (isNetEp ep) = false → q.count = 1 → objInfo q.idx q.sub = some r →
    (encodeVal r.ty (s0.readVal w k).1).length ≤ 1024 →
    firstAbort (s0.epAborts e q ++ subAborts w q q.sub) = none →
    (s.subs.filter fun b => b.ep == e).length < 64 →
    ∃ t, exec (.subscribe ep h p) s = .next t ∧
      t.response ep = some (q.reply (Answer.ok q (encodeVal r.ty (s0.readVal w k).1))) ∧
      t.subs = (s.subs.filter fun b => !(b.ep == e && b.key == k)) ++
        [{ ep := e, key := k, intervalUs := field p 0 4, windowOpen := false, combined := none }] ∧
      s.Frame (answerParts ++ [.marks, .net, .integrity, .draws]) [] t) ∧
  (∀ (s : State) (ep : Endpoint) (h : NypHdr) (r : ObjRow), s.sized = true → s.on O.DEVICE_SAFE = false →
    let q := (Req.ofHdr 5 h []).via ep
    let k := instKey r q.idx q.sub q.tenant
    s.hears ep q = true → q.bad (isNetEp ep) = false → q.count = 1 → objInfo q.idx q.sub = some r →
    firstAbort (s.epAborts (epIdx ep) q ++ scopeAborts r (s.epTenant (epIdx ep)) q.tenant false) = none →
    ∃ t, exec (.unsubscribe ep h []) s = .next t ∧ t.response ep = some (q.reply (Answer.ok q [])) ∧
      t.subs = (s.subs.filter fun b => !(b.ep == epIdx ep && b.key == k)) ∧ s.Frame answerParts [] t) ∧
  (∀ (s : State) (ep : Endpoint) (i : Fin 65536) (n : Fin 256) (ten : Fin 32) (k : Nat), s.sized = true →
    s.alive = true → rowKey i n ten = some k →
    ∃ t, exec (.subscriptionWindowEnd ep i n ten) s = .next t ∧ s.Frame [.delivery] [] t ∧
      ∀ j b, (s.subs.findIdx? fun b => b.ep == epIdx ep && b.key == k) = some j → s.subs[j]? = some b →
        t.subs = modNth s.subs j (fun b => { b with combined := none, windowOpen := b.combined.isSome }) ∧
        (b.combined = none → t.eps = s.eps ∧ t.out = s.out) ∧
        (∀ c, b.combined = some c → ep = .spi → (s.ep 48).queue.length < 32 → (s.ep 48).overflow = false →
          (t.ep 48).queue = (s.ep 48).queue ++ [{ key := k, seq := (s.ep 48).seq, info := c }]))

/-- CLAIM and RELEASE of one resource (R49-R51): a free resource whose class is granted becomes the requester's, another
owner's is refused with OWNED_BY; the owner releases it, and tenant 0 may revoke it with FORCE. -/
def Obligations.ClaimsGiveOneOwner : Prop :=
  (∀ (s : State) (ep : Endpoint) (h : NypHdr) (cls n : Nat), s.sized = true → s.on O.DEVICE_SAFE = false →
    let q := (Req.ofHdr 7 h []).via ep
    let w := s.epTenant (epIdx ep)
    let k := okey q.idx q.sub 0
    s.hears ep q = true → q.bad (isNetEp ep) = false → q.count = 1 → (objInfo q.idx q.sub).isSome = true →
    s.epAborts (epIdx ep) q = [] → q.tenant = w → claimAt q.idx q.sub = some (cls, n) →
    w = 0 ∨ (s.rd (grantKey cls)).testBit w = true →
    ∃ t, exec (.claim ep h []) s = .next t ∧
      (s.rd k = 0xFF → t.response ep = some (q.reply (Answer.ok q [])) ∧ t.rd k = w ∧
        t.rd O.CONFIG_GENERATION = (s.rd O.CONFIG_GENERATION + 1) % 4294967296 ∧
        s.Frame answerParts [k, O.CONFIG_GENERATION] t) ∧
      (s.rd k = w → t.response ep = some (q.reply (Answer.ok q [])) ∧ s.Frame answerParts [] t) ∧
      (s.rd k ≠ 0xFF → s.rd k ≠ w → t.response ep = some (q.reply (Answer.abort (.ownedBy (s.rd k)) q.sub)) ∧
        s.Frame answerParts [] t)) ∧
  (∀ (s : State) (ep : Endpoint) (h : NypHdr) (force : Bool) (cls n : Nat), s.sized = true →
    s.on O.DEVICE_SAFE = false →
    let p : List Byte := [if force then 1 else 0]
    let q := (Req.ofHdr 8 h p).via ep
    let w := s.epTenant (epIdx ep)
    let k := okey q.idx q.sub 0
    s.hears ep q = true → q.bad (isNetEp ep) = false → q.count = 1 → (objInfo q.idx q.sub).isSome = true →
    s.epAborts (epIdx ep) q = [] → q.tenant = w → w < 32 → claimAt q.idx q.sub = some (cls, n) →
    ∃ t, exec (.release ep h p) s = .next t ∧
      (force = false → s.rd k = w → s.claimBusy cls n w = false → t.response ep = some (q.reply (Answer.ok q [])) ∧
        t.rd k = 0xFF ∧ t.rd O.CONFIG_GENERATION = (s.rd O.CONFIG_GENERATION + 1) % 4294967296 ∧
        s.Frame answerParts [k, O.CONFIG_GENERATION] t) ∧
      (force = false → s.rd k = w → s.claimBusy cls n w = true →
        t.response ep = some (q.reply (Answer.abort .unitNotIdle q.sub)) ∧ s.Frame answerParts [] t) ∧
      (force = true → w = 0 → s.rd k < 32 → t.response ep = some (q.reply (Answer.ok q [])) ∧ t.rd k = 0xFF) ∧
      (s.rd k ≠ w → force = true ∧ w ≠ 0 ∨ force = false ∧ (s.rd k = 0xFF ∨ s.claimBusy cls n (s.rd k) = false) →
        t.response ep = some (q.reply (Answer.abort .notOwned q.sub)) ∧
        s.Frame answerParts [] t))

/-- HEARTBEAT, SESSION OPEN, CLOSE and STATUS, SESSION_IDLE_TIMEOUT, HEARTBEAT_PERIOD_EXPIRY and NYP_DATAGRAM_RX
(R43-R46): a heartbeat answers with the device's state; OPEN and CLOSE move the session and answer its state; a closed
session's subscriptions end; a datagram that is not authenticated or repeats a counter is counted and not executed. -/
def Obligations.SessionsOpenCloseAndAuthenticate : Prop :=
  (∀ (s : State) (ep : Endpoint) (h : NypHdr), s.sized = true →
    let q := (Req.ofHdr 9 h []).via ep
    s.hears ep q = true → q.bad (isNetEp ep) = false → s.epAborts (epIdx ep) q = [] →
    ∃ t, exec (.heartbeat ep h []) s = .next t ∧ t.response ep = some (q.reply (Answer.ok q (s.heartbeat false))) ∧
      s.Frame answerParts [] t) ∧
  (∀ (s : State) (n : Fin 16) (h : NypHdr) (a : Byte) (c : Instr), s.sized = true → s.on O.DEVICE_SAFE = false →
    (c, a) ∈ [(.sessionOpen (.session n) h, 1), (.sessionClose (.session n) h, 2), (.sessionStatus (.session n) h, 3)] →
    let q := (Req.ofHdr 0xA h [a]).via (.session n)
    let st := s.rd (O.SESSION_STATE n)
    let st' := if a = 1 then 2 else if a = 2 then 3 else st
    s.hears (.session n) q = true → q.bad true = false → s.epAborts (32 + n) q = [] → 1 ≤ st → st ≤ 3 →
    ∃ t, exec c s = .next t ∧ t.response (.session n) = some (q.reply (Answer.ok q (leBytes 1 st'))) ∧
      t.rd (O.SESSION_STATE n) = st' ∧ (a = 2 → ∀ b ∈ t.subs, b.ep ≠ 32 + n) ∧
      s.Frame [.delivery, .sessions] [O.SESSION_STATE n] t) ∧
  (∀ (s : State) (n : Fin 16), s.sized = true → s.alive = true →
    ∃ t, exec (.sessionIdleTimeout n) s = .next t ∧
      (s.rd (O.SESSION_STATE n) = 2 → t.rd (O.SESSION_STATE n) = 3 ∧ (∀ b ∈ t.subs, b.ep ≠ 32 + n)) ∧
      (s.rd (O.SESSION_STATE n) ≠ 2 → t = s) ∧ s.Frame [.delivery] [O.SESSION_STATE n] t) ∧
  (∀ s : State, s.sized = true → s.alive = true →
    ∃ t, exec .heartbeatPeriodExpiry s = .next t ∧ s.Frame [.delivery] [] t ∧
      ∀ n, n < 16 → t.rd (O.SESSION_TX_COUNTER n) =
        if s.rd (O.SESSION_STATE n) = 2 ∧ (s.sessionPort n).isSome
        then (s.rd (O.SESSION_TX_COUNTER n) + 1) % 2 ^ 64 else s.rd (O.SESSION_TX_COUNTER n)) ∧
  (∀ (s : State) (port : Fin 2) (peer bytes : List Byte), s.sized = true → s.alive = true →
    (s.rd O.UDP_ENABLE).testBit port = true → s.ready (0x21 + port) = true →
    let n := field bytes 3 1 - 1
    let ctr := field bytes 0x10 8
    let plain := gcmOpen (s.sess n).key (udpNonce n 0 ctr) (bytes.take 24) ((bytes.drop 24).take (bytes.length - 40))
      (bytes.drop (bytes.length - 16))
    ∃ t, exec (.nypDatagramRx port peer bytes) s = .next t ∧
      (s.datagramBound port (field bytes 3 1) peer bytes = false ∨ plain = none →
        t.rd O.UDP_AUTH_FAILS = (s.rd O.UDP_AUTH_FAILS + 1) % 4294967296 ∧ s.Frame [.delivery] [O.UDP_AUTH_FAILS] t) ∧
      (∀ m, s.datagramBound port (field bytes 3 1) peer bytes = true → plain = some m → s.replayed n ctr = true →
        t.rd O.UDP_REPLAYS = (s.rd O.UDP_REPLAYS + 1) % 4294967296 ∧ s.Frame [.delivery] [O.UDP_REPLAYS] t) ∧
      (∀ m, s.datagramBound port (field bytes 3 1) peer bytes = true → plain = some m → s.replayed n ctr = false →
        let q := Req.parse (bytes.take 16 ++ m)
        let s0 := s.acceptCounter n ctr
        s0.rd (O.SESSION_RX_COUNTER n) = max ctr (s.rd (O.SESSION_RX_COUNTER n)) ∧
        (s.admitted (s.rd (O.SESSION_TENANT n)) = false → t = s0) ∧
        (s.admitted (s.rd (O.SESSION_TENANT n)) = true → (s0.sess n).keptFor q = none →
          (t.sess n).kept.head?.map Kept.resp = some (q.reply (s0.execReq (32 + n) q).1) ∧
          (s0.execReq (32 + n) q).2.Frame [.delivery, .sessions] [] t)))

/-- BLOCK_TRANSFER_TIMEOUT and REQUEST_STATE_TIMEOUT (R23, R32): a block write that stands still is discarded, and an
object whose request is unmet after its time carries MISMATCH. -/
def Obligations.TimeoutsEndWhatStandsStill : Prop :=
  ∀ (s : State) (i : Fin 65536) (n : Fin 256) (ten : Fin 32) (k : Nat), s.alive = true →
    rowKey i n ten = some k →
    (∃ t, exec (.blockTransferTimeout i n ten) s = .next t ∧ t.blocks = (s.blocks.filter fun b => b.key != k) ∧
      t.snaps = s.snaps ∧ s.Frame [.transfers] [] t) ∧
    (∃ t, exec (.requestStateTimeout i n ten) s = .next t ∧ t.mismatch.contains k = true ∧
      (∀ j, j ≠ k → t.mismatch.contains j = s.mismatch.contains j) ∧ s.Frame [.mismatch, .delivery] [] t)

/-- WRITE_FRAME, READ_FRAME, READ_STATUS, SPI_UNKNOWN_COMMAND and SB_CS_N_FALLING (R39, R40, R116): a frame is executed
once its CRC agrees and the target is not BUSY; READ_FRAME gives the oldest response or event with its CRC and ends
BUSY; READ_STATUS clears CRC_ERROR; the falling edge of SB_CS_N is request source 3. -/
def Obligations.SidebandServesOneFrameAtATime : Prop :=
  (∀ (s : State) (bytes : List Byte), s.spiUp = true →
    let n := bytes.length - 4
    let q := Req.parse (bytes.take n)
    let good := 4 ≤ bytes.length ∧ crc32 (bytes.take n) = field bytes n 4
    ∃ t, exec (.writeFrame bytes) s = .next t ∧ t.spi.ignoring = false ∧ t.spi.sdo = [] ∧
      (s.spi.busy = true → t.spi.response = s.spi.response ∧ t.spi.busy = true ∧ s.Frame [.spi] [] t) ∧
      (s.spi.busy = false → ¬ good → t.spi.crcError = true ∧ t.spi.response = s.spi.response ∧
        t.rd O.SPI_CRC_ERRORS = (s.rd O.SPI_CRC_ERRORS + 1) % 4294967296 ∧
        s.Frame [.spi, .delivery] [O.SPI_CRC_ERRORS] t) ∧
      (s.spi.busy = false → good → t.spi.busy = true ∧
        t.spi.response = some (q.reply (s.spiBegin.execReq 48 q).1) ∧
        (s.spiBegin.execReq 48 q).2.Frame [.spi] [] t)) ∧
  (∀ s : State, s.sized = true → s.spiUp = true →
    ∃ t, exec .readFrame s = .next t ∧ s.Frame [.spi, .delivery] [] t ∧
      (∀ r, s.spi.response = some r → (s.ep 48).queue = [] ∨ s.spi.ahead = 0 →
        t.spi.sdo = withCrc r ∧ t.spi.response = none ∧ t.spi.busy = false ∧ t.eps = s.eps) ∧
      (∀ m ms, (s.ep 48).queue = m :: ms → s.spi.response = none ∨ s.spi.ahead ≠ 0 →
        t.spi.sdo = withCrc (s.eventBytes 48 m) ∧ t.spi.response = s.spi.response ∧ (t.ep 48).queue = ms ∧
        t.spi.busy = s.spi.busy) ∧
      (s.spi.response = none → (s.ep 48).queue = [] → t.spi.sdo = [0] ∧ t.eps = s.eps)) ∧
  (∀ s : State, s.spiUp = true →
    ∃ t, exec .readStatus s = .next t ∧ t.spi.crcError = false ∧ t.spi.busy = s.spi.busy ∧
      t.spi.response = s.spi.response ∧
      t.spi.sdo = leBytes 1 ((if s.spi.response.isSome then 1 else 0) + (if (s.ep 48).queue = [] then 0 else 2) +
        (if s.spi.busy then 4 else 0) + (if s.spi.crcError then 8 else 0)) ∧ s.Frame [.spi] [] t) ∧
  (∀ (s : State) (c : Fin 256), s.spiUp = true → c = 0 ∨ 4 ≤ c.val →
    ∃ t, exec (.spiUnknownCommand c) s = .next t ∧ t.spi.sdo = [0] ∧ t.spi.ignoring = true ∧
      t.spi.response = s.spi.response ∧ t.spi.busy = s.spi.busy ∧ s.Frame [.spi] [] t) ∧
  (∀ s : State, s.released = true →
    ∃ t, exec .sbCsNFalling s = .next t ∧ t.pins.csLow = true ∧ t.spi.response = s.spi.response ∧
      (s.on O.DEVICE_SAFE = true → s.Frame [.pins, .spi] [] t) ∧
      (s.on O.DEVICE_SAFE = false → s.requested t 3 (s.rd (O.WAKE_TARGET 3))))

/-- MB_DOORBELL, MB_RESP_ACK, MB_EVENT_ACK and BAR_WRITE_IGNORED (R414, R415): the doorbell executes the mailbox's request
and leaves its response, or is counted while a response waits; an acknowledgement frees its buffer, and the oldest
queued event moves in; a write to a read-only field changes nothing. -/
def Obligations.MailboxHoldsOneResponseAndOneEvent : Prop :=
  (∀ (s : State) (f : Fin 32) (bytes : List Byte), s.sized = true → s.alive = true → s.ready 0x20 = true →
    s.fnOpen f = true →
    let q := Req.parse bytes
    let x := (s.modFunc f fun y => { y with mbRequest := bytes }).execReq f q
    ∃ t, exec (.mbDoorbell f bytes) s = .next t ∧
      ((s.func f).respReady = true → t.rd (O.MB_IGNORED f) = (s.rd (O.MB_IGNORED f) + 1) % 4294967296 ∧
        (t.func f).mbResponse = (s.func f).mbResponse ∧ s.Frame [.delivery] [O.MB_IGNORED f] t) ∧
      ((s.func f).respReady = false → (t.func f).respReady = true ∧ (t.func f).mbResponse = q.reply x.1 ∧
        x.2.Frame [.delivery] [] t)) ∧
  (∀ (s : State) (f : Fin 32), s.sized = true → s.alive = true → s.ready 0x20 = true →
    f = 0 ∨ s.host.vfEnable = true →
    (∃ t, exec (.mbRespAck f) s = .next t ∧ (t.func f).respReady = false ∧ t.eps = s.eps ∧ t.out = s.out ∧
      s.Frame [.delivery] [] t) ∧
    ∃ t, exec (.mbEventAck f) s = .next t ∧ s.Frame [.delivery] [] t ∧
      ((s.ep f).queue = [] → (t.func f).eventReady = false ∧ t.out = s.out) ∧
      (∀ m ms, (s.ep f).queue = m :: ms → (t.func f).eventReady = true ∧ (t.func f).mbEvent = s.eventBytes f m ∧
        (t.ep f).queue = ms)) ∧
  ∀ (s : State) (f : Fin 32) (w : BarWrite), exec (.barWriteIgnored f w) s = .next s
/-! ### Accesses of one object -/

/-- The request of an access row: one WRITE, or the last segment of a WRITE_BLOCK (R32). -/
def Sys2Proof.Machine.State.rowWrite (s : State) (ep : Endpoint) (idx sub tenant : Nat) (bs : List Byte) : Req :=
  let off := (bs.length - 1) / segMax * segMax
  if bs.length ≤ 1024 then s.rowReq ep 1 0 idx sub tenant bs
  else s.rowReq ep 3 0 idx sub tenant (leBytes 4 off ++ leBytes 4 bs.length ++ bs.drop off)

/-- The endpoint takes the write, and no check of R30 refuses it. -/
def Sys2Proof.Machine.State.accepts (s : State) (ep : Endpoint) (idx sub tenant : Nat) (bs : List Byte) : Bool :=
  let q := s.rowWrite ep idx sub tenant bs
  let s0 := s.posted ep q
  let e := epIdx ep
  let w := s.epTenant e
  s.hears ep q && !s.on O.DEVICE_SAFE && decide (w < 32) && match objInfo idx sub with
    | some r =>
      let k := instKey r idx sub tenant
      (firstAbort (s0.epAborts e q ++ s0.formAborts e w r k q.tenant ++ s0.valueAborts e w r k bs)).isNone
    | none => false

/-- The response that accepts an access row's write stands at its endpoint. -/
def Sys2Proof.Machine.State.wrote (s t : State) (ep : Endpoint) (idx sub tenant : Nat) (bs : List Byte) : Prop :=
  t.response ep = some ((s.rowWrite ep idx sub tenant bs).reply (Answer.ok (s.rowWrite ep idx sub tenant bs) []))

/-- The endpoint takes an access row's read, and no check of R30 refuses it. -/
def Sys2Proof.Machine.State.readable (s : State) (ep : Endpoint) (idx sub tenant : Nat) : Bool :=
  let q := s.rowReq ep 0 0 idx sub tenant []
  let w := s.epTenant (epIdx ep)
  s.hears ep q && !s.on O.DEVICE_SAFE && decide (w < 32) &&
  (firstAbort (s.epAborts (epIdx ep) q ++ readAborts w q sub)).isNone

/-- What an accepted write of a DEV object counts in (R54). -/
def Sys2Proof.Machine.cfgKeys : List Nat := [O.CONFIG_GENERATION, O.CONFIG_STATE]

/-- The access rows whose object takes the value written, with nothing else to follow: endpoint, object, bytes. -/
def Sys2Proof.plainRow : Instr → Option (Endpoint × Nat × Nat × Nat × List Byte)
  | .spiAuthorityWrite ep v => some (ep, 0x1102, 1, 0, leBytes 1 v)
  | .wakeTargetWrite ep src v => some (ep, 0x2210, src + 1, 0, leBytes 1 v)
  | .envelopeBoundWrite ep b v =>
    some (ep, (boundObj b).1, (boundObj b).2.1, 0, leBytes (if v.val < 256 then (boundObj b).2.2 else 2) v)
  | .coreService ep c v => some (ep, 0x6002, c + 1, 0, leBytes 1 v)
  | .lcPermittedWrite ep t v => some (ep, 0x6202, 1, t, leBytes 1 v)
  | .chGainWrite ep c false v => some (ep, 0x4003, c + 1, 0, leBytes 4 v)
  | .chGainWrite ep c true v => some (ep, 0x4004, c + 1, 0, leBytes (if v.val < 65536 then 2 else 4) v)
  | .ispParamsWrite ep i p => some (ep, 0x5010 + i, 0x1A, 0, p)
  | .camClkWrite ep p v => some (ep, 0x5001 + p, 3, 0, leBytes 1 v)
  | .aeEnableWrite ep i v => some (ep, 0x5010 + i, 0x11, 0, leBytes 1 v)
  | .certChain ep c => some (ep, 0x8002, 1, 0, c)
  | _ => none

/-- SPI_AUTHORITY_WRITE, WAKE_TARGET_WRITE, ENVELOPE_BOUND_WRITE, CORE_SERVICE, LC_PERMITTED_WRITE, CH_GAIN_WRITE,
ISP_PARAMS_WRITE, CAM_CLK_WRITE, AE_ENABLE_WRITE and CERT_CHAIN (R17, R41, R54, R116, R136, R160, R316, R340, R363, R371,
R384, R436): the object takes the value, a DEV object counts in CONFIG_GENERATION, and no other object changes. -/
def Obligations.PlainRowsTakeTheirValue : Prop :=
  ∀ (s : State) (c : Instr) (ep : Endpoint) (idx sub ten : Nat) (bs : List Byte) (r : ObjRow), s.sized = true →
    plainRow c = some (ep, idx, sub, ten, bs) → s.accepts ep idx sub ten bs = true → objInfo idx sub = some r →
    ∃ t, exec c s = .next t ∧ s.wrote t ep idx sub ten bs ∧ t.val (instKey r idx sub ten) = r.valOf bs ∧
      (r.scope = .dev → t.rd O.CONFIG_GENERATION = (s.rd O.CONFIG_GENERATION + 1) % 4294967296 ∧
        t.rd O.CONFIG_STATE = (if s.rd O.CONFIG_STATE = 0 then 1 else s.rd O.CONFIG_STATE)) ∧
      (r.scope ≠ .dev → t.rd O.CONFIG_GENERATION = s.rd O.CONFIG_GENERATION) ∧
      s.Frame (answerParts ++ [.mismatch, .marks, .transfers]) (instKey r idx sub ten :: cfgKeys) t

/-- CONFIG_DECLARE, SESSION_KEY and SESSION_DISCARD (R42, R44, R54): only the present generation is declared, and sets
CONFIG_STATE to 2; a key, written over the mailbox of function 0 alone, provisions a slot with counters at 0 and nothing
accepted or kept; a discarded slot is EMPTY and of no tenant, ports or peer. -/
def Obligations.ConfigurationIsDeclaredAndSessionsProvisioned : Prop :=
  (∀ (s : State) (ep : Endpoint) (v : Fin 4294967296), s.sized = true →
    s.accepts ep 0x1018 3 0 (leBytes 4 v) = true →
    v.val = s.rd O.CONFIG_GENERATION ∧
    ∃ t, exec (.configDeclare ep v) s = .next t ∧ s.wrote t ep 0x1018 3 0 (leBytes 4 v) ∧ t.rd O.CONFIG_STATE = 2 ∧
      s.Frame answerParts [O.CONFIG_STATE] t) ∧
  (∀ (s : State) (ep : Endpoint) (n : Fin 16) (key : List Byte), s.sized = true →
    s.accepts ep (0x1110 + n) 5 0 key = true →
    ep = .mailbox 0 ∧ s.rd (O.SESSION_PORTS n) ≠ 0 ∧ s.rd (O.SESSION_PEER n) ≠ 0 ∧
    ∃ t, exec (.sessionKey ep n key) s = .next t ∧ s.wrote t ep (0x1110 + n) 5 0 key ∧
      t.rd (O.SESSION_STATE n) = 1 ∧ t.rd (O.SESSION_TX_COUNTER n) = 0 ∧ t.rd (O.SESSION_RX_COUNTER n) = 0 ∧
      t.sess n = { key, window := [], kept := [] } ∧ (∀ b ∈ t.subs, b.ep ≠ 32 + n) ∧ (t.ep (32 + n)).queue = [] ∧
      (∀ m, m ≠ n.val → t.sess m = s.sess m) ∧
      s.Frame answerParts ([O.SESSION_STATE n, O.SESSION_TX_COUNTER n, O.SESSION_RX_COUNTER n] ++ cfgKeys) t) ∧
  (∀ (s : State) (ep : Endpoint) (n : Fin 16) (v : Fin 256), s.sized = true →
    s.accepts ep (0x1110 + n) 8 0 (leBytes 1 v) = true →
    ∃ t, exec (.sessionDiscard ep n v) s = .next t ∧ s.wrote t ep (0x1110 + n) 8 0 (leBytes 1 v) ∧
      t.rd (O.SESSION_STATE n) = 0 ∧ t.rd (O.SESSION_TENANT n) = 0 ∧ t.rd (O.SESSION_PORTS n) = 0 ∧
      t.rdB (O.SESSION_PEER n) = List.replicate 18 0 ∧ (∀ b ∈ t.subs, b.ep ≠ 32 + n) ∧
      (ep ≠ .session n → t.sess n = { key := [], window := [], kept := [] }) ∧
      (∀ b ∈ t.blocks, b.ep ≠ 32 + n) ∧ (∀ b ∈ t.snaps, b.ep ≠ 32 + n) ∧
      s.Frame (answerParts ++ [.transfers]) ([O.SESSION_STATE n, O.SESSION_TENANT n, O.SESSION_PORTS n, O.SESSION_PEER n,
        O.SESSION_TX_COUNTER n, O.SESSION_RX_COUNTER n] ++ cfgKeys) t)

/-- UNIT_RESET, TARGET_STATE_WRITE, BASE_TENANT_WRITE, BASE_PROGRAM, BASE_DISARM, BASE_LOAD_WINDOW and MID_PROGRAM (R106,
R117, R131-R134): the unit leaves READY and HELD; the pending target is the value written, by source 13, unless the
write of MID starts a Mid lift that may reject it; the Base engine's
memory is cleared with its tenant; a lift is armed at an address; the window writes Base engine memory at its offset and
moves it on. -/
def Obligations.PowerAndLiftRowsAct : Prop :=
  (∀ (s : State) (ep : Endpoint) (u : Fin 256), s.sized = true → s.accepts ep 0x2110 3 0 (leBytes 1 u) = true →
    s.unitBusy u = false ∧
    ∃ t, exec (.unitReset ep u) s = .next t ∧ s.wrote t ep 0x2110 3 0 (leBytes 1 u) ∧ t.ready u = false ∧
      (s.integrity.lost.testBit u = false → t.held u = false) ∧ t.everReady.testBit u = false) ∧
  (∀ (s : State) (ep : Endpoint) (v : Fin 256), s.sized = true → s.accepts ep 0x2200 2 0 (leBytes 1 v) = true →
    ∃ t, exec (.targetStateWrite ep v) s = .next t ∧ s.wrote t ep 0x2200 2 0 (leBytes 1 v) ∧
      (v.val ≠ 3 ∨ s.rd O.POWER_STATE ≠ 3 ∨ s.power.prewake = false ∧ s.power.midFirm = false →
        t.rd O.TARGET_STATE = v) ∧
      t.rd (O.REQUEST_COUNT 13) = (s.rd (O.REQUEST_COUNT 13) + 1) % 4294967296 ∧
      t.rd O.POWER_STATE = s.rd O.POWER_STATE ∧ (3 ≤ v.val → t.power.prewake = false) ∧
      t.rd O.CONFIG_GENERATION = (s.rd O.CONFIG_GENERATION + 1) % 4294967296) ∧
  (∀ (s : State) (ep : Endpoint) (v : Fin 256), s.sized = true → s.accepts ep 0x2205 1 0 (leBytes 1 v) = true →
    s.baseArmed = false ∧
    ∃ t, exec (.baseTenantWrite ep v) s = .next t ∧ s.wrote t ep 0x2205 1 0 (leBytes 1 v) ∧ t.rd O.BASE_TENANT = v ∧
      t.bmem = (if s.rd O.BASE_TENANT = v.val then s.bmem else []) ∧
      s.Frame (answerParts ++ [.mismatch, .baseMem]) (O.BASE_TENANT :: cfgKeys) t) ∧
  (∀ (s : State) (ep : Endpoint) (ten : Fin 32) (a : Fin 4294967296), s.sized = true →
    s.accepts ep 0x2205 2 ten (leBytes 4 a) = true →
    s.rd O.BASE_TENANT = ten ∧
    ∃ t, exec (.baseProgram ep ten a) s = .next t ∧ s.wrote t ep 0x2205 2 ten (leBytes 4 a) ∧
      t.rd (O.BASE_PROGRAM ten) = a ∧
      (∀ g, s.liftProg false a = some g →
        sha384 (s.bbytes a g.measured) ∈ nth t.security.progLogs ten [] ∨ 256 ≤ (nth s.security.progLogs ten []).length) ∧
      s.Frame (answerParts ++ [.mismatch, .security]) [O.BASE_PROGRAM ten, O.PROG_DIGEST ten, O.PROG_COUNT ten] t) ∧
  (∀ (s : State) (ep : Endpoint) (ten : Fin 32), s.sized = true →
    s.accepts ep 0x2205 2 ten (leBytes 4 0xFFFFFFFF) = true →
    ∃ t, exec (.baseDisarm ep ten) s = .next t ∧ s.wrote t ep 0x2205 2 ten (leBytes 4 0xFFFFFFFF) ∧
      t.rd (O.BASE_PROGRAM ten) = 0xFFFFFFFF ∧ s.Frame (answerParts ++ [.mismatch]) [O.BASE_PROGRAM ten] t) ∧
  (∀ (s : State) (ep : Endpoint) (ten : Fin 32) (data : List Byte), s.sized = true →
    s.accepts ep 0x2205 4 ten data = true →
    let o := s.rd (O.BASE_LOAD_OFFSET ten)
    s.rd O.BASE_TENANT = ten ∧ s.rd (O.BASE_PROGRAM ten) = 0xFFFFFFFF ∧ o + data.length ≤ 0xEFFF8 ∧
    ∃ t, exec (.baseLoadWindow ep ten data) s = .next t ∧ s.wrote t ep 0x2205 4 ten data ∧
      t.bbytes o data.length = data ∧ (∀ a, a < o ∨ o + data.length ≤ a → t.bbyte a = s.bbyte a) ∧
      t.rd (O.BASE_LOAD_OFFSET ten) = o + data.length ∧
      s.Frame (answerParts ++ [.transfers, .baseMem]) [O.BASE_LOAD_OFFSET ten] t) ∧
  (∀ (s : State) (ep : Endpoint) (ten : Fin 32) (a : Fin 4294967296), s.sized = true →
    s.accepts ep 0x2206 1 ten (leBytes 4 a) = true →
    s.rd O.MID_TENANT = ten ∧
    ∃ t, exec (.midProgram ep ten a) s = .next t ∧ s.wrote t ep 0x2206 1 ten (leBytes 4 a) ∧
      t.rd (O.MID_PROGRAM ten) = a ∧
      s.Frame (answerParts ++ [.mismatch, .security]) [O.MID_PROGRAM ten, O.PROG_DIGEST ten, O.PROG_COUNT ten] t)

/-- CORE_GRANT, WAY_GRANT, CHANNEL_GRANT, LODGE_SEG_OWNER and BUDGET_SHARE_WRITE (R295, R296, R315-R319, R330, R334): tenant
0 grants; what another tenant holds is refused; a changed mapping makes a window's contents undefined and leaves every
other tenant's as they were; a changed share shows MISMATCH until the next boundary. -/
def Obligations.GrantRowsGrant : Prop :=
  (∀ (s : State) (ep : Endpoint) (ten : Fin 32) (r : Fin 4) (v : Fin 256), s.sized = true →
    s.accepts ep 0x6201 (r + 1) ten (leBytes 1 v) = true →
    s.epTenant (epIdx ep) = 0 ∧ (v ≠ 0 → s.rd (O.WAY_GRANT r ten) ≠ 0) ∧
    ∃ t, exec (.coreGrant ep ten r v) s = .next t ∧ s.wrote t ep 0x6201 (r + 1) ten (leBytes 1 v) ∧
      t.rd (O.CORE_GRANT r ten) = v ∧ t.rd (O.TEN_RINKS ten) = t.rinkSet ten ∧
      (v.val % 16 = 0 → (t.rink r).ctx.contains (some ten.val) = false) ∧
      (v.val % 16 ≠ 0 → none ∈ (s.rink r).ctx → (t.rink r).ctx.contains (some ten.val) = true) ∧
      (∀ c, c ≠ r.val → t.rink c = s.rink c) ∧ t.compute.acts = s.compute.acts ∧ t.compute.cores = s.compute.cores ∧
      s.Frame (answerParts ++ [.compute, .integrity]) ([O.CORE_GRANT r ten, O.TEN_RINKS ten, O.PICTURE_STATE,
        O.PICTURE_DROPS, O.PICTURE_LAST_CAUSE] ++ (List.range 4).map (O.CTX_INSTRUCTIONS r)) t) ∧
  (∀ (s : State) (ep : Endpoint) (ten : Fin 32) (r : Fin 4) (v : Fin 65536), s.sized = true →
    s.accepts ep 0x6203 (r + 1) ten (leBytes 2 v) = true →
    s.epTenant (epIdx ep) = 0 ∧ (∀ w u, w < 16 → u < 32 → u ≠ ten.val → v.val.testBit w = true →
      (s.rd (O.WAY_GRANT r u)).testBit w = false) ∧
    ∃ t, exec (.wayGrant ep ten r v) s = .next t ∧ s.wrote t ep 0x6203 (r + 1) ten (leBytes 2 v) ∧
      t.rd (O.WAY_GRANT r ten) = v ∧ (v = 0 → t.rd (O.WINDOW_WAYS r ten) = 0) ∧
      ((∀ w, w < 16 → (s.rd (O.WAY_GRANT r ten)).testBit w = true → v.val.testBit w = true) →
        s.Frame answerParts [O.WAY_GRANT r ten, O.WINDOW_WAYS r ten] t)) ∧
  (∀ (s : State) (ep : Endpoint) (ten : Fin 32) (v : Fin 65536), s.sized = true →
    s.accepts ep 0x6204 1 ten (leBytes 2 v) = true →
    s.epTenant (epIdx ep) = 0 ∧ s.tenantBusy ten = false ∧
    ∃ t, exec (.channelGrant ep ten v) s = .next t ∧ s.wrote t ep 0x6204 1 ten (leBytes 2 v) ∧
      t.rd (O.CHANNEL_GRANT ten) = v ∧
      (s.rd (O.CHANNEL_GRANT ten) = v.val → s.Frame answerParts [] t) ∧
      (s.rd (O.CHANNEL_GRANT ten) ≠ v.val → (∀ a, a < lodgeBase → kvGet (tkey ten a) t.tmem = none) ∧
        (∀ u a, u ≠ ten.val → u < 32 → a < 2 ^ 40 → t.tbyte u a = s.tbyte u a) ∧
        s.Frame (answerParts ++ [.compute, .integrity, .tenantMem, .draws]) [O.CHANNEL_GRANT ten] t)) ∧
  (∀ (s : State) (ep : Endpoint) (g : Fin 32) (v : Fin 256), s.sized = true →
    s.accepts ep 0x7003 (g + 1) 0 (leBytes 1 v) = true →
    (s.rd O.HELD_SEGMENTS).testBit g = false ∧
    ∃ t, exec (.lodgeSegOwner ep g v) s = .next t ∧ s.wrote t ep 0x7003 (g + 1) 0 (leBytes 1 v) ∧
      t.rd (O.LODGE_SEG_OWNER g) = v ∧
      (s.rd (O.LODGE_SEG_OWNER g) = v.val → s.Frame answerParts cfgKeys t) ∧
      (s.rd (O.LODGE_SEG_OWNER g) ≠ v.val →
        (∀ u a, u = v.val ∨ u = s.rd (O.LODGE_SEG_OWNER g) → u < 32 → lodgeBase ≤ a → a < 2 ^ 40 →
          kvGet (tkey u a) t.tmem = none) ∧
        (∀ u a, u ≠ v.val → u ≠ s.rd (O.LODGE_SEG_OWNER g) → u < 32 → a < 2 ^ 40 → t.tbyte u a = s.tbyte u a) ∧
        s.Frame (answerParts ++ [.compute, .integrity, .tenantMem, .draws]) (O.LODGE_SEG_OWNER g :: cfgKeys) t)) ∧
  (∀ (s : State) (ep : Endpoint) (ten : Fin 32) (which : BudgetShare) (res : Fin 13) (v : Fin 65536), s.sized = true →
    s.accepts ep (shareIdx which) (res + 1) ten (leBytes 2 v) = true →
    let k := okey (shareIdx which) (res + 1) ten
    s.epTenant (epIdx ep) = 0 ∧ (which = .lcReserve → v.val ≤ s.rd (O.LC_LIMIT res ten)) ∧
    (which = .lcLimit → s.rd (O.LC_RESERVE res ten) ≤ v.val) ∧
    ∃ t, exec (.budgetShareWrite ep ten which res v) s = .next t ∧ s.wrote t ep (shareIdx which) (res + 1) ten (leBytes 2 v) ∧
      t.rd k = v ∧ (s.rd k ≠ v.val → t.mismatch.contains k = true) ∧
      s.Frame (answerParts ++ [.mismatch]) [k] t)

/-- RING_CONFIG_WRITE (R348): an accepted write empties the ring, recording restarts with the next block, and the reset is
counted; under a latch or a handover the write is UNIT_NOT_IDLE.  START opens the handover of the latched wake to its
owner's stream, and CLOSE ends it and the latch (R351, R354, R356). -/
def Obligations.RingRowsConfigureAndHandOver : Prop :=
  (∀ (s : State) (ep : Endpoint) (isBits : Bool) (v : Fin 256), s.sized = true →
    s.accepts ep 0x4020 (if isBits then 2 else 1) 0 (leBytes 1 v) = true →
    s.audio.ring.latch = none ∧ s.audio.ring.handover = none ∧
    ∃ t, exec (.ringConfigWrite ep isBits v) s = .next t ∧ s.wrote t ep 0x4020 (if isBits then 2 else 1) 0 (leBytes 1 v) ∧
      t.rd (if isBits then O.RING_BITS else O.RING_CHANNELS) = v ∧ t.audio.ring.blocks = [] ∧
      t.rd O.RING_SPAN_MS = 0 ∧ t.rd O.RING_RESETS = (s.rd O.RING_RESETS + 1) % 4294967296 ∧
      s.Frame (answerParts ++ [.mismatch, .audio]) ([if isBits then O.RING_BITS else O.RING_CHANNELS, O.RING_SPAN_MS,
        O.RING_OLDEST, O.RING_WRAPPED, O.RING_RESETS] ++ cfgKeys) t ∧
      (∀ taps, t.ready 0x29 = true → 2 ≤ t.rd O.POWER_STATE → t.rd O.RING_CHANNELS ≠ 0 → t.rd O.RING_BITS ≤ 24 →
        ∃ u b, exec (.ringBlockBoundary taps) t = .next u ∧ u.audio.ring.blocks = [b] ∧
          b.frame = t.audio.ring.nextFrame)) ∧
  (∀ (s : State) (ep : Endpoint) (isBits : Bool) (v : Fin 256), s.sized = true →
    let sub := if isBits then 2 else 1
    (s.modRing fun r => { r with latch := none, handover := none }).accepts ep 0x4020 sub 0 (leBytes 1 v) = true →
    s.audio.ring.latch ≠ none ∨ s.audio.ring.handover ≠ none →
    ∃ t, exec (.ringConfigWrite ep isBits v) s = .next t ∧ s.Frame answerParts [] t ∧
      t.response ep = some ((s.rowWrite ep 0x4020 sub 0 (leBytes 1 v)).reply (Answer.abort .unitNotIdle sub))) ∧
  (∀ (s : State) (ep : Endpoint) (ten : Fin 32), s.sized = true → s.accepts ep 0x4021 2 ten [1] = true →
    s.rd O.RING_CONSUMER_CLAIM = ten ∧ s.audio.ring.handover = none ∧
    ∃ t h w, exec (.start ep ten) s = .next t ∧ s.wrote t ep 0x4021 2 ten [1] ∧ s.audio.ring.latch = some w ∧
      t.audio.ring.latch = some w ∧ t.audio.ring.handover = some h ∧ h.tenant = ten ∧
      h.stream = s.rd (O.HANDOVER_STREAM ten) ∧ h.seq = 1 ∧ h.live = false ∧ t.rd O.RING_STATE = 3 ∧
      t.rd O.HANDOVERS = (s.rd O.HANDOVERS + 1) % 4294967296 ∧
      (t.stream h.stream).waiting.length = (s.stream h.stream).waiting.length + 1 ∧
      s.Frame (answerParts ++ [.audio, .streams]) [O.RING_STATE, O.HANDOVERS,
        O.STR_BLOCK_SEQ h.stream (s.streamOwner h.stream)] t) ∧
  (∀ (s : State) (ep : Endpoint) (ten : Fin 32), s.sized = true → s.accepts ep 0x4021 2 ten [2] = true →
    ∃ t h, exec (.close ep ten) s = .next t ∧ s.wrote t ep 0x4021 2 ten [2] ∧ s.audio.ring.handover = some h ∧
      h.tenant = ten ∧ t.audio.ring.handover = none ∧ t.audio.ring.latch = none ∧ t.audio.ring.markers = [] ∧
      t.audio.ring.blocks = s.audio.ring.blocks ∧ t.rd O.RING_STATE = 1 ∧
      s.Frame (answerParts ++ [.audio, .streams]) [O.RING_STATE, O.STR_BLOCK_SEQ h.stream (s.streamOwner h.stream)] t)

/-- CAMERA_ENABLE, COMMIT and QUEUE_PUSH (R365, R373, R374, R380, R384): an input starts at frame 0 with four unsettled
records, and its exposure loop at the largest exposure and the least gain; a commit waits for the next frame where the
input runs, and is in force at once where it does not; an accepted entry takes its place in the queue. -/
def Obligations.CameraRowsConfigure : Prop :=
  (∀ (s : State) (ep : Endpoint) (ten : Fin 32) (i : Fin 16) (v : Fin 256), s.sized = true →
    s.accepts ep (0x5020 + i) 1 ten (leBytes 1 v) = true →
    s.rd (O.CAM_OWNER i) = ten ∧
    ∃ t, exec (.cameraEnable ep ten i v) s = .next t ∧ s.wrote t ep (0x5020 + i) 1 ten (leBytes 1 v) ∧
      (v = 1 → s.camOn i = true → s.Frame answerParts [] t) ∧
      (v = 1 → s.camOn i = false → t.rd (O.CAM_ENABLE i ten) = 1 ∧ t.rd (O.FRAME_COUNT i) = 0 ∧
        t.rd (O.GEN_IN_FORCE i) = 0 ∧ (t.cam i).unsettled = 4 ∧ (t.cam i).frame = none ∧ (t.cam i).raws = [] ∧
        (t.cam i).active = (s.cam i).active ∧ (t.cam i).queue = (s.cam i).queue ∧
        (s.on (O.AE_ENABLE i) = true → (t.cam i).aeNext = some (s.rd (O.EXP_MAX i), s.rd (O.GAIN_MIN i)))) ∧
      (v = 0 → t.rd (O.CAM_ENABLE i ten) = 0 ∧ (t.cam i).frame = none ∧ (t.cam i).raws = []) ∧
      s.Frame (answerParts ++ [.mismatch, .camera]) [O.CAM_ENABLE i ten, O.FRAME_COUNT i, O.GEN_IN_FORCE i,
        O.AE_EXPOSURE i, O.AE_GAIN i] t) ∧
  (∀ (s : State) (ep : Endpoint) (ten : Fin 32) (i : Fin 16) (v : Fin 256), s.sized = true →
    s.accepts ep (0x5020 + i) 0x0B ten (leBytes 1 v) = true →
    s.rd (O.CAM_OWNER i) = ten ∧ s.setOk i ten (s.shadowSet i ten) = true ∧
    ∃ t, exec (.commit ep ten i v) s = .next t ∧ s.wrote t ep (0x5020 + i) 0x0B ten (leBytes 1 v) ∧
      (s.camOn i = true → (t.cam i).pending = some (s.shadowSet i ten) ∧ (t.cam i).active = (s.cam i).active ∧
        t.rd (O.CAM_COMMIT_PENDING i ten) = 1) ∧
      (s.camOn i = false → (t.cam i).active = some (s.shadowSet i ten) ∧ (t.cam i).pending = none ∧
        t.rd (O.CAM_COMMIT_PENDING i ten) = 0 ∧ t.rd (O.COMMIT_FRAME i ten) = 0) ∧
      s.Frame (answerParts ++ [.camera]) [O.CAM_COMMIT_PENDING i ten, O.COMMIT_FRAME i ten, O.COMMITS_SUPERSEDED i] t) ∧
  (∀ (s : State) (ep : Endpoint) (ten : Fin 32) (i : Fin 16) (bs : List Byte), s.sized = true →
    s.accepts ep (0x5020 + i) 0x0E ten bs = true →
    ∃ t e, exec (.queuePush ep ten i bs) s = .next t ∧ s.wrote t ep (0x5020 + i) 0x0E ten bs ∧ qEntryOf bs = some e ∧
      (s.cam i).lastAccepted < e.generation ∧ (s.cam i).queue.length < 8 ∧ (t.cam i).lastAccepted = e.generation ∧
      ((s.cam i).window = none → s.privacyOn = false ∨ s.camOn i = false →
        (t.cam i).queue = (s.cam i).queue ++ [e] ∧
        s.Frame (answerParts ++ [.camera, .transfers]) [O.QUEUE_STATE i (s.rd (O.CAM_OWNER i))] t))

/-- TIME_SET, TIME_ADJUST, RATE_ADJ, MDIO_ACCESS, TXTS_QUEUE, TIO_MODE, CAPTURE_QUEUE, TRIG_ACTIONS and TRIG_TARGET_WRITE
(R389, R393, R394, R401, R403, R405, R407, R408, R410): the time steps and every step is counted, a slew begins, a rate is
set, one clause 22 operation begins; a queue's read returns its oldest entry and removes it; a ball takes its mode, and a
trigger is armed, disarmed, or fires at once where its target has passed. -/
def Obligations.TimeRowsSetTimeAndTriggers : Prop :=
  (∀ (s : State) (ep : Endpoint) (bs : List Byte), s.sized = true → s.accepts ep 0x3000 3 0 bs = true →
    s.rd O.SYNC_SOURCE = 0 ∧
    ∃ t v, exec (.timeSet ep bs) s = .next t ∧ s.wrote t ep 0x3000 3 0 bs ∧ time96Of bs = some v ∧ t.timeNow = v ∧
      t.time.slew = 0 ∧ t.time.rho = s.time.rho ∧ t.rd O.STEPS = (s.rd O.STEPS + 1) % 4294967296) ∧
  (∀ (s : State) (ep : Endpoint) (v : Fin 18446744073709551616), s.sized = true →
    s.accepts ep 0x3000 4 0 (leBytes 8 v) = true →
    ∃ t, exec (.timeAdjust ep v) s = .next t ∧ s.wrote t ep 0x3000 4 0 (leBytes 8 v) ∧
      t.time = { s.time with slew := s.time.slew + sx 64 v * 1000000000000 } ∧
      s.Frame (answerParts ++ [.time]) cfgKeys t) ∧
  (∀ (s : State) (ep : Endpoint) (v : Fin 4294967296), s.sized = true → s.accepts ep 0x3000 5 0 (leBytes 4 v) = true →
    ∃ t, exec (.rateAdj ep v) s = .next t ∧ s.wrote t ep 0x3000 5 0 (leBytes 4 v) ∧
      t.time = { s.time with rho := sx 32 v } ∧
      s.Frame (answerParts ++ [.mismatch, .time]) (okey 0x3000 5 0 :: cfgKeys) t) ∧
  (∀ (s : State) (ep : Endpoint) (v : Fin 4294967296), s.sized = true → s.accepts ep 0x3010 9 0 (leBytes 4 v) = true →
    ∃ t, exec (.mdioAccess ep v) s = .next t ∧ s.wrote t ep 0x3010 9 0 (leBytes 4 v) ∧ t.rd O.MDIO_ACCESS = v ∧
      t.net.mdio = (if v.val.testBit 31 then some v.val else s.net.mdio) ∧
      (v.val.testBit 31 = true →
        .mdio (v.val.testBit 30) (bits v 29 25) (bits v 24 20) (bits v 15 0) ∈ t.out) ∧
      s.Frame (answerParts ++ [.net]) (O.MDIO_ACCESS :: cfgKeys) t) ∧
  (∀ (s : State) (ep : Endpoint) (port : Fin 2), s.sized = true →
    let i := if port = 0 then 0x3010 else 0x3020
    let n := if port = 0 then 0x0A else 0x14
    let queue := if port = 0 then s.net.txts0 else s.net.txts1
    s.readable ep i n 0 = true → (queue.headD []).length ≤ 1024 →
    ∃ t a, exec (.txtsQueue ep port) s = .next t ∧ t.response ep = some ((s.rowReq ep 0 0 i n 0 []).reply a) ∧
      a.status = 0 ∧ a.body = queue.headD [] ∧ (if port = 0 then t.net.txts0 else t.net.txts1) = queue.drop 1 ∧
      s.Frame (answerParts ++ [.net]) [] t) ∧
  (∀ (s : State) (ep : Endpoint) (ten : Fin 32) (n : Fin 4) (v : Fin 256), s.sized = true →
    s.accepts ep (0x3100 + n) 1 ten (leBytes 1 v) = true →
    ∃ t, exec (.tioMode ep ten n v) s = .next t ∧ s.wrote t ep (0x3100 + n) 1 ten (leBytes 1 v) ∧
      t.rd (O.TIO_MODE n ten) = v ∧
      (v ≠ 0 → s.tioOwner n = ten) ∧
      (s.tioOwner n = ten → v ≠ 2 → t.train n = none ∧ nth t.pins.tioLevel n true = false ∧
        t.rd (O.TIO_STATE n ten) = (if v = 0 then 0 else 2)) ∧
      (v = 2 → ∃ x, t.train n = some x ∧ x.start = s.rd (O.PULSE_START n ten) ∧ x.period = s.rd (O.PULSE_PERIOD n ten) ∧
        x.width = s.rd (O.PULSE_WIDTH n ten) ∧ x.count = s.rd (O.PULSE_COUNT n ten) ∧ x.k = 0 ∧
        (x.waiting = true ↔ x.start = 0) ∧ nth t.pins.tioLevel n true = x.idleHigh ∧
        t.rd (O.TIO_STATE n ten) = (if x.start = 0 then 1 else 2)) ∧
      s.Frame (answerParts ++ [.pins, .net]) [O.TIO_MODE n ten, O.TIO_STATE n ten] t) ∧
  (∀ (s : State) (ep : Endpoint) (ten : Fin 32) (n : Fin 4), s.sized = true → s.readable ep (0x3100 + n) 8 ten = true →
    s.tioOwner n = ten → ((nth s.net.captures n []).headD []).length ≤ 1024 →
    ∃ t a, exec (.captureQueue ep ten n) s = .next t ∧
      t.response ep = some ((s.rowReq ep 0 0 (0x3100 + n) 8 ten []).reply a) ∧ a.status = 0 ∧
      a.body = (nth s.net.captures n []).headD [] ∧ nth t.net.captures n [] = (nth s.net.captures n []).drop 1 ∧
      (∀ m, m ≠ n.val → nth t.net.captures m [] = nth s.net.captures m []) ∧ s.Frame (answerParts ++ [.net]) [] t) ∧
  (∀ (s : State) (ep : Endpoint) (ten : Fin 32) (n : Fin 8) (v : Fin 256), s.sized = true →
    s.accepts ep (0x3110 + n) 1 ten (leBytes 1 v) = true →
    let due := s.timeRuns = true ∧ s.ahead (s.rd (O.TRIG_TARGET n ten)) ≤ 0
    ∃ t, exec (.trigActions ep ten n v) s = .next t ∧ s.wrote t ep (0x3110 + n) 1 ten (leBytes 1 v) ∧
      (v = 0 → t.rd (O.TRIG_STATE n ten) = 0) ∧ (v ≠ 0 → s.trigOwner n = ten) ∧
      (v = 0 ∨ ¬ due → t.rd (O.TRIG_ACTIONS n ten) = v ∧ s.Frame answerParts [O.TRIG_ACTIONS n ten, O.TRIG_STATE n ten] t) ∧
      (v ≠ 0 → ¬ due → t.rd (O.TRIG_STATE n ten) = 1) ∧
      (v ≠ 0 → due → s.rd (O.TRIG_PERIOD n ten) = 0 → t.rd (O.TRIG_STATE n ten) = 2 ∧ t.rd (O.TRIG_ACTIONS n ten) = 0 ∧
        t.rd (O.TRIG_LATE n ten) = (s.rd (O.TRIG_LATE n ten) + 1) % 4294967296)) ∧
  (∀ (s : State) (ep : Endpoint) (ten : Fin 32) (n : Fin 8) (isPeriod : Bool) (v : Fin 18446744073709551616),
    s.sized = true → s.accepts ep (0x3110 + n) (if isPeriod then 3 else 2) ten (leBytes 8 v) = true →
    let k := okey (0x3110 + n) (if isPeriod then 3 else 2) ten
    let fires := s.armed n = some ten.val ∧ s.timeRuns = true ∧
      s.ahead (if isPeriod then s.rd (O.TRIG_TARGET n ten) else v) ≤ 0
    ∃ t, exec (.trigTargetWrite ep ten n isPeriod v) s = .next t ∧
      s.wrote t ep (0x3110 + n) (if isPeriod then 3 else 2) ten (leBytes 8 v) ∧
      (¬ fires → t.rd k = v ∧ s.Frame (answerParts ++ [.mismatch]) [k] t) ∧
      (fires → isPeriod = false → s.rd (O.TRIG_PERIOD n ten) = 0 →
        t.rd (O.TRIG_STATE n ten) = 2 ∧ t.rd (O.TRIG_ACTIONS n ten) = 0))

/-- Q_ENABLE, STREAM_ENABLE and STREAM_COMMIT (R416, R421, R422, R426): an enabled queue starts empty, a disabled one keeps
its place; an enabled context runs on the route its fields hold, from block 0; a commit waits in every context that the
tenant has enabled. -/
def Obligations.HostRowsEnableQueuesAndStreams : Prop :=
  (∀ (s : State) (ep : Endpoint) (ten : Fin 32) (q : Fin 8) (v : Fin 256), s.sized = true →
    s.accepts ep (0x7110 + q) 1 ten (leBytes 1 v) = true →
    ∃ t, exec (.qEnable ep ten q v) s = .next t ∧ s.wrote t ep (0x7110 + q) 1 ten (leBytes 1 v) ∧
      t.rd (O.Q_ENABLE q ten) = v ∧
      (s.rd (O.Q_ENABLE q ten) = v.val → s.Frame answerParts [] t) ∧
      (s.rd (O.Q_ENABLE q ten) ≠ v.val → t.rd (O.Q_STATE q ten) = v) ∧
      (s.rd (O.Q_ENABLE q ten) ≠ 1 → v = 1 → t.queue ten q = Queue.reset ∧ t.rd (O.Q_FAULT_CAUSE q ten) = 0) ∧
      (v = 0 → t.queue ten q = s.queue ten q) ∧
      (∀ f p, f ≠ ten.val ∨ p ≠ q.val → t.queue f p = s.queue f p) ∧
      s.Frame (answerParts ++ [.jobs]) [O.Q_ENABLE q ten, O.Q_STATE q ten, O.Q_FAULT_CAUSE q ten] t) ∧
  (∀ (s : State) (ep : Endpoint) (ten : Fin 32) (k : Fin 96) (v : Fin 256), s.sized = true →
    s.accepts ep (0xA000 + k) 1 ten (leBytes 1 v) = true →
    ∃ t, exec (.streamEnable ep ten k v) s = .next t ∧ s.wrote t ep (0xA000 + k) 1 ten (leBytes 1 v) ∧
      (v = 1 → s.streamOwner k = ten ∧ pairing (s.rd (O.STR_SOURCE k ten)) (s.rd (O.STR_SINK k ten)) = true) ∧
      (v = 1 → s.rd (O.STR_ENABLE k ten) = 1 → s.rd (O.STR_STATE k ten) ≠ 3 → s.Frame answerParts [] t) ∧
      (v = 1 → s.rd (O.STR_ENABLE k ten) ≠ 1 → t.rd (O.STR_ENABLE k ten) = 1 ∧ t.rd (O.STR_BLOCK_SEQ k ten) = 0 ∧
        t.rd (O.STR_FAULT_CAUSE k ten) = 0 ∧ t.stream k = { StreamCtx.reset with active := s.shadow k ten } ∧
        t.rd (O.STR_STATE k ten) = (if isRing (s.rd (O.STR_SOURCE k ten)) then 2 else 1) ∧
        s.Frame (answerParts ++ [.streams]) [O.STR_ENABLE k ten, O.STR_BLOCK_SEQ k ten, O.STR_COMMIT_PENDING k ten,
          O.STR_FAULT_CAUSE k ten, O.STR_STATE k ten] t) ∧
      (v = 0 → s.rd (O.STR_ENABLE k ten) ≠ 1 → s.Frame answerParts [] t) ∧
      (v = 0 → s.rd (O.STR_ENABLE k ten) = 1 → t.rd (O.STR_ENABLE k ten) = 0 ∧ t.rd (O.STR_STATE k ten) = 0 ∧
        t.stream k = StreamCtx.reset)) ∧
  (∀ (s : State) (ep : Endpoint) (ten : Fin 32) (v : Fin 256), s.sized = true →
    s.accepts ep 0x7120 1 ten (leBytes 1 v) = true →
    ∃ t, exec (.streamCommit ep ten v) s = .next t ∧ s.wrote t ep 0x7120 1 ten (leBytes 1 v) ∧
      (∀ k, k < 96 → s.streamOwner k = ten → s.strEnabled k = true →
        (t.stream k).pending = some (s.shadow k ten) ∧ (t.stream k).active = (s.stream k).active ∧
        t.rd (O.STR_COMMIT_PENDING k ten) = 1) ∧
      (∀ k, s.streamOwner k ≠ ten ∨ s.strEnabled k = false → t.stream k = s.stream k) ∧
      s.Frame (answerParts ++ [.streams]) ((List.range 96).flatMap fun k =>
        [O.STR_COMMIT_PENDING k ten, O.STR_SUPERSEDED k ten]) t)

/-- ADMIT, REMOVE, DEBUG_TOKEN, MEASURE_REQUEST, CONSENT_WRITE, SOFT_REPAIR_ADD and DIE_RESTART_REQUEST (R444-R448, R454,
R462, R464, R482, R483): a slot is admitted under a new key once Patrol is free and there is entropy; a removed tenant
keeps no grant, no memory, no subscription and no consent; an accepted token unlocks the TAP; a measurement waits its
turn; consent that falls clears the tenant's trace; repairs join the list; a die stops in the Snowplough. -/
def Obligations.SecurityRowsAct : Prop :=
  (∀ (s : State) (ep : Endpoint) (x : Fin 32), s.sized = true → s.accepts ep (0xB000 + x) 2 0 [1] = true →
    x ≠ 0 ∧ s.ready 0x2C = true ∧ s.ready 0x2D = true ∧
    ∃ t, exec (.admitTenant ep x) s = .next t ∧ s.wrote t ep (0xB000 + x) 2 0 [1] ∧
      (s.security.tasks = [] → s.rd O.ENTROPY_STATE = 1 → t.rd (O.SLOT_STATE x) = 2 ∧
        t.rd (O.SLOT_EPOCH x) = (s.rd (O.SLOT_EPOCH x) + 1) % 4294967296 ∧
        nth t.security.slots x 0 = s.security.draws ∧ t.rd (O.DEBUG_CONSENT x) = 0 ∧ t.rd (O.PROFILE_CONSENT x) = 0 ∧
        t.rd (O.WEIGHT_COUNT x) = 0) ∧
      (s.security.tasks ≠ [] → t.rd (O.SLOT_STATE x) = 1 ∧ t.security.tasks = s.security.tasks ++ [.admission x] ∧
        t.security.slots = s.security.slots)) ∧
  (∀ (s : State) (ep : Endpoint) (x : Fin 32), s.sized = true → s.accepts ep (0xB000 + x) 2 0 [2] = true →
    x ≠ 0 ∧
    ∃ t, exec (.remove ep x) s = .next t ∧ s.wrote t ep (0xB000 + x) 2 0 [2] ∧ t.rd (O.TDI_STATE x) = 0 ∧
      (s.security.tasks = [] → t.rd (O.SLOT_STATE x) = 0 ∧ nth t.security.slots x 0 = 0 ∧
        (∀ r, r < 4 → t.rd (O.CORE_GRANT r x) = 0 ∧ t.rd (O.WAY_GRANT r x) = 0) ∧ t.rd (O.CHANNEL_GRANT x) = 0 ∧
        (∀ a, a < 2 ^ 40 → kvGet (tkey x a) t.tmem = none) ∧ (∀ b ∈ t.subs, b.ep ≠ x) ∧
        t.rd (O.DEBUG_CONSENT x) = 0 ∧ t.rd (O.PROFILE_CONSENT x) = 0 ∧ t.activity x = none ∧
        t.activity (x + 32) = none) ∧
      (∀ u a n, s.security.tasks.head? = some (.measure u a n) → t.rd (O.SLOT_STATE x) = 3)) ∧
  (∀ (s : State) (ep : Endpoint) (x : List Byte), s.sized = true → s.accepts ep 0x8010 2 0 x = true →
    s.tokenOk x = true ∧ s.written.contains O.DEBUG_TOKEN = false ∧
    ∃ t, exec (.debugToken ep x) s = .next t ∧ s.wrote t ep 0x8010 2 0 x ∧ t.rd O.DEBUG_LEVEL = 1 ∧
      t.pins = { s.pins with tapUnlocked := true } ∧ t.written.contains O.DEBUG_TOKEN = true ∧
      s.Frame (answerParts ++ [.pins, .marks]) (O.DEBUG_LEVEL :: cfgKeys) t) ∧
  (∀ (s : State) (ep : Endpoint) (ten : Fin 32) (x : List Byte), s.sized = true → s.accepts ep 0x8021 1 ten x = true →
    s.rd (O.MEASURE_STATE ten) ≠ 1 ∧ field x 0 8 % 64 = 0 ∧ s.allocOk ten (field x 0 8) (field x 8 4) = true ∧
    ∃ t, exec (.measureRequest ep ten x) s = .next t ∧ s.wrote t ep 0x8021 1 ten x ∧ t.rd (O.MEASURE_STATE ten) = 1 ∧
      t.security.tasks = s.security.tasks ++ [.measure ten (field x 0 8) (field x 8 4)] ∧
      s.Frame (answerParts ++ [.security]) [O.MEASURE_STATE ten, O.PATROL_STATE] t) ∧
  (∀ (s : State) (ep : Endpoint) (ten : Fin 32) (isProfile : Bool) (v : Fin 256), s.sized = true →
    s.accepts ep 0x8020 (if isProfile then 2 else 1) ten (leBytes 1 v) = true →
    let k := if isProfile then O.PROFILE_CONSENT ten else O.DEBUG_CONSENT ten
    s.epTenant (epIdx ep) = ten ∧
    ∃ t, exec (.consentWrite ep ten isProfile v) s = .next t ∧
      s.wrote t ep 0x8020 (if isProfile then 2 else 1) ten (leBytes 1 v) ∧ t.rd k = v ∧
      (s.rd k ≠ v.val → t.rd (O.CONSENT_CHANGES ten) = (s.rd (O.CONSENT_CHANGES ten) + 1) % 4294967296) ∧
      (s.rd k ≠ v.val → isProfile = true → v = 0 → ∀ p ∈ t.security.trace, field p.2 15 1 ≠ ten) ∧
      (isProfile = false ∨ v ≠ 0 → t.security = s.security) ∧
      s.Frame (answerParts ++ [.security]) [k, O.CONSENT_CHANGES ten] t) ∧
  (∀ (s : State) (ep : Endpoint) (bs : List Byte), s.sized = true → s.accepts ep 0x9013 1 0 bs = true →
    bs.length % 8 = 0 ∧ s.integrity.entries.length + bs.length / 8 ≤ 512 ∧
    ∃ t, exec (.softRepairAdd ep bs) s = .next t ∧ s.wrote t ep 0x9013 1 0 bs ∧
      t.integrity.entries = s.integrity.entries ++ chunksOf 8 bs ∧
      t.rd O.SOFT_REPAIR_ENTRIES = s.integrity.entries.length + bs.length / 8) ∧
  (∀ (s : State) (ep : Endpoint) (d : Fin 2), s.sized = true →
    s.accepts ep 0x9030 7 0 (leBytes 1 d) = true →
    let recent := (nth s.integrity.causes d []).filter fun c => decide (s.clock < c + 10000000000)
    ∃ t, exec (.dieRestartRequest ep ⟨d, by omega⟩) s = .next t ∧ s.wrote t ep 0x9030 7 0 (leBytes 1 d) ∧
      (s.rd (O.DIE_STATE d) < 2 → recent.length < 2 → t.rd (O.DIE_STATE d) = 2 ∧ t.rd (O.DIE_LAST_CAUSE d) = 7 ∧
        ∀ u ∈ dieUnits d, t.ready u = false) ∧
      (s.rd (O.DIE_STATE d) < 2 → 2 ≤ recent.length → t.rd (O.DIE_STATE d) = 4 ∧ t.rd (O.DIE_LAST_CAUSE d) = 9 ∧
        ∀ u ∈ dieUnits d, t.held u = true) ∧
      (2 ≤ s.rd (O.DIE_STATE d) → s.Frame answerParts cfgKeys t))

/-! ### Compute -/

/-- What moving bytes between a tenant's memory and a Rink or a link counts (7030, 7031). -/
def Sys2Proof.Machine.trafficKeys : List Nat :=
  (List.range 16).map O.CH_READ_BYTES ++ (List.range 16).map O.CH_WRITE_BYTES

/-- SCHEDULER_DECISION, BE_QUANTUM_EXPIRY, SWITCH_COMPLETE and BUDGET_PERIOD_BOUNDARY (R192, R321-R325, R328, R329,
R332): a free core is given the latency-critical activity of the lowest tenant, else the one eligible activity, else none;
a quantum ends only while another waits; a core that changes activity counts it, and for a new tenant shows nothing of
the old one; a period takes its passes from the shares and carries only what was overrun. -/
def Obligations.SchedulerChoosesAndCoresSwitch : Prop :=
  (∀ (s : State) (r : Fin 4), s.sized = true → s.alive = true → s.rinkOn r = true → s.ready (0x10 + r) = true →
    ∃ t, exec (.schedulerDecision r) s = .next t ∧
      (∀ c, c / 4 = r.val → s.coreServes c = true → s.coreOn c = true → s.claimsStopped = false →
        (s.core c).target = none →
        (∀ n, ((List.range 32).find? fun n => s.eligible (n + 32) c) = some n →
          (t.core c).target = if (s.core c).act = some (n + 32) then none else some (some (n + 32))) ∧
        (∀ n, n < 32 → (∀ a, a < 64 → (s.eligible a c = true ↔ a = n)) →
          (t.core c).target = if (s.core c).act = some n then none else some (some n)) ∧
        (∀ n, n < 32 → (∀ a, 32 ≤ a → a < 64 → s.eligible a c = false) → (s.core c).act = some n →
          s.eligible n c = true → s.unfinished n c = true → (s.core c).quantum = false → (t.core c).target = none) ∧
        ((∀ a, a < 64 → s.eligible a c = false) →
          (t.core c).target = if (s.core c).act = none then none else some none)) ∧
      (∀ c, t.core c = { s.core c with target := (t.core c).target }) ∧ (∀ c, c / 4 ≠ r.val → t.core c = s.core c) ∧
      t.compute.acts = s.compute.acts ∧ t.compute.used = s.compute.used ∧
      s.Frame [.compute] ((List.range 32).map O.PREEMPTIONS) t) ∧
  (∀ (s : State) (c : Fin 16) (a : Nat), s.sized = true → s.alive = true → (s.core c).act = some a → a < 32 →
    ∃ t, exec (.beQuantumExpiry c) s = .next t ∧
      ((s.core c).since + s.rd O.BE_QUANTUM_US * 1000 ≤ s.clock → (∃ n, n < 32 ∧ n ≠ a ∧ s.eligible n c = true) →
        t.core c = { s.core c with quantum := true }) ∧
      (s.clock < (s.core c).since + s.rd O.BE_QUANTUM_US * 1000 ∨ (∀ n, n < 32 → n ≠ a → s.eligible n c = false) →
        t = s) ∧
      (∀ d, d ≠ c.val → t.core d = s.core d) ∧ t.compute.acts = s.compute.acts ∧ s.Frame [.compute] [] t) ∧
  (∀ (s : State) (c : Fin 16) (ns : Nat) (w : Bool) (n : Nat), s.sized = true → s.alive = true → s.coreOn c = true →
    n < 64 → (s.core c).target = some (some n) → s.claimsOf c = [] →
    let ten := actTenant n
    ∃ t, exec (.switchComplete c ns w) s = .next t ∧ (t.core c).act = some n ∧ (t.core c).target = none ∧
      (t.core c).quantum = false ∧ (t.core c).since = s.clock ∧ (t.core c).holds = some ten ∧
      t.rd (O.CORE_SWITCHES c) = (s.rd (O.CORE_SWITCHES c) + 1) % 4294967296 ∧
      t.rd (O.SWITCH_INS ten) = (s.rd (O.SWITCH_INS ten) + 1) % 4294967296 ∧
      t.rd (O.SWITCH_OVERRUNS c) =
        (if w then (s.rd (O.SWITCH_OVERRUNS c) + 1) % 4294967296 else s.rd (O.SWITCH_OVERRUNS c)) ∧
      (w = false → (s.core c).holds = some ten → t.rd (O.SWITCH_LAST_NS c) =
        s.switchTime c (s.core c).act (some n) (s.core c).pages (s.core c).pages false % 4294967296) ∧
      ((s.core c).holds = some ten → t.clm = s.clm) ∧
      ((s.core c).holds ≠ some ten → kvGet ten (s.core c).saved = none →
        (∀ d, d ≠ c.val → ((s.core d).act.map actTenant) ≠ some ten) → ∀ a, a < clmEnd → t.cbyte c a = 0) ∧
      ((∀ p ∈ (s.core c).saved, ∀ q ∈ p.2, q.1 < clmEnd) →
        ∀ d a, d < 16 → a < 2 ^ 21 → d ≠ c.val → t.cbyte d a = s.cbyte d a) ∧
      (∀ d, d ≠ c.val → t.core d = s.core d) ∧ t.compute.acts = s.compute.acts ∧
      s.Frame [.compute, .coreMem, .tenantMem, .integrity]
        ([O.CORE_SWITCHES c, O.SWITCH_LAST_NS c, O.SWITCH_INS ten, O.SWITCH_OVERRUNS c] ++ trafficKeys) t) ∧
  (∀ (s : State) (c : Fin 16) (ns : Nat) (w : Bool), s.sized = true → s.alive = true → s.coreOn c = true →
    (s.core c).target = some none → s.claimsOf c = [] →
    ∃ t, exec (.switchComplete c ns w) s = .next t ∧
      t.core c = { s.core c with act := none, target := none, quantum := false, since := s.clock } ∧
      (∀ d, d ≠ c.val → t.core d = s.core d) ∧ s.Frame [.compute] [] t) ∧
  (∀ s : State, s.alive = true → 3 ≤ s.rd O.POWER_STATE → s.power.bringup = false →
    ∃ t, exec .budgetPeriodBoundary s = .next t ∧
      t.rd O.PERIOD_COUNT = (s.rd O.PERIOD_COUNT + 1) % 18446744073709551616 ∧
      (∀ n res, n < 32 → res < 13 →
        t.rd (O.PASS_LC res n) = s.rd (O.LC_LIMIT res n) * s.capacity res * s.rd O.BUDGET_PERIOD_US / 1024 ∧
        t.rd (O.PASS_BE res n) = s.rd (O.BE_LIMIT res n) * s.capacity res * s.rd O.BUDGET_PERIOD_US / 1024 ∧
        t.rd (O.USED_LC res n) = s.usedRes (n + 32) res ∧ t.rd (O.USED_BE res n) = s.usedRes n res) ∧
      (∀ a res, a < 64 → res < 32 → t.usedPass a res = s.usedPass a res - s.pass a res) ∧ t.compute.throttled = [] ∧
      t.compute.acts = s.compute.acts ∧ t.compute.cores = s.compute.cores ∧ t.compute.rinks = s.compute.rinks ∧
      s.Frame [.compute, .mismatch] (O.PERIOD_COUNT :: (List.range 32).flatMap fun n => (List.range 13).flatMap fun res =>
        [O.PASS_LC res n, O.PASS_BE res n, O.USED_LC res n, O.USED_BE res n, O.THROTTLED_LC res n, O.THROTTLED_BE res n]) t)

/-- The instructions of the sequencer: Rink, tenant, class, opcode. -/
def Sys2Proof.rowOp : Instr → Option (Fin 4 × Fin 32 × Bool × Opc)
  | .matmul r t lc => some (r, t, lc, .matmul)
  | .matmulBwd r t lc => some (r, t, lc, .matmulBwd)
  | .conv r t lc => some (r, t, lc, .conv)
  | .dwconv r t lc => some (r, t, lc, .dwconv)
  | .tconv r t lc => some (r, t, lc, .tconv)
  | .attend r t lc => some (r, t, lc, .attend)
  | .attendBwd r t lc => some (r, t, lc, .attendBwd)
  | .scan r t lc => some (r, t, lc, .scan)
  | .filter r t lc => some (r, t, lc, .filter)
  | .cropResize r t lc => some (r, t, lc, .cropResize)
  | .warp r t lc => some (r, t, lc, .warp)
  | .elementwise r t lc => some (r, t, lc, .elementwise)
  | .reduce r t lc => some (r, t, lc, .reduce)
  | .gather r t lc => some (r, t, lc, .gather)
  | .scatter r t lc => some (r, t, lc, .scatter)
  | .copy r t lc => some (r, t, lc, .copy)
  | .fuseBegin r t lc => some (r, t, lc, .fuseBegin)
  | .fuseEnd r t lc => some (r, t, lc, .fuseEnd)
  | .barrier r t lc => some (r, t, lc, .barrier)
  | .fence r t lc => some (r, t, lc, .fence)
  | .checkpoint r t lc => some (r, t, lc, .checkpoint)
  | _ => none

/-- The program `x` of activity `a` stands in Rink `r` before an instruction of opcode `o`, which may start there with
its Rink set in force. -/
structure Sys2Proof.Machine.State.comesUp (s : State) (a r : Nat) (x : Activity) (o : Opc) : Prop where
  sized : s.sized = true
  alive : s.alive = true
  powered : s.rinkOn r = true
  running : s.activity a = some x
  split : x.set = s.rinkList (actTenant a)
  starts : s.mayStart a r x = true
  rinks : x.rinks.length = 4
  job : x.fn < 32 ∧ x.q < 8
  opcode : ((s.progCtx x.prog a (s.viewCore a r)).instr (x.pos r).pc).opc = some o

/-- The compute instructions and FUSE_BEGIN (R156, R188, R198, R208, R217, R255): one whose share is not empty and whose
checks pass starts with its share as tickets, no tile claimed; ATTEND on position 0 after its page step, elsewhere once
that has run. One whose check fails ends the job with the failing check, now or when no claimed tile is left; a Rink
without a share passes. -/
def Obligations.InstructionsStartWithTheirShare : Prop :=
  ∀ (s : State) (c : Instr) (r : Fin 4) (n : Fin 32) (lc : Bool) (o : Opc) (x : Activity),
    rowOp c = some (r, n, lc, o) → (o.control = false ∨ o = .fuseBegin) → s.comesUp (actNo n lc) r x o →
    (x.pos r).inGroup = false →
    let a := actNo n lc
    let cx := s.progCtx x.prog a (s.viewCore a r)
    let idx := (x.pos r).pc
    let m := cx.instr idx
    let i := x.set.idxOf r.val
    (∀ p, cx.planOf idx = some p → cx.check idx = none → s.coresOf a r ≠ [] →
      let share := cx.share m p m.split x.set.length i
      share ≠ [] → (o = .attend → i = 0 ∧ (s.pageStep a r cx m).2 = none ∨ i ≠ 0 ∧ x.pagesDone idx = true) →
      ∃ t y u, exec c s = .next t ∧ t.activity a = some y ∧ (y.pos r).run = some u ∧ u.idx = idx ∧
        u.todo = (if p.cls = .chunk then share.filter fun t => p.coord 3 t == 0 else share) ∧ u.claimed = [] ∧
        u.left = share.length ∧ u.k = x.set.length ∧ u.pos = i ∧ (y.pos r).pc = idx ∧ y.failed = none ∧ y.set = x.set ∧
        (∀ q, q ≠ r.val → y.pos q = x.pos q) ∧ (∀ b, b ≠ a → t.activity b = s.activity b) ∧
        t.compute.cores = s.compute.cores ∧
        s.Frame ([.compute] ++ if o = .attend ∧ i = 0 then [.tenantMem, .hostMem] else []) [O.PASS_THROUGH n] t) ∧
    (∀ b j, cx.check idx = some (b, j) → s.coresOf a r ≠ [] →
      (∀ p, cx.planOf idx = some p → cx.share m p m.split x.set.length i ≠ []) →
      ∃ t, exec c s = .next t ∧
        (if x.claims = [] then t.activity a = none ∧ (t.queue x.fn x.q).errorBefore = true
          else ∃ y, t.activity a = some y ∧ y.failed.isSome = true ∧ y.claims = x.claims ∧
            ∀ q u, (y.pos q).run = some u → u.todo = []) ∧
        (∀ e, b = .format e → t.rd (O.FORMAT_REJECTS n) = (s.rd (O.FORMAT_REJECTS n) + 1) % 4294967296 ∧
          t.rd (O.LAST_REJECT_CAUSE n) = e % 256) ∧
        (∀ l q, b = .tag l q → t.rd (O.TAG_FAULTS n) = (s.rd (O.TAG_FAULTS n) + 1) % 4294967296) ∧
        (∀ d, d ≠ a → t.activity d = s.activity d) ∧ t.compute.cores = s.compute.cores) ∧
    (∀ p, cx.planOf idx = some p → cx.share m p m.split x.set.length i = [] → ¬ (i = 0 ∧ p.total = 0) →
      let past := if m.is .fuseBegin then idx + (cx.layers idx).length + 2 else idx + 1
      past < x.prog.instrCount → (cx.instr past).opc ≠ none →
      ∃ t y, exec c s = .next t ∧ t.activity a = some y ∧ (y.pos r).pc = past ∧ (y.pos r).run = none ∧
        (∀ q, q ≠ r.val → y.pos q = x.pos q) ∧ (∀ d, d ≠ a → t.activity d = s.activity d) ∧
        t.compute.cores = s.compute.cores ∧
        s.Frame [.compute, .jobs, .delivery] ((List.range 4).map (O.CTX_INSTRUCTIONS r)) t)

/-- FUSE_END, BARRIER, CHECKPOINT, FENCE and BARRIER_RELEASE (R213, R218, R219, R298, R420): FUSE_END passes the group
whose tiles have completed; the others first write the tenant's dirty lines of the Rink back, which every Rink then
sees; a FENCE passes, a BARRIER or CHECKPOINT waits until every Rink of the set has arrived, and then all proceed, a
CHECKPOINT with its progress completion and, with PAUSE, not before RESUME. -/
def Obligations.ControlInstructionsSynchronise : Prop :=
  (∀ (s : State) (r : Fin 4) (n : Fin 32) (lc : Bool) (x : Activity), s.sized = true → s.alive = true →
    s.rinkOn r = true → s.activity (actNo n lc) = some x → x.set = s.rinkList n → s.mayStart (actNo n lc) r x = true →
    x.rinks.length = 4 → (x.pos r).inGroup = true →
    let a := actNo n lc
    let cx := s.progCtx x.prog a (s.viewCore a r)
    let stop := (x.pos r).pc + (cx.layers (x.pos r).pc).length + 1
    (cx.instr stop).opc = some .fuseEnd → stop + 1 < x.prog.instrCount → (cx.instr (stop + 1)).opc ≠ none →
    ∃ t y, exec (.fuseEnd r n lc) s = .next t ∧ t.activity a = some y ∧ (y.pos r).pc = stop + 1 ∧
      (y.pos r).inGroup = false ∧ (y.pos r).run = none ∧ (∀ q, q ≠ r.val → y.pos q = x.pos q) ∧
      (∀ d, d ≠ a → t.activity d = s.activity d) ∧
      s.Frame [.compute, .jobs, .delivery] ((List.range 4).map (O.CTX_INSTRUCTIONS r)) t) ∧
  (∀ (s : State) (c : Instr) (r : Fin 4) (n : Fin 32) (lc : Bool) (o : Opc) (x : Activity),
    rowOp c = some (r, n, lc, o) → o = .barrier ∨ o = .checkpoint ∨ o = .fence → s.comesUp (actNo n lc) r x o →
    (x.pos r).inGroup = false →
    let a := actNo n lc
    let cx := s.progCtx x.prog a (s.viewCore a r)
    let idx := (x.pos r).pc
    cx.check idx = none →
    (o = .fence → idx + 1 < x.prog.instrCount ∧
      ((s.commit r n).progCtx x.prog a (s.viewCore a r)).instr (idx + 1) = cx.instr (idx + 1) ∧
      (cx.instr (idx + 1)).opc ≠ none) →
    ∃ t y, exec c s = .next t ∧ t.activity a = some y ∧
      (if o = .fence then (y.pos r).pc = idx + 1 ∧ (y.pos r).arrived = false
        else (y.pos r).pc = idx ∧ (y.pos r).arrived = true) ∧
      (∀ q, q ≠ r.val → y.pos q = x.pos q) ∧ (∀ d, d ≠ a → t.activity d = s.activity d) ∧
      (∀ q, q ≠ r.val → t.rink q = s.rink q) ∧ (∀ k, k < 2 ^ 40 → kvGet (tkey n k) (t.rink r).dirty = none) ∧
      (kvWf (s.rink r).dirty = true → (s.rink r).poison = [] → ∀ k, k < 2 ^ 40 → t.tbyte n k = s.rbyte r n k) ∧
      (∀ b k, b < 32 → b ≠ n.val → k < 2 ^ 40 → t.tbyte b k = s.tbyte b k) ∧
      s.Frame ([.compute, .tenantMem, .integrity] ++ if o = .fence then [.jobs, .delivery] else [])
        (trafficKeys ++ (List.range 4).map (O.CTX_INSTRUCTIONS r)) t) ∧
  (∀ (s : State) (n : Fin 32) (lc : Bool) (x : Activity), s.sized = true → s.alive = true →
    s.activity (actNo n lc) = some x → x.set ≠ [] → (∀ r ∈ x.set, r < 4 ∧ (x.pos r).arrived = true ∧
      (x.pos r).pc = (x.pos (x.set.headD 0)).pc) → x.paused = false → x.failed = none → x.rinks.length = 4 →
    x.fn < 32 → x.q < 8 →
    let a := actNo n lc
    let pc := (x.pos (x.set.headD 0)).pc
    let cx := s.progCtx x.prog a (s.viewCore a (x.set.headD 0))
    let m := cx.instr pc
    (if m.is .checkpoint = true ∧ m.p 0x1C 1 = 1 then
      ∃ t y, exec (.barrierRelease n lc) s = .next t ∧ t.activity a = some y ∧ y.paused = true ∧
        t.rd (O.Q_STATE x.q x.fn) = 2 ∧ y.rinks = x.rinks ∧
        ((t.queue x.fn x.q).cqTail = ((s.queue x.fn x.q).cqTail + 1) % 128 ∨
          (t.queue x.fn x.q).waiting.length = (s.queue x.fn x.q).waiting.length + 1) ∧
        s.Frame [.compute, .jobs, .delivery] [O.Q_STATE x.q x.fn] t
    else
      pc + 1 < x.prog.instrCount →
      (∀ r ∈ x.set, ((s.progCtx x.prog a (s.viewCore a r)).instr (pc + 1)).opc ≠ none) →
      ∃ t y, exec (.barrierRelease n lc) s = .next t ∧ t.activity a = some y ∧
        (∀ r ∈ x.set, (y.pos r).pc = pc + 1 ∧ (y.pos r).arrived = false) ∧
        (∀ r, r ∉ x.set → y.pos r = x.pos r) ∧
        s.Frame [.compute, .jobs, .delivery]
          ((List.range 4).flatMap fun r => (List.range 4).map (O.CTX_INSTRUCTIONS r)) t))

/-- The objects that completing a tile of tenant `n` on core `c` counts in. -/
def Sys2Proof.Machine.tileKeys (c n : Nat) : List Nat :=
  [O.CORE_BUSY_CYCLES c, O.CLM_CONFLICT_CYCLES c, O.CORE_STALL_CYCLES c, O.CORE_TILES c, O.CHECKSUM_RETRIES c,
    O.ESC_CORRECTIONS n, O.ESC_OVERFLOW_TILES n, O.NONFINITE_TILES n, O.HEADROOM_TILES n, O.FLOAT_SATURATIONS n,
    O.TRANSPOSED_TILES n, O.ERRLOG_WRITTEN, O.ERRLOG_OVERWRITTEN] ++ (List.range 64).map O.ERRLOG_RECORD ++
  (List.range 12).map (O.CORE_STALL_CAUSE c) ++ (List.range 12).map (fun i => O.TEN_STALL_CAUSE i n) ++ trafficKeys

/-- Core `c` serves activity `a`, whose instruction `u` of plan `p` is in progress in its Rink. -/
structure Sys2Proof.Machine.State.works (s : State) (c a : Nat) (x : Activity) (u : Running) (p : Plan) : Prop where
  sized : s.sized = true
  alive : s.alive = true
  powered : s.coreOn c = true
  serves : (s.core c).act = some a
  named : a < 64
  running : s.activity a = some x
  rinks : x.rinks.length = 4
  job : x.fn < 32 ∧ x.q < 8
  sound : x.failed = none
  run : (x.pos (c / 4)).run = some u
  planned : (s.progCtx x.prog a c).planOf u.idx = some p

/-- TICKET_CLAIM and TILE_COMPLETE (R147, R192, R203, R209-R211, R277, R470, R471): a core in service with room takes the
next ticket, once its memory is there and its images have passed, and nothing when the share is exhausted; lost memory
(R53, R311) or a failed image fails the job. A tile
whose checks pass counts, writes what its evaluation gives and nothing else, and leaves the share smaller by one; a
second checksum mismatch loses the core. -/
def Obligations.TilesAreClaimedAndCompleted : Prop :=
  (∀ (s : State) (c : Fin 16) (a : Nat) (x : Activity) (u : Running) (p : Plan), s.works c a x u p →
    s.coreServes c = true → (s.core c).target = none → s.claimsStopped = false → s.spent a (c.val / 4) = false →
    (u.claimed.filter fun q => q.1 == c.val).length < (if p.cls = .chunk then 1 else 2) →
    let cx := s.progCtx x.prog a c
    let raws := cx.rawImages u.idx
    let gone := s.gone (s.instrBehind (actTenant a) cx u.idx)
    let failed := fun (t : State) (b : Abort) =>
      if x.claims = [] then t.activity a = none ∧ (t.queue x.fn x.q).errorBefore = true
      else ∃ y, t.activity a = some y ∧ y.failed = some (b.code, u.idx) ∧ y.claims = x.claims
    (∀ n m, s.ticketFor a c p u = some n → gone = some m →
      ∃ t, exec (.ticketClaim c) s = .next t ∧ failed t .notReady) ∧
    (∀ n, s.ticketFor a c p u = some n → gone = none → (kvGet c u.images).isSome = true ∨ (s.loadImages c (actTenant a) raws).2 = none →
      ∃ t y v, exec (.ticketClaim c) s = .next t ∧ t.activity a = some y ∧ (y.pos (c.val / 4)).run = some v ∧
        v.todo = u.todo.drop 1 ∧ v.claimed = u.claimed ++ [(c.val, n)] ∧ v.left = u.left ∧ v.idx = u.idx ∧
        ((kvGet c u.images).isSome = false → kvGet c v.images = some raws) ∧ (∀ q, q ≠ c.val / 4 → y.pos q = x.pos q) ∧
        (∀ d, d ≠ c.val → t.core d = s.core d) ∧ (t.core c).act = some a ∧
        s.Frame [.compute, .integrity, .security] [O.FABRIC_LOADS c, O.PROG_DIGEST (actTenant a),
          O.PROG_COUNT (actTenant a), O.LC_WAIT_MAX_NS (actTenant a)] t) ∧
    (∀ n k, s.ticketFor a c p u = some n → gone = none → (kvGet c u.images).isSome = false →
      (s.loadImages c (actTenant a) raws).2 = some k →
      ∃ t, exec (.ticketClaim c) s = .next t ∧
        t.rd (O.FABRIC_REJECTS c) = (s.rd (O.FABRIC_REJECTS c) + 1) % 4294967296 ∧ failed t .outOfRange) ∧
    (s.ticketFor a c p u = none → exec (.ticketClaim c) s = .next s)) ∧
  (∀ (s : State) (c : Fin 16) (mm : Fin 3) (col : Fin 128) (use : TileUse) (a : Nat) (x : Activity) (u : Running)
      (p : Plan) (n : Nat), s.works c a x u p → (u.claimed.find? fun q => q.1 == c.val) = some (c.val, n) →
    let cx := s.progCtx x.prog a c
    let ten := actTenant a
    let r := c.val / 4
    s.streamReady a r u cx p n = true → u.slotTaken p n = false →
    (∀ o chain, mm.val < 2 → s.readsPoison c ten cx u.idx = false →
      cx.evalTile u (((kvGet c u.images).getD []).map imageOf) p n = .ok (o, chain) → 1 < u.left →
      (p.cls = .matrix → p.p0 ≤ 1) →
      ∃ t y v, exec (.tileComplete c mm col use) s = .next t ∧ t.activity a = some y ∧ (y.pos r).run = some v ∧
        v.left + 1 = u.left ∧ (c.val, n) ∉ v.claimed ∧ v.idx = u.idx ∧ (y.pos r).pc = (x.pos r).pc ∧
        (p.cls ≠ .chunk → v.todo = u.todo) ∧ (∀ q, q ≠ r → y.pos q = x.pos q) ∧
        t.rd (O.CORE_TILES c) = (s.rd (O.CORE_TILES c) + 1) % 18446744073709551616 ∧
        t.rd (O.CORE_BUSY_CYCLES c) = (s.rd (O.CORE_BUSY_CYCLES c) + use.busy) % 18446744073709551616 ∧
        (mm = 1 → t.rd (O.CHECKSUM_RETRIES c) = (s.rd (O.CHECKSUM_RETRIES c) + 1) % 4294967296) ∧
        (∀ k, k < 2 ^ 40 → (∀ w ∈ o.lines ++ o.erts, w.addr ≠ k) → t.rbyte r ten k = s.rbyte r ten k) ∧
        (∀ q k, q < 32 → q ≠ ten → k < 2 ^ 40 → (∀ w ∈ o.lines ++ o.erts, w.addr < 2 ^ 40) →
          t.tbyte q k = s.tbyte q k) ∧
        (∀ w, o.erts = [] → o.lines = [w] → w.addr < 2 ^ 40 → t.rbyte r ten w.addr = BitVec.ofNat 8
          (Nat.lor (Nat.land w.val w.mask) (Nat.land (s.rbyte r ten w.addr).toNat (255 - w.mask)))) ∧
        (∀ d k, d < 16 → k < 2 ^ 21 → (∀ w ∈ o.clm, w.addr < 2 ^ 21) →
          (∀ w ∈ o.clm, w.addr ≠ k) ∨ d ∉ s.tenantCores ten → t.cbyte d k = s.cbyte d k) ∧
        s.Frame ([.compute, .tenantMem, .coreMem, .integrity, .security] ++
          if mm = 1 then [.delivery, .marks] else []) (tileKeys c ten) t) ∧
    (mm = 2 → ∃ t, exec (.tileComplete c mm col use) s = .next t ∧ t.held c = true ∧ t.ready c = false ∧
      (t.core c).act = none ∧ t.rd (O.CORE_LOST_CAUSE c) = 1 ∧ t.integrity.lost.testBit c = true ∧
      (∀ y v, t.activity a = some y → (y.pos r).run = some v → ∀ q ∈ v.claimed, q.1 ≠ c.val)) ∧
    (∀ b, mm.val < 2 → s.readsPoison c ten cx u.idx = false →
      cx.evalTile u (((kvGet c u.images).getD []).map imageOf) p n = .error b →
      ∃ t, exec (.tileComplete c mm col use) s = .next t ∧
        (t.activity a = none ∨ ∃ y, t.activity a = some y ∧ y.failed.isSome = true) ∧
        (∀ d, d ≠ a → t.activity d = s.activity d)))

/-- STREAM_FETCH and RINK_FILL_COMPLETE (R304-R307, R331): the next stream tile, with room in the window and passes left,
is counted, charged and enters the window if its checks pass; a fill is charged by its bytes, its link errors are
counted, and a tile whose check fails ends the job; a fill from lost memory changes nothing (R311). -/
def Obligations.StreamsAndFillsArrive : Prop :=
  (∀ (s : State) (r : Fin 4) (n : Fin 32) (lc : Bool) (x : Activity) (idx : Nat) (pl : Plan) (share : List Nat)
      (l e : Nat) (spec : Bool), s.sized = true → s.alive = true → s.rinkOn r = true → s.claimsStopped = false →
    s.activity (actNo n lc) = some x → x.rinks.length = 4 → x.failed = none → r.val ∈ x.set →
    let a := actNo n lc
    let cx := s.progCtx x.prog a (s.viewCore a r)
    s.nextStream a r x cx = some (idx, pl, share, l, e, spec) →
    let m := nth (cx.unitOf idx) l (cx.instr idx)
    let d := cx.desc m.b
    let nt := if m.convWeight then m.weightNt d else d.nt
    let esc := field (cx.env.ertHeader d nt e) 3 1
    let addr := d.base + e * 16384
    (x.pos r).stream.foldl (fun k q => k + q.lines) 0 + ertLines esc ≤ s.rd (O.WINDOW_WAYS r n) * 2048 →
    s.spent a (4 + r) = false → s.spent a (if addr < lodgeBase then 16 + s.channelOf n addr else 8) = false →
    s.gone (s.behind n addr 16384) = none → cx.env.ertCheck d true m.wino nt e = none →
    ∃ t y, exec (.streamFetch r n lc) s = .next t ∧ t.activity a = some y ∧
      (y.pos r).stream.map (fun q => (q.idx, q.n, q.lines, q.spec)) =
        (x.pos r).stream.map (fun q => (q.idx, q.n, q.lines, q.spec)) ++ [(idx, streamKey l e, ertLines esc, spec)] ∧
      (y.pos r).pc = (x.pos r).pc ∧ (y.pos r).run = (x.pos r).run ∧ (∀ q, q ≠ r.val → y.pos q = x.pos q) ∧
      t.rd (O.STREAM_TILES n) = (s.rd (O.STREAM_TILES n) + 1) % 2 ^ keyBits (O.STREAM_TILES n) ∧
      t.rd (O.STREAM_BYTES n) = (s.rd (O.STREAM_BYTES n) + 16448 + 8 * esc) % 2 ^ keyBits (O.STREAM_BYTES n) ∧
      t.usedPass a (4 + r) = s.usedPass a (4 + r) + 16448 + 8 * esc ∧
      s.Frame [.compute] ([O.STREAM_TILES n, O.STREAM_BYTES n, O.SPEC_FETCHED n] ++ trafficKeys) t) ∧
  (∀ (s : State) (r : Fin 4) (n : Fin 32) (lc : Bool) (addr : Nat) (link : LinkRead) (x : Activity) (u : Running),
    s.sized = true → s.alive = true → s.rinkOn r = true → s.activity (actNo n lc) = some x →
    (x.pos r).run = some u → s.allocOk n addr 1 = true → x.fn < 32 → x.q < 8 →
    let a := actNo n lc
    let cx := s.progCtx x.prog a (s.viewCore a r)
    let ert := cx.ertAt u.idx addr
    (s.gone (s.behind n addr 1) ≠ none → exec (.rinkFillComplete r n lc addr link) s = .next s) ∧
    (s.gone (s.behind n addr 1) = none →
    ((addr < lodgeBase → link ≠ .failed) → (∀ d w nt e, ert = some (d, w, nt, e) → cx.env.ertCheck d w false nt e = none) →
      ∃ t, exec (.rinkFillComplete r n lc addr link) s = .next t ∧
        (ert = none → t.usedPass a (4 + r) = s.usedPass a (4 + r) + 256) ∧
        (link = .corrected → addr < lodgeBase → t.rd O.LINK_ECC_CORRECTED =
          (s.rd O.LINK_ECC_CORRECTED + 1) % 2 ^ keyBits O.LINK_ECC_CORRECTED) ∧
        (link = .retried → addr < lodgeBase → t.rd O.LINK_ECC_RETRIED =
          (s.rd O.LINK_ECC_RETRIED + 1) % 2 ^ keyBits O.LINK_ECC_RETRIED) ∧
        t.compute.acts = s.compute.acts ∧ t.compute.cores = s.compute.cores ∧ t.compute.rinks = s.compute.rinks ∧
        s.Frame [.compute] ([O.LINK_ECC_CORRECTED, O.LINK_ECC_RETRIED] ++ trafficKeys) t) ∧
    (∀ d w nt e b, (addr < lodgeBase → link ≠ .failed) → ert = some (d, w, nt, e) →
      cx.env.ertCheck d w false nt e = some b → x.failed = none →
      ∃ t, exec (.rinkFillComplete r n lc addr link) s = .next t ∧
        (t.activity a = none ∨ ∃ y, t.activity a = some y ∧ y.failed.isSome = true))))

/-- REFRESH_TICK (R312, Table 12.6): each active channel takes the code that its die's temperature requires, at least
REFRESH_MIN; a die whose code must exceed REFRESH_MAX counts a breach. -/
def Obligations.RefreshFollowsTemperature : Prop :=
  ∀ (s : State) (ts : DramTemps), s.alive = true → (∃ d, d < 4 ∧ s.ready (0x19 + d) = true) →
    let temp := fun (d : Nat) => nth [ts.d0, ts.d1, ts.d2, ts.d3] d 0
    let need := fun (c : Int) => if c < 45 then 0 else if c ≤ 85 then 1 else if c ≤ 105 then 2 else 3
    let hot := (List.range 4).filter fun d => s.ready (0x19 + d) && decide (s.rd O.REFRESH_MAX < need (temp d)) &&
      (List.range 16).any fun c => c / 4 == d && s.channelActive c
    ∃ t, exec (.refreshTick ts) s = .next t ∧
      (∀ d, d < 4 → s.ready (0x19 + d) = true → t.rd (O.DRAM_TEMP_C d) = toU 16 (temp d)) ∧
      (∀ c, c < 16 → s.channelActive c = true →
        t.rd (O.REFRESH_CODE c) = max (need (temp (c / 4))) (s.rd O.REFRESH_MIN) % 256) ∧
      (∀ c, c < 16 → s.channelActive c = false → t.rd (O.REFRESH_CODE c) = s.rd (O.REFRESH_CODE c)) ∧
      (hot = [] → t.rd O.REFRESH_BREACHES = s.rd O.REFRESH_BREACHES) ∧
      (hot ≠ [] → t.rd O.REFRESH_BREACHES = (s.rd O.REFRESH_BREACHES + hot.length) % 4294967296) ∧
      t.rd O.REFRESH_BREACH = (if hot = [] then 0 else 1) ∧
      s.Frame [.mismatch, .delivery] ([O.REFRESH_BREACH, O.REFRESH_BREACHES] ++ (List.range 4).map O.DRAM_TEMP_C ++
        (List.range 16).map O.REFRESH_CODE) t

/-! ### Jobs, doorbells and streams -/

/-- The rings of a queue pair and its indices are those of R416. -/
def Sys2Proof.Machine.Queue.fits (x : Queue) : Bool :=
  x.sq.length == 64 && x.cq.length == 128 && decide (x.sqHead < 64 ∧ x.sqTail < 64 ∧ x.cqHead < 128 ∧ x.cqTail < 128)

/-- No entry with a reserved opcode stands at the head of the ring. -/
def Sys2Proof.Machine.Queue.settled (x : Queue) : Prop := x.sqHead = x.sqTail ∨ 1 ≤ x.headOp ∧ x.headOp ≤ 9

/-- The completion `e` has joined the completion queue, which had none waiting: into the ring with its PHASE while there is
room, with the vector signalled where the ring was empty, and else to wait (R419). -/
def Sys2Proof.Machine.State.completed (s t : State) (f q : Nat) (e : List Byte) : Prop :=
  let x := s.queue f q
  let y := t.queue f q
  t.rd (O.Q_COMPLETED q f) = (s.rd (O.Q_COMPLETED q f) + 1) % 4294967296 ∧
  if x.cqCount < 127 then
    y.waiting = [] ∧ y.cqTail = (x.cqTail + 1) % 128 ∧
    nth y.cq x.cqTail [] = e.set 6 (BitVec.ofNat 8 (field e 6 1 / 2 * 2 + if x.phase then 1 else 0)) ∧
    (x.cqCount = 0 → x.armed = true → s.linkUp = true →
      Out.msix f (q + 1) ∈ t.out.take (t.out.length - s.out.length))
  else y.waiting = [e]

/-- The head entry of a queue, of opcode `op`, comes up and may start (R418-R420). -/
structure Sys2Proof.Machine.State.entryStarts (s : State) (f : Fin 32) (q : Fin 8) (op : Nat) : Prop where
  sized : s.sized = true
  alive : s.alive = true
  pcie : s.ready 0x20 = true
  fits : (s.queue f q).fits = true
  next : s.nextStarts f q = true
  runs : s.claimsStopped = false
  opcode : (s.queue f q).headOp = op
  unpaused : s.rd (O.Q_STATE q f) = 1 ∨ op = 6 ∨ op = 7
  units : s.jobWaits f (Job.ofEntry (s.queue f q).head) = false
  turn : op = 1 → s.runTurn f q = true

/-- The jobs of Table 17.4: function, queue, opcode. -/
def Sys2Proof.jobRow : Instr → Option (Fin 32 × Fin 8 × Nat)
  | .run f q => some (f, q, 1)
  | .copyIn f q => some (f, q, 2)
  | .copyOut f q => some (f, q, 3)
  | .streamPost f q => some (f, q, 4)
  | .loadFirmware f q => some (f, q, 5)
  | .resume f q => some (f, q, 6)
  | .abandon f q => some (f, q, 7)
  | .nop f q => some (f, q, 8)
  | .loadBase f q => some (f, q, 9)
  | _ => none

/-- RUN, COPY_IN, COPY_OUT, STREAM_POST, LOAD_FIRMWARE, RESUME, ABANDON, NOP and LOAD_BASE (R132, R190, R418-R420, R423,
R424, R432, R440, R453): an entry that comes up leaves the ring; one that a check refuses ends with ERROR and the first
abort code; the others start or do what they name, and end with DONE. -/
def Obligations.JobsStartInQueueOrder : Prop :=
  ∀ (s : State) (c : Instr) (f : Fin 32) (q : Fin 8) (op : Nat), jobRow c = some (f, q, op) → s.entryStarts f q op →
    let x := s.queue f q
    let j := Job.ofEntry x.head
    let h := x.pop.sqHead
    let a := s.queueAct f q
    let done := completionBytes j.cid h 0 0 0 0 0
    let err := fun (b : Abort) => completionBytes j.cid h 1 0 0 b.code 0xFFFFFFFF
    let lost := fun (b : Abort) => b == .notReady && decide (1 ≤ op ∧ op ≤ 3) &&
      (s.gone (s.behind f j.devAddr j.length)).isSome
    (∀ b, firstAbort (s.jobAborts f x.head) = some b → x.pop.settled →
      ∃ t, exec c s = .next t ∧ s.completed t f q (err b) ∧ (t.queue f q).sqHead = h ∧ (t.queue f q).job = x.job ∧
        (t.queue f q).errorBefore = true ∧
        s.Frame ([.jobs, .delivery] ++ if lost b then [.marks] else []) (O.Q_COMPLETED q f :: if lost b then errKeys else []) t) ∧
    (firstAbort (s.jobAborts f x.head) = none →
      (op = 8 → x.pop.settled → ∃ t, exec c s = .next t ∧ s.completed t f q done ∧ (t.queue f q).sqHead = h ∧
        (t.queue f q).job = x.job ∧ (t.queue f q).errorBefore = false ∧
        s.Frame [.jobs, .delivery] [O.Q_COMPLETED q f] t) ∧
      (op = 2 ∨ op = 3 ∨ op = 9 → s.linkUp = true → ∃ t, exec c s = .next t ∧
        t.queue f q = { x.pop with job := some { j with waitsHost := true } } ∧ s.Frame [.jobs] [] t) ∧
      (op = 2 ∨ op = 3 ∨ op = 9 → s.linkUp = false → x.pop.settled → ∃ t, exec c s = .next t ∧
        s.completed t f q (err .notReady) ∧ (t.queue f q).sqHead = h ∧ (t.queue f q).job = none ∧
        t.rd O.ERRLOG_WRITTEN = (s.rd O.ERRLOG_WRITTEN + 1) % 4294967296 ∧
        s.Frame ([.jobs, .delivery, .marks, .draws] ++ if op = 2 then [.tenantMem, .integrity]
          else if op = 3 then [.hostMem] else [.baseMem]) (O.Q_COMPLETED q f :: errKeys) t) ∧
      (op = 4 → x.pop.settled → ∀ k sink tail, doorbellOf j.arg0 = some (k, sink, tail) →
        let y := s.stream k
        let e := if sink then y.active.sink else s.rd (O.STR_SOURCE k f)
        let n := if sink then y.active.snkEntries else y.active.srcEntries
        (s.strEnabled k = true ∧ s.streamOwner k = f ∧ epKind e = 2 ∧ tail < n →
          ∃ t, exec c s = .next t ∧ s.completed t f q done ∧
            (if sink then t.stream k = { y with snkTail := tail }
              else (t.stream k).srcTail = tail ∧ ∀ i ∈ ringSpan y.srcTail tail n,
                (i ∈ (t.stream k).invalidFrom ↔ j.sflags.testBit 1 = true ∨ x.errorBefore = true)) ∧
            (∀ i, i ≠ k → t.stream i = s.stream i) ∧
            s.Frame [.jobs, .delivery, .streams] [O.Q_COMPLETED q f] t) ∧
        (s.strEnabled k = false ∨ s.streamOwner k ≠ f → ∃ t, exec c s = .next t ∧ s.completed t f q (err .notOwned) ∧
          s.Frame [.jobs, .delivery] [O.Q_COMPLETED q f] t)) ∧
      (op = 5 → s.security.tasks ≠ [] ∨ s.security.everReady = false ∨ s.linkUp = true →
        ∃ t, exec c s = .next t ∧ t.security.tasks = s.security.tasks ++ [.firmware f q] ∧
          t.rd O.PATROL_STATE = 2 ∧ t.queue f q = { x.pop with job := some (if s.security.tasks = [] ∧
            s.security.everReady = true then { j with waitsHost := true } else j) } ∧
          s.Frame [.jobs, .security, .delivery] [O.PATROL_STATE] t) ∧
      (op = 6 ∨ op = 7 → s.rd (O.Q_STATE q f) ≠ 2 → x.pop.settled → ∃ t, exec c s = .next t ∧
        s.completed t f q (err .outOfRange) ∧ s.Frame [.jobs, .delivery] [O.Q_COMPLETED q f] t) ∧
      (∀ y, op = 6 → s.rd (O.Q_STATE q f) = 2 → s.activity a = some y → y.fn = f → y.q = q → y.paused = true →
        y.failed = none → y.rinks.length = 4 → y.set ≠ [] →
        (∀ r ∈ y.set, r < 4 ∧ (y.pos r).pc + 1 < y.prog.instrCount ∧
          ((s.progCtx y.prog a (s.viewCore a r)).instr ((y.pos r).pc + 1)).opc ≠ none) →
        ∃ t z, exec c s = .next t ∧ t.rd (O.Q_STATE q f) = 1 ∧ t.activity a = some z ∧ z.paused = false ∧
          (∀ r ∈ y.set, (z.pos r).pc = (y.pos r).pc + 1 ∧ (z.pos r).arrived = false) ∧ (t.queue f q).sqHead = h ∧
          s.Frame [.jobs, .delivery, .compute] ([O.Q_STATE q f, O.Q_COMPLETED q f] ++
            (List.range 4).flatMap fun r => (List.range 4).map (O.CTX_INSTRUCTIONS r)) t) ∧
      (∀ y, op = 7 → s.rd (O.Q_STATE q f) = 2 → s.activity a = some y → y.fn = f → y.q = q → x.pop.settled →
        ∃ t, exec c s = .next t ∧ t.rd (O.Q_STATE q f) = 1 ∧ t.activity a = none ∧ (t.queue f q).job = none ∧
          t.rd (O.Q_COMPLETED q f) = (s.rd (O.Q_COMPLETED q f) + 2) % 4294967296 ∧ (t.queue f q).sqHead = h ∧
          (∀ b, b ≠ a → t.activity b = s.activity b)) ∧
      (op = 1 → ∀ g, Prog.check .core j.devAddr j.length (fun i => s.tbyte f (j.devAddr + i)) (s.allocOk f) = some g →
        let set := s.rinkList f
        (set ≠ [] → ((s.progCtx g a (s.viewCore a (set.headD 0))).instr 0).opc ≠ none) →
        ∃ t y, exec c s = .next t ∧ t.activity a = some y ∧ y.prog = g ∧ y.fn = f ∧ y.q = q ∧ y.set = set ∧
          (∀ r, y.pos r = RinkPos.reset) ∧ y.failed = none ∧ y.paused = false ∧
          t.queue f q = { x.pop with job := some j } ∧ (∀ b, b ≠ a → t.activity b = s.activity b) ∧
          t.rd (O.TEN_RESPLITS f) = (if set = [] ∨ set = nth s.compute.applied f [] then s.rd (O.TEN_RESPLITS f)
            else (s.rd (O.TEN_RESPLITS f) + 1) % 4294967296) ∧
          s.Frame [.jobs, .compute, .security] [O.PROG_DIGEST f, O.PROG_COUNT f, O.TEN_RESPLITS f] t) ∧
      (op = 1 → Prog.check .core j.devAddr j.length (fun i => s.tbyte f (j.devAddr + i)) (s.allocOk f) = none →
        x.pop.settled → ∃ t, exec c s = .next t ∧ s.completed t f q (err .outOfRange) ∧ t.compute = s.compute ∧
          t.rd O.ERRLOG_WRITTEN = (s.rd O.ERRLOG_WRITTEN + 1) % 4294967296 ∧
          s.Frame [.jobs, .delivery, .marks] (O.Q_COMPLETED q f :: errKeys) t))

/-- HOST_TRANSFER_COMPLETE (R302, R303, R418, R477): with Patrol's order empty, a transfer that ends well moves its bytes,
forms the tags of its tiles and ends its job with DONE; one that ends badly is a HOST_DMA_FAULT and an ERROR. -/
def Obligations.HostTransfersEndTheirJobs : Prop :=
  ∀ (s : State) (f : Fin 32) (q : Fin 8) (how : HostEnd) (data : List Byte) (j : Job), s.sized = true → s.alive = true →
    (s.queue f q).fits = true → (s.queue f q).waiting = [] → (s.queue f q).settled → (s.queue f q).job = some j →
    j.waitsHost = true → s.security.tasks = [] →
    let h := (s.queue f q).sqHead
    let done := completionBytes j.cid h 0 0 0 0 0
    let err := fun (b : Abort) => completionBytes j.cid h 1 0 0 b.code 0xFFFFFFFF
    (how = .done → j.opcode = 2 → data.length = j.length → copyBad data j.arg0 j.arg1 = false →
      (0 < j.arg0 → j.arg0 * 16448 ≤ j.length) →
      ∃ t, exec (.hostTransferComplete f q how data) s = .next t ∧ s.completed t f q done ∧ (t.queue f q).job = none ∧
        (∀ n, n < j.arg0 → t.tbytes f (j.devAddr + j.arg0 * 16384 + n * 64 + 0x30) 16 =
          s.tileTag f (j.devAddr + n * 16384) ((copyTile data j.arg0 j.arg1 n).1 ++
            (copyTile data j.arg0 j.arg1 n).2.1.take 0x30 ++ (copyTile data j.arg0 j.arg1 n).2.2)) ∧
        (∀ k, k < j.length → (∀ n, n < j.arg0 → k < j.arg0 * 16384 + n * 64 + 0x30 ∨ j.arg0 * 16384 + n * 64 + 0x40 ≤ k) →
          t.tbyte f (j.devAddr + k) = nth data k 0) ∧
        (∀ k, k < j.devAddr ∨ j.devAddr + j.length ≤ k → t.tbyte f k = s.tbyte f k) ∧
        s.Frame [.jobs, .delivery, .compute, .tenantMem, .integrity]
          ([O.Q_COMPLETED q f, O.PATROL_STATE] ++ trafficKeys) t) ∧
    (how = .done → j.opcode = 3 → s.poisonDev f j.devAddr j.length = false →
      ∃ t, exec (.hostTransferComplete f q how data) s = .next t ∧ s.completed t f q done ∧ (t.queue f q).job = none ∧
        (∀ k, k < j.length → t.hbyte f (j.hostAddr + k) = s.tbyte f (j.devAddr + k)) ∧
        (∀ k, k < j.hostAddr ∨ j.hostAddr + j.length ≤ k → t.hbyte f k = s.hbyte f k) ∧
        s.Frame [.jobs, .delivery, .compute, .hostMem] ([O.Q_COMPLETED q f, O.PATROL_STATE] ++ trafficKeys) t) ∧
    (how = .done → j.opcode = 3 → s.poisonDev f j.devAddr j.length = true →
      ∃ t, exec (.hostTransferComplete f q how data) s = .next t ∧ s.completed t f q (err .integrityFault) ∧
        (t.queue f q).job = none ∧
        s.Frame [.jobs, .delivery, .compute] ([O.Q_COMPLETED q f, O.PATROL_STATE] ++ trafficKeys) t) ∧
    (how = .done → j.opcode = 9 → data.length = j.length →
      ∃ t, exec (.hostTransferComplete f q how data) s = .next t ∧ s.completed t f q done ∧ (t.queue f q).job = none ∧
        t.bbytes j.devAddr j.length = data ∧
        (∀ k, k < j.devAddr ∨ j.devAddr + j.length ≤ k → t.bbyte k = s.bbyte k) ∧
        s.Frame [.jobs, .delivery, .compute, .baseMem] [O.Q_COMPLETED q f, O.PATROL_STATE] t) ∧
    (how ≠ .done → ∃ t, exec (.hostTransferComplete f q how data) s = .next t ∧ s.completed t f q (err .notReady) ∧
      (t.queue f q).job = none ∧ (t.queue f q).errorBefore = true ∧
      t.rd O.ERRLOG_WRITTEN = (s.rd O.ERRLOG_WRITTEN + 1) % 4294967296 ∧
      s.Frame [.jobs, .delivery, .marks, .draws, .tenantMem, .integrity, .hostMem, .baseMem]
        ([O.Q_COMPLETED q f, O.PATROL_STATE] ++ errKeys) t)

/-- SQ_TAIL, CQ_HEAD and STREAM_DOORBELL (R417, R419, R423): a tail submits its entries as request source 12, one out of
range or beyond the free entries faults the queue; a head frees entries and lets the vector signal again; a stream
doorbell moves a tail of the tenant's own ring and nothing else. -/
def Obligations.DoorbellsMoveRings : Prop :=
  (∀ (s : State) (f : Fin 32) (q : Fin 8) (es : List Byte) (tail : Fin 4294967296), s.sized = true → s.alive = true →
    s.ready 0x20 = true → s.fnOpen f = true → s.queueRuns f q = true → (s.queue f q).fits = true →
    let x := s.queue f q
    let new := (tail.val + 64 - x.sqTail) % 64
    let free := 63 - (x.sqTail + 64 - x.sqHead) % 64
    (64 ≤ tail.val ∨ free < new → ∃ t, exec (.sqTail f q es tail) s = .next t ∧ t.rd (O.Q_STATE q f) = 3 ∧
      t.rd (O.Q_FAULT_CAUSE q f) = (if 64 ≤ tail.val then 1 else 2) ∧
      t.rd O.ERRLOG_WRITTEN = (s.rd O.ERRLOG_WRITTEN + 1) % 4294967296 ∧
      s.Frame [.delivery, .marks] ([O.Q_STATE q f, O.Q_FAULT_CAUSE q f] ++ errKeys) t) ∧
    (tail.val < 64 → new ≤ free → (x.job.isSome = true ∨ x.sqHead ≠ x.sqTail ∧ x.settled ∨ x.sqHead = x.sqTail ∧
        64 ≤ es.length ∧ 1 ≤ field es 0 1 ∧ field es 0 1 ≤ 9) → 0 < new →
      ∃ t, exec (.sqTail f q es tail) s = .next t ∧ (t.queue f q).sqTail = tail ∧ (t.queue f q).sqHead = x.sqHead ∧
        (∀ i, i < new → 64 * (i + 1) ≤ es.length →
          nth (t.queue f q).sq ((x.sqTail + i) % 64) [] = slice es (64 * i) 64) ∧
        (t.queue f q).cq = x.cq ∧ (t.queue f q).job = x.job ∧ s.requested t 12 4 ∧
        s.Frame [.jobs, .link, .power, .delivery] (requestKeys 12) t)) ∧
  (∀ (s : State) (f : Fin 32) (q : Fin 8) (head : Fin 4294967296), s.sized = true → s.alive = true →
    s.ready 0x20 = true → s.fnOpen f = true → (s.queue f q).fits = true → (s.queue f q).settled →
    let x := s.queue f q
    (head.val < 128 → (head.val + 128 - x.cqHead) % 128 ≤ x.cqCount → x.waiting = [] →
      ∃ t, exec (.cqHead f q head) s = .next t ∧ t.queue f q = { x with cqHead := head, armed := true } ∧
        s.Frame [.jobs] [] t) ∧
    (∀ e, head.val < 128 → (head.val + 128 - x.cqHead) % 128 ≤ x.cqCount → x.waiting = [e] →
      (x.cqTail + 128 - head.val) % 128 < 127 →
      ∃ t, exec (.cqHead f q head) s = .next t ∧ (t.queue f q).cqHead = head ∧ (t.queue f q).waiting = [] ∧
        (t.queue f q).cqTail = (x.cqTail + 1) % 128 ∧
        nth (t.queue f q).cq x.cqTail [] =
          e.set 6 (BitVec.ofNat 8 (field e 6 1 / 2 * 2 + if x.phase then 1 else 0)) ∧
        s.Frame [.jobs, .delivery] [] t) ∧
    (128 ≤ head.val ∨ x.cqCount < (head.val + 128 - x.cqHead) % 128 → exec (.cqHead f q head) s = .next s)) ∧
  (∀ (s : State) (f : Fin 32) (v : Fin 4294967296) (k : Nat) (sink : Bool) (tail : Nat), s.sized = true →
    s.alive = true → s.ready 0x20 = true → s.fnOpen f = true → doorbellOf v = some (k, sink, tail) →
    let y := s.stream k
    let e := if sink then y.active.sink else s.rd (O.STR_SOURCE k f)
    let n := if sink then y.active.snkEntries else y.active.srcEntries
    (s.strEnabled k = true → s.streamOwner k = f → isRing e = true → tail < n →
      ∃ t, exec (.streamDoorbell f v) s = .next t ∧
        (if sink then t.stream k = { y with snkTail := tail }
          else t.stream k = { y with srcTail := tail, invalidFrom := (t.stream k).invalidFrom } ∧
            ∀ i ∈ ringSpan y.srcTail tail n, i ∉ (t.stream k).invalidFrom) ∧
        (∀ i, i ≠ k → t.stream i = s.stream i) ∧ s.Frame [.streams] [] t) ∧
    (s.strEnabled k = false ∨ s.streamOwner k ≠ f ∨ isRing e = false ∨ n ≤ tail →
      exec (.streamDoorbell f v) s = .next s))

/-- STREAM_BLOCK_BOUNDARY and NET_FRAME_RX (R423-R425): a source ring that is empty waits; a block moves from a ring in
device memory to one in host memory, both descriptors finish and BLOCK_SEQ counts; without a sink descriptor it is
dropped and the next one shows the gap; a frame joins the contexts whose filter matches, and no other, and none takes
the device's own traffic. -/
def Obligations.StreamsMoveBlocks : Prop :=
  (∀ (s : State) (k : Fin 96) (blk sd nd : List Byte) (time : Nat), s.sized = true → s.alive = true →
    s.strEnabled k = true → s.ready 0x2F = true →
    let n := s.streamOwner k
    let x := s.stream k
    let src := s.rd (O.STR_SOURCE k n)
    s.rd (O.STR_STATE k n) ≠ 3 → s.admitted n = true → s.rd (O.TDI_STATE n) ≠ 3 → x.pending = none →
    (isRing src = true → x.srcHead = x.srcTail →
      ∃ t, exec (.streamBlockBoundary k blk sd nd time) s = .next t ∧ t.rd (O.STR_STATE k n) = 2 ∧
        s.Frame [.delivery] [O.STR_STATE k n] t) ∧
    (epKind src = 2 → epKind x.active.sink = 1 → x.srcHead ≠ x.srcTail → s.spent (s.strAct k n) 12 = false →
      let d := s.tbytes n (x.active.srcBase + 32 * x.srcHead) 32
      let e := slice nd 0 32
      let dst := x.active.snkBase + 32 * x.snkHead
      let used := min (field e 8 4) (field d 8 4)
      s.descFault src n d = 0 → s.descFault x.active.sink n e = 0 →
      ∃ t, exec (.streamBlockBoundary k blk sd nd time) s = .next t ∧ t.rd (O.STR_STATE k n) = 1 ∧
        (t.stream k).srcHead = (x.srcHead + 1) % x.active.srcEntries ∧
        t.rd (O.STR_BLOCK_SEQ k n) = (s.rd (O.STR_BLOCK_SEQ k n) + 1) % 4294967296 ∧
        (x.snkHead ≠ x.snkTail → (t.stream k).snkHead = (x.snkHead + 1) % x.active.snkEntries ∧
          (∀ i, i < used → field e 0 8 + i < dst ∨ dst + 32 ≤ field e 0 8 + i →
            t.hbyte n (field e 0 8 + i) = s.tbyte n (field d 0 8 + i)) ∧
          (∀ a, a < field e 0 8 ∨ field e 0 8 + used ≤ a → a < dst ∨ dst + 32 ≤ a → t.hbyte n a = s.hbyte n a) ∧
          t.rd (O.STR_DROPS k n) = s.rd (O.STR_DROPS k n)) ∧
        (x.snkHead = x.snkTail → t.hmem = s.hmem ∧ (t.stream k).gapNext = true ∧
          t.rd (O.STR_DROPS k n) = (s.rd (O.STR_DROPS k n) + 1) % 2 ^ keyBits (O.STR_DROPS k n)) ∧
        (∀ i, i ≠ k.val → t.stream i = s.stream i) ∧
        s.Frame [.streams, .delivery, .compute, .hostMem, .tenantMem, .integrity]
          ([O.STR_STATE k n, O.STR_BLOCK_SEQ k n, O.STR_DROPS k n] ++ trafficKeys) t)) ∧
  (∀ (s : State) (p : Fin 2) (fr : List Byte), s.sized = true → s.alive = true → s.ready (0x21 + p) = true →
    s.domOn (57 + p) = true → s.ownTraffic fr = false →
    let takes := fun (k : Nat) => s.strEnabled k && s.rd (O.STR_STATE k (s.streamOwner k)) != 3 &&
      s.admitted (s.streamOwner k) && s.rd (O.STR_SOURCE k (s.streamOwner k)) == (7 + p.val) * 4096 &&
      matchesFilter (s.rdB (O.STR_NET_FILTER k (s.streamOwner k))) fr
    ∃ t, exec (.netFrameRx p fr) s = .next t ∧
      (∀ k, k < 96 → takes k = true → s.spent (s.strAct k (s.streamOwner k)) 12 = false →
        t.stream k = { s.stream k with waiting := (s.stream k).waiting ++
          [waitBlock s.time.now (s.rd (O.STR_BLOCK_SEQ k (s.streamOwner k))) fr] }) ∧
      (∀ k, k < 96 → takes k = true → s.spent (s.strAct k (s.streamOwner k)) 12 = true →
        (t.stream k).waiting.length = min 2 ((s.stream k).waiting.length + 1)) ∧
      (∀ k, k < 96 → takes k = true → t.rd (O.STR_BLOCK_SEQ k (s.streamOwner k)) =
        (s.rd (O.STR_BLOCK_SEQ k (s.streamOwner k)) + 1) % 4294967296) ∧
      (∀ k, k < 96 → takes k = false → t.stream k = s.stream k ∧
        ∀ n, n < 32 → t.val (O.STR_BLOCK_SEQ k n) = s.val (O.STR_BLOCK_SEQ k n)) ∧
      s.Frame [.streams] ((List.range 96).flatMap fun k => (List.range 32).flatMap fun n =>
        [O.STR_BLOCK_SEQ k n, O.STR_DROPS k n]) t) ∧
  (∀ (s : State) (p : Fin 2) (fr : List Byte), s.ownTraffic fr = true → exec (.netFrameRx p fr) s = .next s)

/-! ### Audio and cameras -/

/-- RING_BLOCK_BOUNDARY, NOISE_FLOOR_BLOCK, THRESHOLD_LOOP_STEP, HANDOVER_LIVE, LATCH_EXPIRY, MICBIAS_FAULT and its clear,
TDM_CLOCK_LOSS, TDM_RELOCK and TDM_UNDERRUN (R336, R340, R343, R344, R346, R347, R350, R352, R358, R359): the ring gains
one block of 64 frames and keeps within its bounds, gains take effect, a floor is the least of its last 125 blocks,
thresholds follow floor and margin within their envelope, a latch without a handover ends, a port without clocks unlocks
and sends nothing. -/
def Obligations.AudioRunsInBlocks : Prop :=
  (∀ (s : State) (taps : List (List Int)), s.sized = true → s.alive = true → s.ready 0x29 = true →
    2 ≤ s.rd O.POWER_STATE → s.audio.ring.handover = none → s.rd O.RING_BITS ≤ 24 →
    ∃ t, exec (.ringBlockBoundary taps) s = .next t ∧
      (∀ c, c < 8 → (t.ch c).gain = s.rd (O.CH_GAIN c) ∧ (t.ch c).delay = s.rd (O.CH_DELAY c)) ∧
      (∀ c, c < 8 → s.converting c = true → t.rd (O.CH_CLIPS c) =
        (s.rd (O.CH_CLIPS c) + ((nth taps c []).take 64 |>.filter clips).length) % 2 ^ keyBits (O.CH_CLIPS c)) ∧
      (s.rd O.RING_CHANNELS ≠ 0 → t.audio.ring.nextFrame = s.audio.ring.nextFrame + 64 ∧
        t.audio.ring.gapStop = none ∧ t.audio.ring.blocks.length ≤ 4096 ∧
        (t.audio.ring.blocks.map RingBlock.size).foldl (· + ·) 0 ≤ 786432 ∧
        t.rd O.RING_SPAN_MS = 4 * t.audio.ring.blocks.length ∧
        ∃ b, t.audio.ring.blocks.getLast? = some b ∧ b.frame = s.audio.ring.nextFrame ∧
          b.channels = s.rd O.RING_CHANNELS ∧ b.bits = s.rd O.RING_BITS ∧ b.gapStop = s.audio.ring.gapStop) ∧
      (s.rd O.RING_CHANNELS = 0 → t.audio.ring = s.audio.ring) ∧ t.audio.ring.latch = s.audio.ring.latch ∧
      s.Frame [.audio, .draws] ([O.RING_WRAPPED, O.RING_SPAN_MS, O.RING_OLDEST] ++ (List.range 8).map O.CH_CLIPS) t) ∧
  (∀ (s : State) (c : Fin 4), s.sized = true → s.alive = true → s.ready 0x29 = true → s.converting c = true →
    let sum := ((s.audio.input.take 192).map fun f => (nth f c 0).natAbs ^ 2).foldl (· + ·) 0
    let kept := (sum :: (s.ch c).blocks).take 125
    let least := kept.foldl min sum
    ∃ t, exec (.noiseFloorBlock c) s = .next t ∧ (t.ch c).blocks = kept ∧
      (least ≠ 0 → t.rd (O.NOISE_FLOOR c) = toU 16 (floorOf least) ∧ t.free = s.free) ∧
      (∀ d, d ≠ c.val → t.ch d = s.ch d) ∧ t.audio.ring = s.audio.ring ∧
      s.Frame [.audio, .draws, .delivery] [O.NOISE_FLOOR c, O.SETTLE_REMAINING_MS, O.ESTIMATOR_STATE] t) ∧
  (∀ s : State, s.alive = true → 2 ≤ s.rd O.POWER_STATE → s.rdI 16 O.THRESH_MIN ≤ s.rdI 16 O.THRESH_MAX →
    ∃ t, exec .thresholdLoopStep s = .next t ∧
      (∀ c, c < 4 → s.compOn c = true →
        s.rdI 16 O.THRESH_MIN ≤ t.rdI 16 (O.COMP_THRESH c) ∧ t.rdI 16 (O.COMP_THRESH c) ≤ s.rdI 16 O.THRESH_MAX ∧
        let v := if (s.ch c).blocks.length = 125 then
            toHalfDb (s.rdI 16 (O.NOISE_FLOOR c) + (s.rd O.COMP_MARGIN : Int)) else s.rdI 16 O.COMP_FIXED
        (s.rdI 16 O.THRESH_MIN ≤ v → v ≤ s.rdI 16 O.THRESH_MAX → t.rdI 16 (O.COMP_THRESH c) = v)) ∧
      (∀ c, c < 4 → s.compOn c = false → t.val (O.COMP_THRESH c) = s.val (O.COMP_THRESH c)) ∧
      O.THRESH_MIN ∉ t.mismatch ∧ O.THRESH_MAX ∉ t.mismatch ∧
      s.Frame [.mismatch] ((List.range 4).map O.COMP_THRESH) t) ∧
  (∀ (s : State) (h : Handover), s.sized = true → s.alive = true → s.audio.ring.handover = some h → h.live = false →
    h.next = s.audio.ring.nextFrame → h.stream < 96 →
    let n := s.streamOwner h.stream
    ∃ t, exec .handoverLive s = .next t ∧ t.rd O.RING_STATE = 4 ∧
      t.audio.ring.handover = some { h with live := true, seq := (h.seq + 1) % 2 ^ 32 } ∧
      (t.stream h.stream).waiting = (s.stream h.stream).waiting ++
        [waitBlock s.time.now (s.rd (O.STR_BLOCK_SEQ h.stream n)) (ringRecord 5 0 h.seq h.next [])] ∧
      t.rd (O.STR_BLOCK_SEQ h.stream n) = (s.rd (O.STR_BLOCK_SEQ h.stream n) + 1) % 4294967296 ∧
      t.audio.ring.blocks = s.audio.ring.blocks ∧
      s.Frame [.audio, .streams, .delivery] [O.RING_STATE, O.STR_BLOCK_SEQ h.stream n] t) ∧
  (∀ s : State, s.alive = true → s.audio.ring.latch.isSome = true → s.audio.ring.handover = none →
    ∃ t, exec .latchExpiry s = .next t ∧ t.audio.ring = { s.audio.ring with latch := none, markers := [] } ∧
      t.rd O.RING_STATE = 1 ∧ t.rd O.LATCHES_EXPIRED = (s.rd O.LATCHES_EXPIRED + 1) % 2 ^ keyBits O.LATCHES_EXPIRED ∧
      s.Frame [.audio, .delivery] [O.RING_STATE, O.LATCHES_EXPIRED] t) ∧
  (∀ (s : State) (b : Fin 2), s.alive = true → s.rd O.MICBIAS_STATE < 256 →
    ((s.rd O.MICBIAS_STATE).testBit b = true → (s.rd O.MICBIAS_STATE).testBit (2 + b) = false →
      ∃ t, exec (.micbiasFault b) s = .next t ∧ t.rd O.MICBIAS_STATE = setBit (s.rd O.MICBIAS_STATE) (2 + b) ∧
        t.rd O.ERRLOG_WRITTEN = (s.rd O.ERRLOG_WRITTEN + 1) % 4294967296 ∧
        s.Frame [.delivery, .marks] (O.MICBIAS_STATE :: errKeys) t) ∧
    ((s.rd O.MICBIAS_STATE).testBit (2 + b) = true →
      ∃ t, exec (.micbiasFaultClear b) s = .next t ∧ t.rd O.MICBIAS_STATE = clrBit (s.rd O.MICBIAS_STATE) (2 + b) ∧
        s.Frame [.delivery] [O.MICBIAS_STATE] t)) ∧
  (∀ (s : State) (p : Fin 2), s.alive = true →
    (s.rd (O.TDM_LOCKED p) = 1 → ∃ t, exec (.tdmClockLoss p) s = .next t ∧ t.rd (O.TDM_LOCKED p) = 0 ∧
      t.rd (O.TDM_CLOCK_LOSSES p) = (s.rd (O.TDM_CLOCK_LOSSES p) + 1) % 2 ^ keyBits (O.TDM_CLOCK_LOSSES p) ∧
      (∀ slot, t.slotOut p slot = false) ∧ s.Frame [.delivery] [O.TDM_LOCKED p, O.TDM_CLOCK_LOSSES p] t) ∧
    (∀ ppm : Int, s.rd (O.TDM_LOCKED p) = 0 → s.ready 0x28 = true → s.domOn 61 = true → s.rd (O.TDM_ROLE p) = 1 →
      -20000 ≤ ppm → ppm ≤ 20000 → ∃ t, exec (.tdmRelock p ppm) s = .next t ∧ t.rd (O.TDM_LOCKED p) = 1 ∧
        t.rdI 32 (O.TDM_RATE_PPM p) = ppm ∧ s.Frame [.delivery] [O.TDM_LOCKED p, O.TDM_RATE_PPM p] t) ∧
    (∀ (slot : Fin 8) (n k : Nat), s.slotOut p slot = true → s.feeder (tdmEndpoint p slot) = some k →
      ∃ t, exec (.tdmUnderrun p slot n) s = .next t ∧ t.out = .tdm p slot (List.replicate n 0) :: s.out ∧
        t.rd (O.TDM_UNDERRUNS p) = (s.rd (O.TDM_UNDERRUNS p) + n) % 2 ^ keyBits (O.TDM_UNDERRUNS p) ∧
        s.Frame [.delivery] [O.TDM_UNDERRUNS p, O.STR_UNDERRUNS k (s.streamOwner k)] t))

/-- The input that a packet names, with a header that is whole or corrected (R361, R364). -/
def Sys2Proof.Machine.packetInput (p : Fin 2) (vc : Fin 16) (ecc : EccState) : Option Nat :=
  if ecc = .failed ∨ 8 ≤ vc.val then none else some (8 * p.val + vc.val)

/-- FRAME_START, FRAME_END, LINE_PACKET, FRAME_TIMEOUT, MEMPASS_PROCESS, ISP_FRAME_COMPLETE and I3C_BUS_ERROR (R361, R364,
R366, R367, R370, R374, R375, R383): packets without an input are counted and dropped; a frame takes the pending outputs
and the next number, each line joins it padded or cut to its width, its end pads it to its height; raw frames are
processed one at a time in the order of their ends; a completed frame is stored and counted. -/
def Obligations.CamerasDeliverFrames : Prop :=
  (∀ (s : State) (c : Instr) (p : Fin 2) (vc : Fin 16) (ecc : EccState), s.alive = true → s.receives p = true →
    (c = .frameEnd p vc ecc ∨ (∃ k, c = .frameStart p vc k ecc) ∨ ∃ d xs crc, c = .linePacket p vc d xs crc ecc) →
    packetInput p vc ecc = none →
    ∃ t, exec c s = .next t ∧ t.rd (O.PKT_DISCARDED p) = (s.rd (O.PKT_DISCARDED p) + 1) % 2 ^ keyBits (O.PKT_DISCARDED p) ∧
      s.Frame [] [O.PKT_DISCARDED p, O.CSI_ECC_CORRECTED p] t) ∧
  (∀ (s : State) (p : Fin 2) (vc : Fin 16) (k : Fin 65536) (ecc : EccState) (i : Nat) (o : OutSet), s.sized = true →
    s.alive = true → s.receives p = true → packetInput p vc ecc = some i → s.camOn i = true → (s.cam i).frame = none →
    (s.cam i).pending.or (s.cam i).active = some o → s.rd (O.ISP i) = 0 → s.rd O.POWER_STATE ≠ 3 →
    s.setInAlloc i (s.rd (O.CAM_OWNER i)) o = true →
    ∃ t f, exec (.frameStart p vc k ecc) s = .next t ∧ (t.cam i).frame = some f ∧ f.n = s.rd (O.FRAME_COUNT i) ∧
      t.rd (O.FRAME_COUNT i) = (s.rd (O.FRAME_COUNT i) + 1) % 4294967296 ∧ f.out = o ∧ f.lines = [] ∧ f.fate = .kept ∧
      f.width = s.rd (O.WIDTH i) ∧ f.height = s.rd (O.HEIGHT i) ∧ f.dataType = s.rd (O.DATA_TYPE i) ∧
      f.sensorFrame = k ∧ f.time = s.time.now ∧ f.params = s.rdB (O.ISP_PARAMS i) ∧
      (t.cam i).active = some o ∧ (t.cam i).pending = none ∧
      ((s.cam i).pending.isSome = true → t.rd (O.COMMIT_FRAME i (s.rd (O.CAM_OWNER i))) = s.rd (O.FRAME_COUNT i)) ∧
      (∀ j, j ≠ i → t.cam j = s.cam j) ∧
      s.Frame [.camera, .delivery] [O.FRAME_COUNT i, O.COMMIT_FRAME i (s.rd (O.CAM_OWNER i)),
        O.CAM_COMMIT_PENDING i (s.rd (O.CAM_OWNER i)), O.GEN_IN_FORCE i, O.QUEUE_STATE i (s.rd (O.CAM_OWNER i)),
        O.APPLIED_LATE i, O.CSI_ECC_CORRECTED p] t) ∧
  (∀ (s : State) (c : Instr) (i : Fin 16) (f : Frame), s.sized = true → s.alive = true →
    (c = .frameTimeout i ∨ ∃ p vc, c = .frameEnd p vc .ok ∧ s.receives p = true ∧ packetInput p vc .ok = some i.val) →
    (s.cam i).frame = some f → f.fate = .kept → f.isp ≠ 2 →
    let missing := f.height - f.lines.length
    ∃ t g, exec c s = .next t ∧ (t.cam i).frame = none ∧ (t.cam i).done = (s.cam i).done ++ [g] ∧
      g.lines = f.lines ++ List.replicate missing (List.replicate f.width (padCode f.dataType f.black)) ∧
      g.linesPadded = missing ∧ (g.flags.testBit 2 = true ↔ f.flags.testBit 2 = true ∨ missing ≠ 0) ∧ g.n = f.n ∧
      (c = .frameTimeout i →
        t.rd (O.FRAMES_NO_END i) = (s.rd (O.FRAMES_NO_END i) + 1) % 2 ^ keyBits (O.FRAMES_NO_END i)) ∧
      (missing ≠ 0 → t.rd (O.FRAMES_SHORT i) = (s.rd (O.FRAMES_SHORT i) + 1) % 2 ^ keyBits (O.FRAMES_SHORT i)) ∧
      (∀ j, j ≠ i.val → t.cam j = s.cam j) ∧
      s.Frame [.camera] [O.FRAMES_SHORT i, O.FRAMES_LONG i, O.FRAMES_NO_END i] t) ∧
  (∀ (s : State) (p : Fin 2) (vc : Fin 16) (d : Fin 64) (xs : List Nat) (crc : Bool) (ecc : EccState) (i : Nat)
      (f : Frame), s.sized = true → s.alive = true → s.receives p = true → packetInput p vc ecc = some i → d ≠ 0x12 →
    (s.cam i).frame = some f → f.fate ≠ .suspended →
    ∃ t, exec (.linePacket p vc d xs crc ecc) s = .next t ∧ (∀ j, j ≠ i → t.cam j = s.cam j) ∧
      (d.val ≠ f.dataType → t.cam i = s.cam i ∧
        t.rd (O.PKT_DISCARDED p) = (s.rd (O.PKT_DISCARDED p) + 1) % 2 ^ keyBits (O.PKT_DISCARDED p)) ∧
      (d.val = f.dataType → f.height ≤ f.lines.length → (t.cam i).frame =
        some { f with linesDropped := f.linesDropped + 1, flags := f.flags ||| 8 }) ∧
      (d.val = f.dataType → f.lines.length < f.height → ∃ g l, (t.cam i).frame = some g ∧ g.lines = f.lines ++ [l] ∧
        let ys := xs.map (· % 2 ^ typeBits f.dataType)
        let pad := padCode f.dataType f.black
        (crc = false → l = List.replicate f.width pad ∧
          t.rd (O.LINES_CRC i) = (s.rd (O.LINES_CRC i) + 1) % 2 ^ keyBits (O.LINES_CRC i)) ∧
        (crc = true → l = (ys ++ List.replicate (f.width - ys.length) pad).take f.width) ∧
        (crc = true → xs.length < f.width →
          t.rd (O.LINES_SHORT i) = (s.rd (O.LINES_SHORT i) + 1) % 2 ^ keyBits (O.LINES_SHORT i)) ∧
        (crc = true → f.width < xs.length →
          t.rd (O.LINES_LONG i) = (s.rd (O.LINES_LONG i) + 1) % 2 ^ keyBits (O.LINES_LONG i))) ∧
      s.Frame [.camera, .compute] ([O.PKT_DISCARDED p, O.CSI_ECC_CORRECTED p, O.LINES_CRC i, O.LINES_SHORT i,
        O.LINES_LONG i, O.FRAMES_DROPPED i] ++ trafficKeys) t) ∧
  (∀ (s : State) (o i : Nat) (f : Frame) (rest : List (Nat × Frame)), s.sized = true → s.alive = true →
    s.ready 0x26 = true → (∀ c ∈ s.camera.ins, ∀ g ∈ c.done, ¬ (g.isp = 2 ∧ g.fate = .kept ∧ g.flags.testBit 5 = false)) →
    s.nextRaw = some (o, i) → (s.cam i).raws = (o, f) :: rest →
    ∃ t, exec .mempassProcess s = .next t ∧ (t.cam i).raws = rest ∧ (t.cam i).done = (s.cam i).done ++ [f] ∧
      (∀ j r, j < 16 → r ∈ (s.cam j).raws.head? → o ≤ r.1) ∧ (∀ j, j ≠ i → t.cam j = s.cam j) ∧
      s.Frame [.camera, .compute] trafficKeys t) ∧
  (∀ (s : State) (i : Fin 16) (f : Frame) (rest : List Frame), s.sized = true → s.alive = true →
    (s.cam i).done = f :: rest →
    ∃ t, exec (.ispFrameComplete i) s = .next t ∧ t.rd (O.FRAME_DONE i) = f.n ∧ (t.cam i).done = rest ∧
      t.rd (O.FRAMES_DONE i) = (s.rd (O.FRAMES_DONE i) + 1) % 2 ^ keyBits (O.FRAMES_DONE i) ∧
      (∀ j, j ≠ i.val → t.cam j = s.cam j) ∧ (f.fate ≠ .kept → f.out.statsBase = 0 → t.tmem = s.tmem) ∧
      (f.fate = .kept → f.flags.testBit 5 = false → f.isp ≠ 2 → f.out.statsBase = 0 →
        (∀ l ∈ (ispOutput f f.lines).1, l.length ≤ f.out.lineStride) →
        ∀ y l, (ispOutput f f.lines).1[y]? = some l →
          t.tbytes (s.rd (O.CAM_OWNER i)) (f.bufAt + y * f.out.lineStride) l.length = l) ∧
      s.Frame [.camera, .delivery, .compute, .tenantMem, .integrity, .draws, .mismatch]
        ([O.FRAME_DONE i, O.FRAMES_DONE i, O.AE_EXPOSURE i, O.AE_GAIN i] ++ trafficKeys) t) ∧
  (∀ (s : State) (i : Fin 16), s.sized = true → s.alive = true → s.ready 0x35 = true → s.rd (O.CAM_OWNER i) < 32 →
    let c := s.cam i
    (c.issued = [] → exec (.i3cBusError i) s = .next s) ∧
    (∀ x g, c.issued = [x] → x.generation = some g → (c.window.map Window.frame).getD 0 < x.frame →
      ∃ t, exec (.i3cBusError i) s = .next t ∧ (t.cam i).issued = [] ∧
        t.rd (O.QUEUE_LAST_ERROR i (s.rd (O.CAM_OWNER i))) = g ∧ t.rd (O.GEN_IN_FORCE i) = s.rd (O.GEN_IN_FORCE i) ∧
        t.rd (O.QUEUE_STATE i (s.rd (O.CAM_OWNER i))) = (1 + 2 * c.queue.length) % 256 ∧
        t.rd (O.QUEUE_ABORTS i) = (s.rd (O.QUEUE_ABORTS i) + 1) % 2 ^ keyBits (O.QUEUE_ABORTS i) ∧
        (∀ j, j ≠ i.val → t.cam j = s.cam j) ∧
        s.Frame [.camera, .delivery] [O.QUEUE_LAST_ERROR i (s.rd (O.CAM_OWNER i)),
          O.QUEUE_STATE i (s.rd (O.CAM_OWNER i)), O.QUEUE_ABORTS i] t) ∧
    (∀ x, c.issued = [x] → x.generation = none → (c.window.map Window.frame).getD 0 < x.frame →
      ∃ t, exec (.i3cBusError i) s = .next t ∧ (t.cam i).issued = [] ∧ (t.cam i).aeNext = c.aeNext.or x.ae ∧
        s.Frame [.camera] [] t))

/-! ### Time and the field network -/

/-- The objects that entering HOLDOVER sets (R391). -/
def Sys2Proof.Machine.holdoverKeys : List Nat := [O.TIME_QUALITY, O.HOLDOVER_SINCE, O.ERROR_BOUND_NS]

/-- The messages a PTP port receives: port, message. -/
def Sys2Proof.ptpRow : Instr → Option (Fin 2 × PtpMsg)
  | .sync p m _ => some (p, m)
  | .followUp p m => some (p, m)
  | .announce p m _ => some (p, m)
  | .pdelayReq m => some (0, m)
  | .pdelayResp m => some (0, m)
  | .pdelayRespFollowUp m => some (0, m)
  | .signaling m _ _ _ => some (0, m)
  | .delayReq m => some (1, m)
  | .delayResp m => some (1, m)
  | _ => none

/-- SYNC, FOLLOW_UP, ANNOUNCE, SIGNALING, PDELAY_REQ, PDELAY_RESP, PDELAY_RESP_FOLLOW_UP, DELAY_REQ, DELAY_RESP,
PTP_MANAGEMENT_DISCARD, SYNC_RECEIPT_TIMEOUT, ERROR_BOUND_TICK and the expiries of the four intervals (R390, R391, R395,
R399): the offset from the master is computed with the delay; applied where the port is the source, by a step beyond the
threshold; delays come from their exchanges; requests are answered; a malformed message is counted and dropped. -/
def Obligations.PtpKeepsTime : Prop :=
  (∀ (s : State) (c : Instr) (p : Fin 2) (m : PtpMsg), ptpRow c = some (p, m) → s.alive = true → s.ptpOn p = true →
    (∀ d, c = .delayReq d → s.isMaster1 = true) → (∀ d, c = .delayResp d → s.isSlave1 = true) → m.malformed = true →
    let k := if p = 0 then O.NET0_PTP_ERRORS else O.NET1_PTP_ERRORS
    ∃ t, exec c s = .next t ∧ t.rd k = (s.rd k + 1) % 2 ^ keyBits k ∧ s.Frame [] [k] t) ∧
  (∀ (s : State) (p : Fin 2) (m : PtpMsg), s.alive = true → s.ptpOn p = true → m.malformed = false →
    (s.acceptsSync p m = false → ∀ two, exec (.sync p m two) s = .next s) ∧
    (s.acceptsSync p m = true → ∃ t, exec (.sync p m true) s = .next t ∧
      t.ptp p = { s.ptp p with
        pendingSync := some (m.sequenceId.val, (s.rxStamp p m).toNat, m.correction, m.clockId) } ∧
      s.Frame [.net] [] t) ∧
    (s.acceptsSync p m = true →
      let off := s.rxStamp p m - ((m.timestamp : Int) + m.correction + (s.ptp p).delay)
      (s.selected p = false → ∃ t, exec (.sync p m false) s = .next t ∧ (t.ptp p).lastOffset = off ∧
        (t.ptp p).master = (s.ptp p).master ∧ s.Frame [.net] [] t) ∧
      (s.selected p = true → s.timeRuns = true → off.natAbs ≤ s.rd O.STEP_THRESHOLD_NS * 65536 →
        ∃ t, exec (.sync p m false) s = .next t ∧ t.rd O.OFFSET = toU 64 off ∧ t.time.now = s.time.now ∧
          t.rd O.MASTER_ID = leNat m.clockId ∧
          t.rd O.TIME_QUALITY = (nextQuality (s.rd O.TIME_QUALITY) s.time.good s.time.bad
            (decide (off.natAbs ≤ s.rd O.LOCK_THRESHOLD_NS * 65536))).1 ∧
          t.time.rho.natAbs ≤ 1000 * s.rd O.SLEW_MAX_PPB ∧
          s.Frame [.net, .time, .draws, .delivery] [O.OFFSET, O.MASTER_ID, O.TIME_QUALITY, O.ERROR_BOUND_NS] t) ∧
      (s.selected p = true → s.timeRuns = true → (s.rd O.STEP_THRESHOLD_NS * 65536 : Nat) < off →
        ∃ t, exec (.sync p m false) s = .next t ∧ t.rd O.OFFSET = toU 64 off ∧
          t.time.now = ((s.time.now : Int) - off).toNat ∧ t.rd O.TIME_QUALITY = 1 ∧
          t.rd O.STEPS = (s.rd O.STEPS + 1) % 2 ^ keyBits O.STEPS ∧
          s.Frame [.net, .time, .delivery] [O.OFFSET, O.MASTER_ID, O.TIME_QUALITY, O.ERROR_BOUND_NS, O.STEPS] t)) ∧
    (∀ rx corr, (s.ptp p).pendingSync = some (m.sequenceId.val, rx, corr, m.clockId) → s.acceptsSync p m = true →
      s.selected p = false → ∃ t, exec (.followUp p m) s = .next t ∧ (t.ptp p).pendingSync = none ∧
        (t.ptp p).lastOffset = (rx : Int) - ((m.timestamp : Int) + (corr + m.correction) + (s.ptp p).delay) ∧
        s.Frame [.net] [] t) ∧
    ((s.ptp p).pendingSync = none → exec (.followUp p m) s = .next s)) ∧
  (∀ (s : State) (p : Fin 2) (m : PtpMsg) (a : AnnounceMsg), s.alive = true → s.ptpOn p = true → m.malformed = false →
    (s.ptpDomain p ≠ m.domain.val → exec (.announce p m a) s = .next s) ∧
    (p = 1 → s.ptpDomain 1 = m.domain.val → s.isSlave1 = true → (s.ptp 1).master = none →
      ∃ t, exec (.announce p m a) s = .next t ∧ (t.ptp 1).master = some (Master.ofAnnounce m a) ∧
        s.Frame [.net] [O.MASTER_ID] t) ∧
    (p = 1 → s.ptpDomain 1 = m.domain.val → (s.isSlave1 = false ∨ ∃ o, (s.ptp 1).master = some o ∧ o.clockId ≠ m.clockId) →
      ∃ t, exec (.announce p m a) s = .next t ∧ t.rd O.NET1_FOREIGN_ANNOUNCE =
        (s.rd O.NET1_FOREIGN_ANNOUNCE + 1) % 2 ^ keyBits O.NET1_FOREIGN_ANNOUNCE ∧
        s.Frame [] [O.NET1_FOREIGN_ANNOUNCE] t) ∧
    (p = 0 → s.ptpDomain 0 = m.domain.val → s.on O.AS_CAPABLE = true → m.clockId ≠ s.clockId 0 →
      s.rd O.PRIORITY1 = 255 →
      ∃ t n, exec (.announce p m a) s = .next t ∧ (t.ptp 0).master = some n ∧ (t.ptp 0).isMaster = false ∧
        (n = Master.ofAnnounce m a ∨ (s.ptp 0).master = some n ∧ n.clockId ≠ m.clockId ∧
          listLt (Master.ofAnnounce m a).vector n.vector = false) ∧
        s.Frame [.net, .time, .delivery] (O.MASTER_ID :: holdoverKeys) t)) ∧
  (∀ (s : State) (m : PtpMsg) (pl sl al : Int), s.alive = true → s.ptpOn 0 = true → m.malformed = false →
    ∃ t, exec (.signaling m pl sl al) s = .next t ∧
      (-3 ≤ pl → pl ≤ 3 → t.rdI 8 O.NET0_PDELAY_LOG_INTERVAL = pl) ∧
      (-7 ≤ sl → sl ≤ 0 → t.rdI 8 O.NET0_SYNC_LOG_INTERVAL = sl) ∧
      s.Frame [] [O.NET0_PDELAY_LOG_INTERVAL, O.NET0_SYNC_LOG_INTERVAL] t) ∧
  (∀ (s : State) (m : PtpMsg), s.alive = true → s.ptpOn 0 = true → m.malformed = false →
    (s.netSends 0 = true → ∃ t a b, exec (.pdelayReq m) s = .next t ∧ t.out = .frame 0 b :: .frame 0 a :: s.out ∧
      s.Frame [.delivery] [] t) ∧
    (s.net.ptp0.reqTime.isSome = true → s.net.ptp0.reqSeq = m.sequenceId.val →
      ∃ t, exec (.pdelayResp m) s = .next t ∧ t.net.ptp0 = { s.net.ptp0 with
        respT2 := some (((m.timestamp : Int) + m.correction).toNat, (s.rxStamp 0 m).toNat) } ∧ s.Frame [.net] [] t) ∧
    (s.net.ptp0.reqTime.isNone = true ∨ s.net.ptp0.reqSeq ≠ m.sequenceId.val → exec (.pdelayResp m) s = .next s) ∧
    (∀ t1 t2 t4, s.net.ptp0.reqTime = some t1 → s.net.ptp0.respT2 = some (t2, t4) → s.net.ptp0.prevPair = none →
      s.net.ptp0.reqSeq = m.sequenceId.val →
      let t3 := ((m.timestamp : Int) + m.correction).toNat
      let d := (((t4 : Int) - t1) - ((t3 : Int) - t2)) / 2
      ∃ t, exec (.pdelayRespFollowUp m) s = .next t ∧ t.net.ptp0.delay = d ∧ t.net.ptp0.missing = 0 ∧
        t.net.ptp0.prevPair = some (t3, t4) ∧ t.net.ptp0.reqTime = none ∧
        t.rd O.NEIGHBOR_DELAY_NS = d.toNat / 65536 % 4294967296 ∧
        t.rd O.AS_CAPABLE = (if d ≤ 800 * 65536 then 1 else 0) ∧
        s.Frame [.net, .delivery] [O.NEIGHBOR_DELAY_NS, O.AS_CAPABLE] t)) ∧
  (∀ (s : State) (m : PtpMsg), s.alive = true → s.ptpOn 1 = true → m.malformed = false →
    s.ptpDomain 1 = m.domain.val →
    (s.isMaster1 = true → s.netSends 1 = true → ∃ t a, exec (.delayReq m) s = .next t ∧ t.out = .frame 1 a :: s.out ∧
      s.Frame [.delivery] [] t) ∧
    (∀ t1 t2 t3, s.isSlave1 = true → s.net.ptp1.reqTime = some t3 → s.net.ptp1.syncT1 = some (t1, t2) →
      s.net.ptp1.reqSeq = m.sequenceId.val → s.net.ptp1.master.map Master.clockId = some m.clockId →
      let d := (((t2 : Int) - t1) + (((m.timestamp : Int) - m.correction) - t3)) / 2
      ∃ t, exec (.delayResp m) s = .next t ∧ t.net.ptp1 = { s.net.ptp1 with delay := d, reqTime := none } ∧
        t.rd O.MEAN_PATH_DELAY_NS = d.toNat / 65536 % 4294967296 ∧ s.Frame [.net] [O.MEAN_PATH_DELAY_NS] t)) ∧
  (∀ (s : State) (p : Fin 2) (n : Fin 16), exec (.ptpManagementDiscard p n) s = .next s) ∧
  (∀ (s : State) (p : Fin 2), s.alive = true → s.ptpOn p = true →
    ∃ t, exec (.syncReceiptTimeout p) s = .next t ∧ (t.ptp p).master = none ∧ (t.ptp p).pendingSync = none ∧
      ((t.ptp p).isMaster = true ↔ p = 0 ∧ s.rd O.PRIORITY1 ≠ 255) ∧
      t.rd O.TIME_QUALITY = (if s.selected p = true ∧ (s.rd O.TIME_QUALITY = 1 ∨ s.rd O.TIME_QUALITY = 2) then 3
        else s.rd O.TIME_QUALITY) ∧
      s.Frame [.net, .time, .delivery] holdoverKeys t) ∧
  (∀ s : State, s.alive = true → s.rd O.TIME_QUALITY = 3 → s.timeRuns = true →
    let e := s.time.now - s.rd O.HOLDOVER_SINCE - s.time.slept
    ∃ t, exec .errorBoundTick s = .next t ∧
      t.rd O.ERROR_BOUND_NS = (s.time.holdOffsetNs + ceilDiv (s.rd O.HOLDOVER_PPB * e) (65536 * 1000000000) +
        s.time.sleepTermsNs) % 2 ^ 64 ∧ s.Frame [] [O.ERROR_BOUND_NS] t) ∧
  (∀ (s : State) (p : Fin 2), s.alive = true → s.sendsSync p = true → s.netSends p = true →
    (∃ t a b, exec (.syncIntervalExpiry p) s = .next t ∧ t.out = .frame p b :: .frame p a :: s.out ∧
      t.ptp p = { s.ptp p with syncSeq := ((s.ptp p).syncSeq + 1) % 65536 } ∧ s.Frame [.net, .delivery] [] t) ∧
    (∃ t a, exec (.announceIntervalExpiry p) s = .next t ∧ t.out = .frame p a :: s.out ∧
      t.ptp p = { s.ptp p with announceSeq := ((s.ptp p).announceSeq + 1) % 65536 } ∧ t.time.now = s.time.now ∧
      s.Frame [.net, .delivery, .time] [] t)) ∧
  (∀ (s : State) (missing : Bool), s.alive = true → s.ptpOn 0 = true → s.netSends 0 = true →
    let n := if missing then s.net.ptp0.missing + 1 else 0
    ∃ t a, exec (.pdelayIntervalExpiry missing) s = .next t ∧ t.out.head? = some (.frame 0 a) ∧
      t.net.ptp0.missing = n ∧ t.net.ptp0.reqSeq = (s.net.ptp0.reqSeq + 1) % 65536 ∧
      t.net.ptp0.reqTime = some (s.txNow 0) ∧
      t.rd O.AS_CAPABLE = (if 3 ≤ n then 0 else s.rd O.AS_CAPABLE) ∧ s.Frame [.net, .delivery] [O.AS_CAPABLE] t) ∧
  (∀ s : State, s.alive = true → s.ptpOn 1 = true → s.isSlave1 = true → s.netSends 1 = true →
    ∃ t a, exec .delayReqIntervalExpiry s = .next t ∧ t.out = .frame 1 a :: s.out ∧
      t.net.ptp1 = { s.net.ptp1 with reqSeq := (s.net.ptp1.reqSeq + 1) % 65536, reqTime := some (s.txNow 1) } ∧
      s.Frame [.net, .delivery] [] t)

/-- ARP_REQUEST, NEIGHBOR_SOLICITATION, NET0_LINK_CHANGE, MDIO_OPERATION_END, PLCA_BEACON_LOSS, PLCA_BEACON_SEEN,
WAKE_FRAME, TIME_IO_EDGE, PULSE_EDGE, TRIGGER_FIRE and TRIGGER_SLEEP_WAKE (R393, R394, R398, R400, R404, R405, R408, R409):
the device answers for its own addresses only; a lost link ends asCapable; an edge is captured with its time or counted
as dropped; a pulse starts and ends on its ball; a due one-shot disarms and a periodic trigger takes its next target;
wake frames, wake inputs and wake triggers are request sources 4, 5 and 6. -/
def Obligations.PortsTriggersAndEdgesAct : Prop :=
  (∀ (s : State) (p : Fin 2) (mac : List Byte) (ip target : Fin 4294967296), s.alive = true →
    let own := s.rd (if p = 0 then O.NET0_IPV4 else O.NET1_IPV4)
    (s.netSends p = true → own ≠ 0 → own = target.val → ∃ t, exec (.arpRequest p mac ip target) s = .next t ∧
      t.out = .frame p (mac ++ s.mac p ++ beBytes 2 0x0806 ++ beBytes 2 1 ++ beBytes 2 0x0800 ++ beBytes 2 0x0604 ++
        beBytes 2 2 ++ s.mac p ++ beBytes 4 own ++ mac ++ beBytes 4 ip) :: s.out ∧ s.Frame [.delivery] [] t) ∧
    (own ≠ target.val → exec (.arpRequest p mac ip target) s = .next s)) ∧
  (∀ (s : State) (p : Fin 2) (mac ip target : List Byte), s.alive = true →
    let own := s.rdB (if p = 0 then O.NET0_IPV6 else O.NET1_IPV6)
    (s.netSends p = true → own.any (· != 0) = true → own = target →
      ∃ t a, exec (.neighborSolicitation p mac ip target) s = .next t ∧ t.out = .frame p (mac ++ a) :: s.out ∧
        s.Frame [.delivery] [] t) ∧
    (own ≠ target → exec (.neighborSolicitation p mac ip target) s = .next s)) ∧
  (∀ (s : State) (rate : Fin 5), s.alive = true → s.ready 0x21 = true →
    (rate = 0 ∨ s.rd O.NET0_MODE = 1 ∧ rate.val ≤ 3 ∨ s.rd O.NET0_MODE = 2 ∧ rate = 4) →
    ∃ t, exec (.net0LinkChange rate) s = .next t ∧ t.rd O.NET0_LINK = rate ∧
      (rate ≠ 0 → s.Frame [.delivery] [O.NET0_LINK] t) ∧
      (rate = 0 → t.rd O.AS_CAPABLE = 0 ∧ t.net.ptp0 = Ptp.reset ∧
        s.Frame [.net, .time, .delivery] ([O.NET0_LINK, O.AS_CAPABLE] ++ holdoverKeys) t)) ∧
  (∀ (s : State) (d : Fin 65536) (v : Nat), s.alive = true → s.net.mdio = some v →
    ∃ t, exec (.mdioOperationEnd d) s = .next t ∧ (t.rd O.MDIO_ACCESS).testBit 31 = false ∧ t.net.mdio = none ∧
      (v.testBit 30 = true → t.rd O.MDIO_ACCESS % 65536 = d) ∧ s.Frame [.net] [O.MDIO_ACCESS] t) ∧
  (∀ s : State, s.alive = true → s.ready 0x22 = true → s.plcaFollows = true →
    (s.rd O.PLCA_STATUS = 2 → ∃ t, exec .plcaBeaconLoss s = .next t ∧ t.rd O.PLCA_STATUS = 1 ∧
      t.rd O.BEACON_LOSSES = (s.rd O.BEACON_LOSSES + 1) % 2 ^ keyBits O.BEACON_LOSSES ∧
      (s.selected 1 = true → s.rd O.TIME_QUALITY = 2 → t.rd O.TIME_QUALITY = 3) ∧
      s.Frame [.time, .delivery] ([O.PLCA_STATUS, O.BEACON_LOSSES] ++ holdoverKeys) t) ∧
    (s.rd O.PLCA_STATUS = 1 → ∃ t, exec .plcaBeaconSeen s = .next t ∧ t.rd O.PLCA_STATUS = 2 ∧
      s.Frame [.delivery] [O.PLCA_STATUS] t)) ∧
  (∀ (s : State) (dest : List Byte) (ty : Fin 65536) (pay : List Byte), s.alive = true → s.domOn 58 = false →
    s.on O.NET1_WAKE_ENABLE = true → dest = s.mac 1 ∨ dest = List.replicate 6 0xFF → ty.val = s.rd O.WAKE_ETHERTYPE →
    8 ≤ pay.length → pay.take 8 = s.rdB O.WAKE_PATTERN →
    ∃ t, exec (.wakeFrame dest ty pay) s = .next t ∧ s.requested t 4 (s.rd (O.WAKE_TARGET 4)) ∧
      t.rd O.WAKE_FRAMES = (s.rd O.WAKE_FRAMES + 1) % 2 ^ keyBits O.WAKE_FRAMES ∧
      s.Frame [.power, .delivery] (O.WAKE_FRAMES :: requestKeys 4) t) ∧
  (∀ (s : State) (n : Fin 4) (falling : Bool), s.sized = true → s.alive = true → s.tioOwner n < 32 →
    let w := s.tioOwner n
    let q := nth s.net.captures n []
    (s.rd (O.TIO_MODE n w) = 1 ∧ s.domOn 63 = true ∨ s.rd (O.TIO_MODE n w) = 3) →
    (s.rd (O.TIO_EDGE n w)).testBit (if falling then 1 else 0) = true →
    ∃ t, exec (.timeIoEdge n falling) s = .next t ∧
      (q.length < 16 → ∃ e, nth t.net.captures n [] = q ++ [e] ∧ e.drop 4 = time96Bytes s.time.now) ∧
      (16 ≤ q.length → nth t.net.captures n [] = q ∧ t.rd (O.CAPTURE_OVERFLOW n w) = 1 ∧
        t.rd (O.CAPTURE_DROPS n w) = (s.rd (O.CAPTURE_DROPS n w) + 1) % 2 ^ keyBits (O.CAPTURE_DROPS n w)) ∧
      nth t.net.captureSeq n 0 = (nth s.net.captureSeq n 0 + 1) % 65536 ∧
      (s.rd (O.TIO_MODE n w) = 3 → s.requested t 5 (s.rd (O.WAKE_TARGET 5))) ∧
      s.Frame ([.net] ++ if s.rd (O.TIO_MODE n w) = 3 then [.power, .delivery] else [])
        ([O.CAPTURE_DROPS n w, O.CAPTURE_OVERFLOW n w] ++ requestKeys 5) t) ∧
  (∀ (s : State) (n : Fin 4) (tr : Train), s.sized = true → s.alive = true → s.timeRuns = true → s.train n = some tr →
    tr.waiting = false →
    let due := s.ahead ((tr.start + tr.k * tr.period + if tr.inPulse then tr.width else 0) % 2 ^ 64)
    (131072 < due → exec (.pulseEdge n) s = .next s) ∧
    (tr.inPulse = false → -131072 < due → due ≤ 131072 → ∃ t, exec (.pulseEdge n) s = .next t ∧
      t.train n = some { tr with inPulse := true } ∧ nth t.pins.tioLevel n false = !tr.idleHigh ∧
      t.out = .tio n (if tr.idleHigh then 0 else 1) :: s.out ∧
      t.rd (O.PULSES_EMITTED n (s.tioOwner n)) =
        (s.rd (O.PULSES_EMITTED n (s.tioOwner n)) + 1) % 2 ^ keyBits (O.PULSES_EMITTED n (s.tioOwner n)) ∧
      s.Frame [.net, .pins, .delivery] [O.PULSES_EMITTED n (s.tioOwner n)] t) ∧
    (tr.inPulse = true → due ≤ 131072 → s.tioOwner n < 32 → ∃ t, exec (.pulseEdge n) s = .next t ∧
      nth t.pins.tioLevel n false = tr.idleHigh ∧ t.out = .tio n (if tr.idleHigh then 1 else 0) :: s.out ∧
      (t.train n = none ↔ tr.period = 0 ∨ tr.count ≠ 0 ∧ tr.count ≤ tr.k + 1) ∧
      (t.train n = none → t.rd (O.TIO_STATE n (s.tioOwner n)) = 3) ∧
      s.Frame [.net, .pins, .delivery] [O.TIO_STATE n (s.tioOwner n)] t)) ∧
  (∀ (s : State) (n w : Nat) (d : Int), s.alive = true → s.timeRuns = true → s.timeComing = false →
    s.dueTriggers = [(n, d)] → s.armed n = some w →
    let a := s.rd (O.TRIG_ACTIONS n w)
    let p := s.rd (O.TRIG_PERIOD n w)
    let tgt := s.rd (O.TRIG_TARGET n w)
    a.testBit 2 = false → a.testBit 3 = false →
    ∃ t, exec .triggerFire s = .next t ∧ t.rd (O.TRIG_LAST n w) = s.time.now ∧
      (a.testBit 1 = true → s.requested t 6 (s.rd (O.WAKE_TARGET 6)) ∨ (-d).toNat / p ≠ 0) ∧
      (p = 0 → t.rd (O.TRIG_STATE n w) = 2 ∧ t.rd (O.TRIG_ACTIONS n w) = 0) ∧
      (0 < p → t.rd (O.TRIG_STATE n w) = 1 ∧ t.rd (O.TRIG_TARGET n w) = (tgt + ((-d).toNat / p + 1) * p) % 2 ^ 64) ∧
      (0 < p → 1 ≤ (-d).toNat / p → t.rd (O.TRIG_LATE n w) = (s.rd (O.TRIG_LATE n w) + 1) % 2 ^ keyBits (O.TRIG_LATE n w)) ∧
      (a.testBit 1 = false → s.Frame [.delivery] [O.TRIG_LAST n w, O.TRIG_STATE n w, O.TRIG_ACTIONS n w,
        O.TRIG_TARGET n w, O.TRIG_LATE n w, O.TRIG_MISSED n w] t)) ∧
  (∀ (s : State) (n : Nat) (d : Int), s.alive = true → s.domOn 63 = false → (n, d) ∈ s.dueTriggers →
    (s.rd (O.TRIG_ACTIONS n (s.trigOwner n))).testBit 1 = true →
    ∃ t, exec .triggerSleepWake s = .next t ∧ s.requested t 6 (s.rd (O.WAKE_TARGET 6)) ∧
      s.Frame [.power, .delivery] (requestKeys 6) t)

/-! ### Security -/

/-- Of `n` error records written by a command, the last. -/
def Sys2Proof.Machine.State.recorded (s t : State) (n code sev unit tenant d0 d1 : Nat) : Prop :=
  let seq := (s.rd O.ERRLOG_WRITTEN + n) % 2 ^ 32
  t.rd O.ERRLOG_WRITTEN = seq ∧
  t.rdB (O.ERRLOG_RECORD ((seq + 63) % 64)) = errBytes s.timeNow code unit sev tenant d0 d1 seq ∧
  t.errRead.testBit ((seq + 63) % 64) = false

/-- The objects that admission of a tenant writes (Table 18.6a). -/
def Sys2Proof.Machine.admitKeys (u : Nat) : List Nat :=
  [O.PROG_DIGEST u, O.WEIGHT_DIGEST u, O.PROG_COUNT u, O.WEIGHT_COUNT u, O.DEBUG_CONSENT u, O.PROFILE_CONSENT u,
   O.CONSENT_CHANGES u, O.SLOT_EPOCH u, O.ADMITTED_AT u, O.SLOT_STATE u]

/-- ENTROPY_READY, ENTROPY_HEALTH_FAIL, KEY_REQUEST_TIMEOUT and MEASURE_COMPLETE (R437, R438, R445, R446, R454): the first
READY draws the nonce, which is not 0, and admits slot 0; what waited for entropy goes on; a key request that fails is
counted and recorded, and an admission ends FAILED; a measurement extends the register, or fails on a tag. -/
def Obligations.KeysComeWithEntropy : Prop :=
  (∀ s : State, s.sized = true → s.alive = true → s.rd O.ENTROPY_STATE ≠ 1 → s.security.tasks = [] →
    (s.security.everReady = false → s.rd (O.SLOT_STATE 0) = 0 ∨ s.rd (O.SLOT_STATE 0) = 4 →
      (∀ q, q < 8 → (s.queue 0 q).settled) →
      ∃ t, exec .entropyReady s = .next t ∧ t.rd O.ENTROPY_STATE = 1 ∧ t.rd O.POWERUP_NONCE ≠ 0 ∧
        t.rd O.ENTROPY_READY_US = (s.clock - s.porAt) / 1000 ∧ t.rd (O.SLOT_STATE 0) = 2 ∧
        t.rd (O.SLOT_EPOCH 0) = (s.rd (O.SLOT_EPOCH 0) + 1) % 4294967296 ∧ t.rd (O.ADMITTED_AT 0) = s.timeNow ∧
        t.security.everReady = true ∧ t.security.nonceDue = false ∧ t.security.draws = s.security.draws + 3 ∧
        nth t.security.slots 0 0 = s.security.draws + 2 ∧
        s.Frame [.security, .delivery] ([O.ENTROPY_STATE, O.ENTROPY_READY_US, O.POWERUP_NONCE, O.PATROL_STATE] ++
          admitKeys 0) t) ∧
    (s.security.everReady = true → s.rd (O.SLOT_STATE 0) = 2 →
      ∃ t, exec .entropyReady s = .next t ∧ t.rd O.ENTROPY_STATE = 1 ∧
        s.Frame [.delivery] [O.ENTROPY_STATE, O.PATROL_STATE] t)) ∧
  (∀ (s : State) (u : Nat), s.sized = true → s.alive = true → s.rd O.ENTROPY_STATE ≠ 1 →
    s.security.everReady = true → s.rd (O.SLOT_STATE 0) = 2 → u ≠ 0 → u < 32 → s.security.tasks = [.admission u] →
    (∀ q, q < 8 → (s.queue u q).settled) →
    ∃ t, exec .entropyReady s = .next t ∧ t.rd O.ENTROPY_STATE = 1 ∧ t.rd (O.SLOT_STATE u) = 2 ∧
      t.security.tasks = [] ∧ t.security.draws = s.security.draws + 1 ∧ nth t.security.slots u 0 = s.security.draws ∧
      (∀ v, v ≠ u → nth t.security.slots v 0 = nth s.security.slots v 0) ∧
      t.rd (O.SLOT_EPOCH u) = (s.rd (O.SLOT_EPOCH u) + 1) % 4294967296 ∧ t.rd (O.DEBUG_CONSENT u) = 0 ∧
      t.rd (O.PROFILE_CONSENT u) = 0 ∧
      s.Frame [.security, .delivery] ([O.ENTROPY_STATE, O.PATROL_STATE] ++ admitKeys u) t) ∧
  (∀ s : State, s.alive = true →
    ∃ t, exec .entropyHealthFail s = .next t ∧ t.rd O.ENTROPY_STATE = 2 ∧
      t.rd O.HEALTH_FAILURES = (s.rd O.HEALTH_FAILURES + 1) % 4294967296 ∧
      s.Frame [.delivery] [O.ENTROPY_STATE, O.HEALTH_FAILURES] t) ∧
  (∀ s : State, s.alive = true → s.rd O.ENTROPY_STATE = 1 →
    exec .entropyReady s = .next s ∧ exec .keyRequestTimeout s = .next s) ∧
  (∀ s : State, s.alive = true → s.rd O.ENTROPY_STATE ≠ 1 →
    (s.security.nonceDue = true → ∃ t, exec .keyRequestTimeout s = .next t ∧
      t.rd O.KEY_REQUESTS_FAILED = (s.rd O.KEY_REQUESTS_FAILED + 1) % 4294967296 ∧
      s.recorded t 1 0x0603 2 0x2D 0xFF 3 0 ∧ t.security = { s.security with nonceDue := false } ∧
      s.Frame [.delivery, .marks, .security] (O.KEY_REQUESTS_FAILED :: errKeys) t) ∧
    (∀ u, u < 32 → s.security.nonceDue = false → s.security.tasks = [.admission u] →
      ∃ t, exec .keyRequestTimeout s = .next t ∧ t.rd (O.SLOT_STATE u) = 4 ∧
        t.rd (O.SLOT_LAST_ABORT u) = Abort.entropyNotReady.code ∧
        t.rd O.KEY_REQUESTS_FAILED = (s.rd O.KEY_REQUESTS_FAILED + 1) % 4294967296 ∧
        s.recorded t 2 0x0602 2 0x2C u u Abort.entropyNotReady.code ∧ t.security = { s.security with tasks := [] } ∧
        s.Frame [.delivery, .marks, .security]
          ([O.KEY_REQUESTS_FAILED, O.SLOT_STATE u, O.SLOT_LAST_ABORT u, O.PATROL_STATE] ++ errKeys) t) ∧
    (∀ m, s.security.nonceDue = false → s.security.tasks = [.exchange m] →
      ∃ t, exec .keyRequestTimeout s = .next t ∧ t.security = { s.security with tasks := [] } ∧
        t.rd O.KEY_REQUESTS_FAILED = (s.rd O.KEY_REQUESTS_FAILED + 1) % 4294967296 ∧
        t.rd O.SPDM_ERRORS = (s.rd O.SPDM_ERRORS + 1) % 4294967296 ∧ s.recorded t 1 0x0603 2 0x2D 0xFF 2 0 ∧
        s.Frame [.delivery, .marks, .security]
          ([O.KEY_REQUESTS_FAILED, O.SPDM_ERRORS, O.PATROL_STATE] ++ errKeys) t)) ∧
  (∀ (s : State) (ten : Fin 32) (a n : Nat), s.alive = true → s.ready 0x2C = true →
    s.security.tasks = [.measure ten a n] →
    let d := sha384 (s.tbytes ten a n)
    (∃ t, exec (.measureComplete ten false) s = .next t ∧ t.rd (O.MEASURE_STATE ten) = 2 ∧
      t.rdB (O.WEIGHT_DIGEST ten) = sha384 (s.rdB (O.WEIGHT_DIGEST ten) ++ d) ∧ t.rdB (O.MEASURE_LAST ten) = d ∧
      t.rd (O.WEIGHT_COUNT ten) = (s.rd (O.WEIGHT_COUNT ten) + 1) % 65536 ∧
      t.security = { s.security with tasks := [] } ∧
      s.Frame [.delivery, .security] [O.MEASURE_STATE ten, O.WEIGHT_DIGEST ten, O.MEASURE_LAST ten, O.WEIGHT_COUNT ten,
        O.PATROL_STATE] t) ∧
    ∃ t, exec (.measureComplete ten true) s = .next t ∧ t.rd (O.MEASURE_STATE ten) = 3 ∧
      t.rd (O.TAG_FAULTS ten) = (s.rd (O.TAG_FAULTS ten) + 1) % 4294967296 ∧
      t.rd O.TAG_FAULTS_ALL = (s.rd O.TAG_FAULTS_ALL + 1) % 4294967296 ∧
      s.recorded t 1 0x0303 2 0x2C ten (s.loc ten a % 2 ^ 32) 0 ∧ t.security = { s.security with tasks := [] } ∧
      s.Frame [.delivery, .marks, .security] ([O.MEASURE_STATE ten, O.TAG_FAULTS ten, O.TAG_FAULTS_ALL,
        O.PATROL_STATE] ++ errKeys) t) ∧
  (∀ (s : State) (ten : Fin 32) (fault : Bool), s.alive = true →
    (∀ a n, s.security.tasks.head? ≠ some (.measure ten a n)) → exec (.measureComplete ten fault) s = .next s)

/-- The SPDM requests of Table 18.9: request code, the phase of the negotiation that they need, message. -/
def Sys2Proof.spdmRow : Instr → Option (Nat × Nat × List Byte)
  | .getVersion m => some (0x84, 0, m)
  | .getCapabilities m => some (0xE1, 1, m)
  | .negotiateAlgorithms m => some (0xE3, 2, m)
  | .getDigests m => some (0x81, 3, m)
  | .getCertificate m => some (0x82, 3, m)
  | .challenge m => some (0x83, 3, m)
  | .getMeasurements _ m => some (0xE0, 3, m)
  | .keyExchange m => some (0xE4, 3, m)
  | .finish _ m => some (0xE5, 3, m)
  | .endSession _ m => some (0xEC, 3, m)
  | .spdmHeartbeat _ m => some (0xE8, 3, m)
  | .keyUpdate _ m => some (0xE9, 3, m)
  | _ => none

/-- The responder answers with an ERROR, which is counted. -/
def Sys2Proof.Machine.State.answersError (s : State) (c : Instr) (code : Nat) : Prop :=
  ∃ t, exec c s = .next t ∧ t.out = .spdm (spdmMsg 0x7F code 0 []) :: s.out ∧
    t.rd O.SPDM_ERRORS = (s.rd O.SPDM_ERRORS + 1) % 4294967296 ∧ s.Frame [.delivery] [O.SPDM_ERRORS] t

/-- A request that the responder takes up: alive, with the link up and Patrol ready and without a task, in order of the
negotiation. -/
structure Sys2Proof.Machine.State.responds (s : State) (c : Instr) (msg : List Byte) : Prop where
  alive : s.alive = true
  link : s.linkUp = true
  patrol : s.ready 0x2C = true
  free : s.security.tasks = []
  row : ∃ code phase, spdmRow c = some (code, phase, msg) ∧ field msg 1 1 = code ∧ phase ≤ s.security.spdmPhase
  version : field msg 0 1 = 0x12 ∨ ∃ m, c = .getVersion m

/-- GET_VERSION, GET_CAPABILITIES, NEGOTIATE_ALGORITHMS, GET_DIGESTS, GET_CERTIFICATE, CHALLENGE, GET_MEASUREMENTS,
KEY_EXCHANGE, FINISH, END_SESSION, HEARTBEAT and KEY_UPDATE (R432, R436, R438, R455, R456): a request meanwhile of a task, of
another code or out of order is answered ERROR; the responses hold the version, the algorithms of Table 18.9, the chain
and the measurements; a session opens with entropy, is established by FINISH and ends. What DSP0274 lays down, message
octets among it, is the model's (PRESUMED, log entry 71). -/
def Obligations.SpdmAnswers : Prop :=
  (∀ (s : State) (c : Instr) (code phase : Nat) (m : List Byte), spdmRow c = some (code, phase, m) → s.alive = true →
    s.linkUp = true → s.ready 0x2C = true →
    (s.security.tasks ≠ [] → s.answersError c spdmNotReady) ∧
    (s.security.tasks = [] → field m 1 1 ≠ code → s.answersError c spdmUnsupported) ∧
    (s.security.tasks = [] → field m 1 1 = code → field m 0 1 = 0x12 → s.security.spdmPhase < phase →
      s.answersError c spdmUnexpected)) ∧
  (∀ (s : State) (m : List Byte), s.responds (.getVersion m) m →
    ∃ t r, exec (.getVersion m) s = .next t ∧ t.out = .spdm r :: s.out ∧ r = [0x10, 0x04, 0, 0, 0, 1, 0, 0x12] ∧
      t.security = { s.security with spdmPhase := 1, transcript := m ++ r } ∧ s.Frame [.delivery, .security] [] t) ∧
  (∀ (s : State) (m : List Byte), s.responds (.getCapabilities m) m →
    ∃ t r, exec (.getCapabilities m) s = .next t ∧ t.out = .spdm r :: s.out ∧ r.length = 20 ∧
      r.take 12 = [0x12, 0x61, 0, 0, 0, 17, 0, 0] ++ leBytes 4 spdmFlags ∧
      t.security = { s.security with spdmPhase := max 2 s.security.spdmPhase,
                                     transcript := s.security.transcript ++ m ++ r } ∧
      s.Frame [.delivery, .security, .draws] [] t) ∧
  (∀ (s : State) (m : List Byte), s.responds (.negotiateAlgorithms m) m →
    ∃ t r, exec (.negotiateAlgorithms m) s = .next t ∧ t.out = .spdm r :: s.out ∧ r.length = 52 ∧
      r.take 4 = [0x12, 0x63, 4, 0] ∧ field r 12 4 = Nat.land (field m 8 4) 0x80 ∧
      field r 16 4 = Nat.land (field m 12 4) 2 ∧
      t.security = { s.security with spdmPhase := 3, transcript := s.security.transcript ++ m ++ r } ∧
      s.Frame [.delivery, .security] [] t) ∧
  (∀ (s : State) (m : List Byte), s.responds (.getDigests m) m →
    ∃ t r, exec (.getDigests m) s = .next t ∧ t.out = .spdm r :: s.out ∧
      r = (if s.provisioned then spdmMsg 0x01 0 1 (sha384 s.slotChain) else spdmMsg 0x01 0 0 []) ∧
      t.security = { s.security with transcript := s.security.transcript ++ m ++ r } ∧
      s.Frame [.delivery, .security] [] t) ∧
  (∀ (s : State) (m : List Byte), s.responds (.getCertificate m) m →
    let chain := s.slotChain
    let off := field m 4 2
    let n := min (field m 6 2) (chain.length - off)
    (field m 2 1 ≠ 0 ∨ s.provisioned = false ∨ chain.length ≤ off →
      s.answersError (.getCertificate m) spdmInvalid) ∧
    (field m 2 1 = 0 → s.provisioned = true → off < chain.length →
      ∃ t r, exec (.getCertificate m) s = .next t ∧ t.out = .spdm r :: s.out ∧
        r = [0x12, 0x02, 0, 0] ++ leBytes 2 n ++ leBytes 2 (chain.length - off - n) ++ slice chain off n ∧
        t.security = { s.security with transcript := s.security.transcript ++ m ++ r } ∧
        s.Frame [.delivery, .security] [] t)) ∧
  (∀ (s : State) (m : List Byte), s.responds (.challenge m) m →
    (field m 2 1 ≠ 0 ∨ s.provisioned = false → s.answersError (.challenge m) spdmInvalid) ∧
    (field m 2 1 = 0 → s.provisioned = true → s.rd O.ENTROPY_STATE = 1 →
      ∃ t nonce sig, exec (.challenge m) s = .next t ∧ nonce.length = 32 ∧ sig.length = 96 ∧
        t.out = .spdm ([0x12, 0x03, 0, 1] ++ sha384 s.slotChain ++ nonce ++ s.summaryHash (field m 3 1) ++ [0, 0] ++
          sig) :: s.out ∧ t.security.draws = s.security.draws + 1 ∧ s.Frame [.delivery, .security] [] t)) ∧
  (∀ (s : State) (id : Fin 4294967296) (m : List Byte), s.responds (.getMeasurements id m) m →
    let op := field m 3 1
    let bs := if op = 0xFF then s.measurements else s.measurements.filter fun x => x.1 == op
    let wrap := fun count n rec' => [0x12, 0x60] ++ leBytes 1 count ++ [0] ++ leBytes 1 n ++ leBytes 3 (List.length rec') ++
      rec'
    (s.inSession id = false → s.answersError (.getMeasurements id m) spdmNoSession) ∧
    (s.inSession id = true → field m 2 1 % 2 = 1 → s.provisioned = false →
      s.answersError (.getMeasurements id m) spdmInvalid) ∧
    (s.inSession id = true → op = 0 → field m 2 1 % 2 = 0 → s.rd O.ENTROPY_STATE = 1 →
      ∃ t nonce, exec (.getMeasurements id m) s = .next t ∧ nonce.length = 32 ∧
        t.out = .spdm (wrap 37 0 [] ++ nonce ++ [0, 0]) :: s.out ∧ s.Frame [.delivery, .security] [] t) ∧
    (s.inSession id = true → op ≠ 0 → bs ≠ [] → field m 2 1 % 2 = 0 ∨ s.provisioned = true → s.rd O.ENTROPY_STATE = 1 →
      ∃ t nonce sig, exec (.getMeasurements id m) s = .next t ∧ nonce.length = 32 ∧
        (field m 2 1 % 2 = 0 → sig = []) ∧ (field m 2 1 % 2 = 1 → sig.length = 96) ∧
        t.out = .spdm (wrap 0 bs.length (bs.flatMap measureBlock) ++ nonce ++ [0, 0] ++ sig) :: s.out ∧
        s.Frame [.delivery, .security] [] t)) ∧
  (∀ (s : State) (m : List Byte), s.responds (.keyExchange m) m →
    (∀ e, s.exchangeError m = some e → s.answersError (.keyExchange m) e) ∧
    (4 ≤ s.security.sessions.length → ∃ e, s.exchangeError m = some e) ∧
    (s.exchangeError m = none → s.rd O.ENTROPY_STATE = 1 →
      ∃ t x r, exec (.keyExchange m) s = .next t ∧ t.security.sessions = s.security.sessions ++ [x] ∧
        x.established = false ∧ x.id % 65536 = field m 4 2 ∧ x.draw = s.security.draws ∧
        t.rd O.SPDM_SESSIONS = s.security.sessions.length + 1 ∧ t.security.tasks = [] ∧
        Out.spdm r ∈ t.out.take (t.out.length - s.out.length) ∧ r.take 4 = [0x12, 0x64, 0, 0] ∧
        field r 4 2 = x.id / 65536 ∧
        s.Frame [.delivery, .security, .draws] [O.SPDM_SESSIONS, O.PATROL_STATE] t) ∧
    (s.exchangeError m = none → s.rd O.ENTROPY_STATE ≠ 1 →
      ∃ t, exec (.keyExchange m) s = .next t ∧ t.security = { s.security with tasks := [.exchange m] } ∧
        s.Frame [.delivery, .security] [O.PATROL_STATE] t)) ∧
  (∀ (s : State) (id : Fin 4294967296) (m : List Byte) (x : SpdmSession), s.responds (.finish id m) m →
    s.security.sessions.find? (fun x => x.id == id.val && x.established == false) = some x →
    (Config.finishOk x.draw m = true → ∃ t, exec (.finish id m) s = .next t ∧
      t.out = .spdm [0x12, 0x65, 0, 0] :: s.out ∧ (∃ y ∈ t.security.sessions, y.id = id ∧ y.established = true) ∧
      t.security.sessions.length = s.security.sessions.length ∧
      s.Frame [.delivery, .security] [O.SPDM_SESSIONS] t) ∧
    (Config.finishOk x.draw m = false → ∃ t, exec (.finish id m) s = .next t ∧
      t.out = .spdm (spdmMsg 0x7F spdmDecrypt 0 []) :: s.out ∧
      t.security = { s.security with sessions := s.security.sessions.filter fun y => y.id != id.val } ∧
      t.rd O.SPDM_ERRORS = (s.rd O.SPDM_ERRORS + 1) % 4294967296 ∧
      s.Frame [.delivery, .security] [O.SPDM_SESSIONS, O.SPDM_ERRORS] t)) ∧
  (∀ (s : State) (id : Fin 4294967296) (m : List Byte) (c : Instr),
    c = .endSession id m ∨ c = .spdmHeartbeat id m ∨ c = .keyUpdate id m → s.responds c m →
    let open_ := s.security.sessions.any fun x => x.id == id.val && x.established
    (open_ = false → s.answersError c spdmNoSession) ∧
    (open_ = true → c = .endSession id m → ∃ t, exec c s = .next t ∧ t.out = .spdm [0x12, 0x6C, 0, 0] :: s.out ∧
      t.security = { s.security with sessions := s.security.sessions.filter fun y => y.id != id.val } ∧
      t.rd O.SPDM_SESSIONS = t.security.sessions.length % 256 ∧ s.Frame [.delivery, .security] [O.SPDM_SESSIONS] t) ∧
    (open_ = true → c = .spdmHeartbeat id m → ∃ t, exec c s = .next t ∧ t.out = .spdm [0x12, 0x68, 0, 0] :: s.out ∧
      s.Frame [.delivery] [] t) ∧
    (open_ = true → c = .keyUpdate id m → field m 2 1 = 0 ∨ 3 < field m 2 1 → s.answersError c spdmInvalid) ∧
    (open_ = true → c = .keyUpdate id m → 1 ≤ field m 2 1 → field m 2 1 ≤ 3 → ∃ t, exec c s = .next t ∧
      t.out = .spdm ([0x12, 0x69] ++ leBytes 1 (field m 2 1) ++ leBytes 1 (field m 3 1)) :: s.out ∧
      t.security.sessions = (if field m 2 1 = 3 then s.security.sessions else
        s.security.sessions.map fun y => if y.id = id.val then { y with updates := y.updates + 1 } else y) ∧
      s.Frame [.delivery, .security] [O.SPDM_SESSIONS] t))

/-- The IDE_KM and TDISP requests, which arrive in a secured session. -/
def Sys2Proof.securedRow : Instr → Option (Fin 4294967296)
  | .query n _ => some n
  | .keyProg n _ _ _ _ _ => some n
  | .kSetGo n _ _ _ _ => some n
  | .kSetStop n _ _ _ _ => some n
  | .getTdispVersion n _ => some n
  | .getTdispCapabilities n _ => some n
  | .lockInterfaceRequest n _ _ => some n
  | .getDeviceInterfaceReport n _ _ _ => some n
  | .getDeviceInterfaceState n _ => some n
  | .startInterfaceRequest n _ _ => some n
  | .stopInterfaceRequest n _ => some n
  | _ => none

/-- The TDISP requests with their function. -/
def Sys2Proof.tdispRow : Instr → Option (Fin 32)
  | .getTdispVersion _ f => some f
  | .getTdispCapabilities _ f => some f
  | .lockInterfaceRequest _ f _ => some f
  | .getDeviceInterfaceReport _ f _ _ => some f
  | .getDeviceInterfaceState _ f => some f
  | .startInterfaceRequest _ f _ => some f
  | .stopInterfaceRequest _ f => some f
  | _ => none

/-- A request in an established secured session that the responder takes up. -/
structure Sys2Proof.Machine.State.secured (s : State) (n : Fin 4294967296) : Prop where
  sized : s.sized = true
  alive : s.alive = true
  link : s.linkUp = true
  patrol : s.ready 0x2C = true
  free : s.security.tasks = []
  established : (s.security.sessions.any fun x => x.id == n.val && x.established) = true

/-- A request answered with one message and no other effect. -/
def Sys2Proof.Machine.State.answersOnly (s : State) (c : Instr) (r : List Byte) : Prop :=
  ∃ t, exec c s = .next t ∧ t.out = .spdm r :: s.out ∧ s.Frame [.delivery] [] t

/-- QUERY, KEY_PROG, K_SET_GO, K_SET_STOP and IDE_INTEGRITY_FAIL (R457, R459): key sets enter per sub-stream and direction,
and go and stop as named; a Secure stream that fails or stops becomes Insecure, and the interfaces locked through it go
to ERROR. Message octets are the model's (PRESUMED, log entry 71), as is when a stream is Secure (log entry 72). -/
def Obligations.IdeKeysAndStreams : Prop :=
  (∀ (s : State) (c : Instr) (n : Fin 4294967296), securedRow c = some n → s.alive = true → s.linkUp = true →
    s.ready 0x2C = true → s.security.tasks = [] →
    (s.security.sessions.any fun x => x.id == n.val && x.established) = false → s.answersError c spdmNoSession) ∧
  (∀ (s : State) (n : Fin 4294967296) (port : Fin 256), s.secured n →
    s.answersOnly (.query n port) ([1, 0] ++ leBytes 1 port ++
      [0, 1, 2, 3, 4].flatMap fun i => leBytes 1 (s.ideStream i).state)) ∧
  (∀ (s : State) (n : Fin 4294967296) (k : Fin 8) (set : Fin 2) (sub : Fin 8) (tx : Bool) (keyIv : List Byte),
    s.secured n →
    let c := Instr.keyProg n k set sub tx keyIv
    let st := s.keyProgStatus k sub keyIv
    let i := ideSlot set sub tx
    (st ≠ 0 → s.answersOnly c ([3, 0] ++ leBytes 1 k ++ leBytes 1 st)) ∧
    (k.val ≤ 4 → sub.val ≤ 2 → keyIv.length = 40 → s.ready 0x2D = true → ∃ t, exec c s = .next t ∧
      t.out.head? = some (.spdm ([3, 0] ++ leBytes 1 k ++ [0])) ∧ kvGet i (t.ideStream k).keys = some keyIv ∧
      (t.ideStream k).programmed.testBit i = true ∧ (t.ideStream k).active.testBit i = false ∧
      (t.ideStream k).state = (if (s.ideStream k).state = 2 ∧ ideSecure (t.ideStream k).active = true then 2 else 1) ∧
      (∀ j, j ≠ k.val → t.ideStream j = s.ideStream j) ∧ t.rd O.IDE_LINK_STATE = (t.ideStream 0).state % 256 ∧
      s.Frame [.delivery, .security] [O.IDE_LINK_STATE, O.IDE_SEL_STREAMS] t)) ∧
  (∀ (s : State) (n : Fin 4294967296) (k : Fin 8) (set : Fin 2) (sub : Fin 8) (tx : Bool), s.secured n →
    let i := ideSlot set sub tx
    let o := ideSlot (1 - set.val) sub tx
    let ack := fun (st : Byte) => [6, 0] ++ leBytes 1 k ++ [st]
    (4 < k.val ∨ 2 < sub.val ∨ (s.ideStream k).programmed.testBit i = false →
      s.answersOnly (.kSetGo n k set sub tx) (ack 3) ∧ s.answersOnly (.kSetStop n k set sub tx) (ack 3)) ∧
    (k.val ≤ 4 → sub.val ≤ 2 → (s.ideStream k).programmed.testBit i = true →
      (∃ t, exec (.kSetGo n k set sub tx) s = .next t ∧ t.out.head? = some (.spdm (ack 0)) ∧
        (t.ideStream k).active.testBit i = true ∧ (t.ideStream k).active.testBit o = false ∧
        (∀ j, j ≠ i → j ≠ o → (t.ideStream k).active.testBit j = (s.ideStream k).active.testBit j) ∧
        (t.ideStream k).state = (if ideSecure (t.ideStream k).active then 2 else (s.ideStream k).state) ∧
        (t.ideStream k).keys = (s.ideStream k).keys ∧ (∀ j, j ≠ k.val → t.ideStream j = s.ideStream j) ∧
        s.Frame [.delivery, .security] [O.IDE_LINK_STATE, O.IDE_SEL_STREAMS] t) ∧
      ∃ t, exec (.kSetStop n k set sub tx) s = .next t ∧ t.out.head? = some (.spdm (ack 0)) ∧
        (t.ideStream k).active.testBit i = false ∧ (t.ideStream k).programmed.testBit i = false ∧
        kvGet i (t.ideStream k).keys = none ∧ (∀ j, j ≠ k.val → t.ideStream j = s.ideStream j) ∧
        ((s.ideStream k).state = 2 → ideSecure (t.ideStream k).active = false → (t.ideStream k).state = 3 ∧
          ∀ f, f < 32 → nth s.security.tdiStream f 0 = k → s.tdiLocked f = true → t.rd (O.TDI_STATE f) = 3) ∧
        ((s.ideStream k).state ≠ 2 ∨ ideSecure (t.ideStream k).active = true →
          (t.ideStream k).state = (s.ideStream k).state ∧
          s.Frame [.delivery, .security] [O.IDE_LINK_STATE, O.IDE_SEL_STREAMS] t))) ∧
  (∀ (s : State) (k : Fin 8), s.sized = true → s.alive = true → s.security.tasks = [] →
    (4 < k.val ∨ (s.ideStream k).state ≠ 2 → exec (.ideIntegrityFail k) s = .next s) ∧
    (k.val ≤ 4 → (s.ideStream k).state = 2 → ∃ t, exec (.ideIntegrityFail k) s = .next t ∧
      t.ideStream k = { s.ideStream k with state := 3 } ∧ (∀ j, j ≠ k.val → t.ideStream j = s.ideStream j) ∧
      t.rd O.IDE_INTEGRITY_ERRORS = (s.rd O.IDE_INTEGRITY_ERRORS + 1) % 4294967296 ∧
      s.recorded t 1 0x0604 2 0x20 0xFF k 0 ∧
      (∀ f, f < 32 → nth s.security.tdiStream f 0 = k → s.tdiLocked f = true →
        t.rd (O.TDI_STATE f) = 3 ∧ t.activity f = none ∧ t.activity (f + 32) = none) ∧
      ((∀ f, f < 32 → nth s.security.tdiStream f 0 = k → s.tdiLocked f = false) →
        s.Frame [.delivery, .security, .marks]
          ([O.IDE_LINK_STATE, O.IDE_SEL_STREAMS, O.IDE_INTEGRITY_ERRORS] ++ errKeys) t)))

/-- GET_TDISP_VERSION, GET_TDISP_CAPABILITIES, LOCK_INTERFACE_REQUEST, GET_DEVICE_INTERFACE_REPORT,
GET_DEVICE_INTERFACE_STATE, START_INTERFACE_REQUEST, STOP_INTERFACE_REQUEST and TDI_REJECTED_TLP (R458-R460): an interface
locks where its slot is ADMITTED and its stream Secure, with a nonce against which alone it starts; it reports its
tenant's record; it stops out of any state; a plain request to a running interface is refused and counted. Message octets
are the model's (PRESUMED, log entry 71). -/
def Obligations.InterfacesLockStartAndStop : Prop :=
  (∀ (s : State) (c : Instr) (n : Fin 4294967296) (f : Fin 32), securedRow c = some n → tdispRow c = some f → s.secured n →
    f ≠ 0 → s.host.vfEnable = false → s.answersOnly c (tdispMsg 0x7F f (leBytes 4 0x0101 ++ leBytes 4 0))) ∧
  (∀ (s : State) (n : Fin 4294967296) (f : Fin 32), s.secured n → f = 0 ∨ s.host.vfEnable = true →
    s.answersOnly (.getTdispVersion n f) (tdispMsg 0x01 f [1, 0x10]) ∧
    s.answersOnly (.getDeviceInterfaceState n f) (tdispMsg 0x05 f (leBytes 1 (s.rd (O.TDI_STATE f)))) ∧
    (∃ t r, exec (.getTdispCapabilities n f) s = .next t ∧ List.length r = 28 ∧
      t.out = .spdm (tdispMsg 0x02 f r) :: s.out ∧ s.Frame [.delivery, .draws] [] t) ∧
    (∀ k : Fin 8,
      (s.rd (O.TDI_STATE f) ≠ 0 →
        s.answersOnly (.lockInterfaceRequest n f k) (tdispMsg 0x7F f (leBytes 4 4 ++ leBytes 4 0))) ∧
      (s.rd (O.TDI_STATE f) = 0 → s.admitted f = false ∨ 4 < k.val ∨ (s.ideStream k).state ≠ 2 →
        s.answersOnly (.lockInterfaceRequest n f k) (tdispMsg 0x7F f (leBytes 4 0x0104 ++ leBytes 4 0))) ∧
      (s.rd (O.TDI_STATE f) = 0 → s.admitted f = true → k.val ≤ 4 → (s.ideStream k).state = 2 → s.rd O.ENTROPY_STATE = 1 →
        ∃ t nonce, exec (.lockInterfaceRequest n f k) s = .next t ∧ List.length nonce = 32 ∧
          t.rd (O.TDI_STATE f) = 1 ∧ nth t.security.tdiNonce f [] = nonce ∧ nth t.security.tdiStream f 0 = k ∧
          t.out.head? = some (.spdm (tdispMsg 0x03 f nonce)) ∧ t.security.draws = s.security.draws + 1 ∧
          (∀ g, g ≠ f.val → nth t.security.tdiNonce g [] = nth s.security.tdiNonce g [] ∧
            nth t.security.tdiStream g 0 = nth s.security.tdiStream g 0) ∧
          s.Frame [.delivery, .security] [O.TDI_STATE f] t)) ∧
    (∀ off len : Fin 65536,
      (s.tdiLocked f = false → s.answersOnly (.getDeviceInterfaceReport n f off len)
        (tdispMsg 0x7F f (leBytes 4 4 ++ leBytes 4 0))) ∧
      (s.tdiLocked f = true → ∃ t r b, exec (.getDeviceInterfaceReport n f off len) s = .next t ∧
        r.drop 36 = s.tenantRecord f ∧ t.out = .spdm b :: s.out ∧ s.Frame [.delivery, .draws] [] t ∧
        (off.val < r.length →
          let k := min len.val (r.length - off.val)
          b = tdispMsg 0x04 f (leBytes 2 k ++ leBytes 2 (r.length - off.val - k) ++ slice r off k)) ∧
        (r.length ≤ off.val → b = tdispMsg 0x7F f (leBytes 4 1 ++ leBytes 4 0)))) ∧
    (∀ nonce : List Byte,
      (s.rd (O.TDI_STATE f) ≠ 1 →
        s.answersOnly (.startInterfaceRequest n f nonce) (tdispMsg 0x7F f (leBytes 4 4 ++ leBytes 4 0))) ∧
      (s.rd (O.TDI_STATE f) = 1 → nonce ≠ nth s.security.tdiNonce f [] →
        s.answersOnly (.startInterfaceRequest n f nonce) (tdispMsg 0x7F f (leBytes 4 0x0102 ++ leBytes 4 0))) ∧
      (s.rd (O.TDI_STATE f) = 1 → nonce = nth s.security.tdiNonce f [] →
        ∃ t, exec (.startInterfaceRequest n f nonce) s = .next t ∧ t.rd (O.TDI_STATE f) = 2 ∧
          nth t.security.tdiNonce f [] = [] ∧ t.out.head? = some (.spdm (tdispMsg 0x06 f [])) ∧
          s.Frame [.delivery, .security] [O.TDI_STATE f] t)) ∧
    ∃ t, exec (.stopInterfaceRequest n f) s = .next t ∧ t.rd (O.TDI_STATE f) = 0 ∧ nth t.security.tdiNonce f [] = [] ∧
      t.out.head? = some (.spdm (tdispMsg 0x07 f [])) ∧ s.Frame [.delivery, .security] [O.TDI_STATE f] t) ∧
  (∀ (s : State) (f : Fin 32), s.alive = true →
    (s.ready 0x20 = true → s.rd (O.TDI_STATE f) = 2 → ∃ t, exec (.tdiRejectedTlp f) s = .next t ∧
      t.rd O.TDI_REJECTED_TLPS = (s.rd O.TDI_REJECTED_TLPS + 1) % 4294967296 ∧ t.out = .pcie 1 [] :: s.out ∧
      s.Frame [.delivery] [O.TDI_REJECTED_TLPS] t) ∧
    (s.rd (O.TDI_STATE f) ≠ 2 → exec (.tdiRejectedTlp f) s = .next s))

/-! ### Integrity and recovery -/

/-- A cause of Table 19.7 for a die (R483-R486): the first two in ten seconds restart the die, a third holds it until the
next release of POR_N. -/
def Sys2Proof.Machine.State.restarts (s t : State) (d cause : Nat) : Prop :=
  let recent := (nth s.integrity.causes d []).filter fun c => decide (s.clock < c + 10000000000)
  (s.rd (O.DIE_STATE d) < 2 → recent.length < 2 → t.rd (O.DIE_STATE d) = 2 ∧ t.rd (O.DIE_LAST_CAUSE d) = cause ∧
    (nth t.integrity.causes d []).length = recent.length + 1 ∧ ∀ u ∈ dieUnits d, t.ready u = false) ∧
  (s.rd (O.DIE_STATE d) < 2 → 2 ≤ recent.length → t.rd (O.DIE_STATE d) = 4 ∧ t.rd (O.DIE_LAST_CAUSE d) = 9 ∧
    ∀ u ∈ dieUnits d, t.held u = true ∧ t.integrity.lost.testBit u = true) ∧
  (2 ≤ s.rd (O.DIE_STATE d) → t.rd (O.DIE_STATE d) = s.rd (O.DIE_STATE d))

/-- FTI_ROUND_BOUNDARY and KAT_RUN (R466, R467, R472-R475): a boundary counts the round, clears invalid output as R467 says,
judges the picture and begins a round with nothing tested; a test that passes marks its unit for the round; a core that
fails invalidates the output of the jobs it worked for, and a second failure takes it out of service; a Rink's failure
restarts its die, the Base engine's second failure holds it and the crypto engines' holds them with every output. -/
def Obligations.RoundsTestEveryUnit : Prop :=
  (∀ s : State, s.sized = true → s.alive = true → s.roundsRun = true →
    let r := s.rd O.KAT_ROUNDS
    let inv := fun w => s.on (O.OUTPUT_INVALID w) && !s.outputClears w r
    let fine := s.pictureCond = 0 ∧ s.pictureTested = true ∧ inv 0 = false
    ∃ t, exec .ftiRoundBoundary s = .next t ∧ t.rd O.KAT_ROUNDS = (r + 1) % 2 ^ 64 ∧
      (∀ w, w < 32 → t.on (O.OUTPUT_INVALID w) = inv w) ∧
      t.integrity.tested = 0 ∧ t.integrity.passed = 0 ∧ t.integrity.roundFti = s.rd O.FTI_MS ∧
      (t.rd O.PICTURE_STATE = 2 ↔ fine ∧ (s.rd O.PICTURE_STATE = 2 ∨ s.integrity.picFailed = 0)) ∧
      (s.rd O.PICTURE_STATE = 2 → ¬ fine → t.rd O.PICTURE_DROPS = (s.rd O.PICTURE_DROPS + 1) % 4294967296) ∧
      s.Frame [.delivery, .integrity] ([O.KAT_ROUNDS, O.PICTURE_STATE, O.PICTURE_DROPS,
        O.PICTURE_LAST_CAUSE] ++ (List.range 32).map O.OUTPUT_INVALID) t) ∧
  (∀ (s : State) (u : Fin 54) (part : Fin 7) (again : Bool), s.sized = true → s.alive = true → s.roundsRun = true →
    katUnit u = true → s.ready u = true → s.unitPowered u = true →
    (s.integrity.tested.testBit u = true → ∀ f l, exec (.katRun u f again part l) s = .next s) ∧
    (s.integrity.tested.testBit u = false →
      (∃ t, exec (.katRun u false again part false) s = .next t ∧ t.integrity.tested.testBit u = true ∧
        t.integrity.passed.testBit u = true ∧ nth t.integrity.lastPass u 0 = s.rd O.KAT_ROUNDS + 1 ∧
        (u.val < 16 → nth t.integrity.claims u [] = [] ∧
          t.rd O.KAT_CYCLES = (s.rd O.KAT_CYCLES + if s.accLive u then 2048 else 1280) % 2 ^ 64) ∧
        (16 ≤ u.val → s.Frame [.integrity] [] t) ∧ s.Frame [.integrity] [O.KAT_CYCLES] t) ∧
      (u.val < 16 → ∃ t, exec (.katRun u false again part true) s = .next t ∧
        t.integrity.passed.testBit u = true ∧
        t.rd O.KAT_LATE = (s.rd O.KAT_LATE + 1) % 4294967296 ∧
        s.recorded t 1 0x0207 1 u 0xFF (s.rd O.KAT_ROUNDS % 2 ^ 32) 0 ∧
        s.Frame [.integrity, .delivery, .marks] ([O.KAT_LATE, O.KAT_CYCLES] ++ errKeys) t) ∧
      (u.val < 16 → nth s.integrity.claims u [] = [] → ∃ t, exec (.katRun u true false part false) s = .next t ∧
        t.integrity.passed.testBit u = true ∧
        t.rd (O.CORE_KAT_FAILS u) = (s.rd (O.CORE_KAT_FAILS u) + 1) % 4294967296 ∧
        s.recorded t 1 0x0206 2 u 0xFF part (s.rd O.KAT_ROUNDS % 2 ^ 32) ∧
        s.Frame [.integrity, .delivery, .marks] ([O.CORE_KAT_FAILS u, O.KAT_CYCLES] ++ errKeys) t) ∧
      (∀ a j, u.val < 16 → a < 64 → nth s.integrity.claims u [] = [(a, j)] →
        ∃ t, exec (.katRun u true again part false) s = .next t ∧ t.rd (O.OUTPUT_INVALID (actTenant a)) = 1 ∧
          (∀ x, s.activity a = some x → s.jobNo x = j → t.activity a = none) ∧
          ((∀ x, s.activity a = some x → s.jobNo x ≠ j) → again = false → t.compute = s.compute)) ∧
      (u.val < 16 → ∃ t, exec (.katRun u true true part false) s = .next t ∧ t.held u = true ∧ t.ready u = false ∧
        t.integrity.lost.testBit u = true ∧ t.rd (O.CORE_LOST_CAUSE u) = 2 ∧
        t.rd (O.CORE_KAT_FAILS u) = (s.rd (O.CORE_KAT_FAILS u) + 2) % 4294967296) ∧
      (16 ≤ u.val → u.val < 20 → ∃ t, exec (.katRun u true again part false) s = .next t ∧
        t.rd (O.RINK_KAT_FAILS (u - 16)) = (s.rd (O.RINK_KAT_FAILS (u - 16)) + 1) % 4294967296 ∧
        s.restarts t ((u - 16) / 2) 1) ∧
      (20 ≤ u.val →
        let k := if u = 0x2A then O.BASE_KAT_FAILS else O.CRYPTO_KAT_FAILS
        (∃ t, exec (.katRun u true false part false) s = .next t ∧ t.integrity.passed.testBit u = true ∧
          t.rd k = (s.rd k + 1) % 4294967296 ∧ s.recorded t 1 0x0206 2 u 0xFF part (s.rd O.KAT_ROUNDS % 2 ^ 32) ∧
          s.Frame [.integrity, .delivery, .marks] (k :: errKeys) t) ∧
        (u = 0x2A → ∃ t, exec (.katRun u true true part false) s = .next t ∧ t.held 0x2A = true ∧
          t.integrity.lost.testBit 0x2A = true ∧ t.rd k = (s.rd k + 2) % 4294967296) ∧
        (u = 0x2D → s.security.tasks = [] → ∃ t, exec (.katRun u true true part false) s = .next t ∧
          t.held 0x2D = true ∧ (∀ w, w < 32 → t.rd (O.OUTPUT_INVALID w) = 1) ∧
          t.rd k = (s.rd k + 2) % 4294967296))))

/-- SCRUB_STEP (R476-R478, Table 19.3): a pass is counted; a corrected error is counted and recorded at most once a second
for its unit; an uncorrectable one is counted and recorded, and does what Table 19.3 says of its place. -/
def Obligations.ScrubFindsErrors : Prop :=
  (∀ (s : State) (ok : Bool) (b : Fin 72), s.alive = true →
    ∃ t, exec (.scrubStep none ok b true) s = .next t ∧
      t.rd O.SCRUB_PASSES = (s.rd O.SCRUB_PASSES + 1) % 4294967296 ∧ s.Frame [] [O.SCRUB_PASSES] t) ∧
  (∀ (s : State) (p : EccPlace) (b : Fin 72), s.alive = true → s.unitPowered (eccUnit p) = true →
    let u := eccUnit p
    let recent := (kvGet u s.integrity.eccRecAt).any fun c => decide (s.clock < c + 1000000000)
    ∃ t, exec (.scrubStep (some p) true b false) s = .next t ∧
      t.rd (O.ECC_CORRECTED u) = (s.rd (O.ECC_CORRECTED u) + 1) % 4294967296 ∧
      (recent = true → s.Frame [] [O.ECC_CORRECTED u] t) ∧
      (recent = false → s.recorded t 1 0x0301 1 u 0xFF (eccAddr p % 2 ^ 32) b ∧
        kvGet u t.integrity.eccRecAt = some s.clock ∧
        s.Frame [.integrity, .delivery, .marks] (O.ECC_CORRECTED u :: errKeys) t)) ∧
  (∀ (s : State) (p : EccPlace) (b : Fin 72), s.sized = true → s.alive = true → s.unitPowered (eccUnit p) = true →
    let u := eccUnit p
    let quiet := [O.ECC_UNCORRECTABLE u] ++ errKeys
    ∃ t, exec (.scrubStep (some p) false b false) s = .next t ∧
      t.rd (O.ECC_UNCORRECTABLE u) = (s.rd (O.ECC_UNCORRECTABLE u) + 1) % 4294967296 ∧
      (∀ c a, p = .coreMem c a → poisonCore c a ∈ t.integrity.poisoned ∧
        (∀ w, w < 32 → (s.core c).holds = some w → t.rd (O.OUTPUT_INVALID w) = 1) ∧
        ((s.core c).holds = none → s.recorded t 1 0x0302 2 u 0xFF (a % 2 ^ 32) 0 ∧
          s.Frame [.integrity, .delivery, .marks] quiet t)) ∧
      (∀ g a, p = .lodge g a → 2 ≤ g.val → s.rd (O.LODGE_SEG_OWNER g) < 32 →
        t.rd (O.OUTPUT_INVALID (s.rd (O.LODGE_SEG_OWNER g))) = 1 ∧
        ∀ at', s.segmentAddr g a = some (s.rd (O.LODGE_SEG_OWNER g), at') →
          poisonTen (s.rd (O.LODGE_SEG_OWNER g)) at' ∈ t.integrity.poisoned) ∧
      (∀ g a, p = .lodge g a → g = 0 → 0x80400 ≤ a → t.rd O.DEVICE_SAFE = 1 ∧ t.rd O.SAFE_CAUSE = 7) ∧
      (∀ g a k, p = .lodge g a → g = 1 → s.imageAt a = some k → nth t.security.images k none = none ∧
        t.rd (O.FW_STATE k) = 0 ∧ t.security.sessions = []) ∧
      (∀ r w a, p = .rinkLine r w a false → s.recorded t 1 0x0302 1 u w (a % 2 ^ 32) 0 ∧
        s.Frame [.delivery, .marks] quiet t) ∧
      (∀ r w a, p = .rinkLine r w a true → t.rd (O.OUTPUT_INVALID w) = 1 ∧ t.activity w = none ∧
        t.activity (w + 32) = none ∧ tkey w a / 8 ∈ (t.rink r).poison) ∧
      (∀ r a, p = .rinkControl r a → s.restarts t (r / 2) 5) ∧
      (∀ a, p = .historyRing a → t.audio.ring.blocks = []) ∧
      (∀ a, p = .baseMem a → t.bmem = [] ∧ t.ready 0x2A = false) ∧
      (∀ a, p = .aonControl a → t.rd O.DEVICE_SAFE = 1 ∧ t.rd O.SAFE_CAUSE = 8) ∧
      (∀ a, p = .patrolStore a → t.rd O.DEVICE_SAFE = 1 ∧ t.rd O.SAFE_CAUSE = 7) ∧
      (∀ n a, p = .traceBuffer n a → ∀ x, kvGet n.val t.security.trace = some x → x = List.replicate 16 0))

/-- RCC_WATCHDOG_EXPIRY, D2D_LINK_FAULT, DIE_RESTART_RESET, SNOWPLOUGH_EXIT and PATROL_WATCHDOG_EXPIRY (R483-R486, R488): an
expired Rink watchdog and a die link's fault are causes 2 and 3 of a die restart; the reset loses the die's contents and
comes after the die has cooled where it must; the die leaves the restart once its units are ready or held; Patrol's
watchdog takes the device to its safe state. -/
def Obligations.DiesRestart : Prop :=
  (∀ (s : State) (r : Fin 4), s.sized = true → s.alive = true →
    (s.ready (0x10 + r) = true → ∃ t, exec (.rccWatchdogExpiry r) s = .next t ∧ s.restarts t (r / 2) 2) ∧
    (s.ready (0x10 + r) = false → exec (.rccWatchdogExpiry r) s = .next s)) ∧
  (∀ (s : State) (d : Fin 2), s.sized = true → s.alive = true →
    (s.dieOn d = true → s.power.bringup = false → ∃ t, exec (.d2dLinkFault d) s = .next t ∧ s.restarts t d 3) ∧
    (s.dieOn d = false → exec (.d2dLinkFault d) s = .next s)) ∧
  (∀ (s : State) (d : Fin 2), s.sized = true → s.alive = true →
    (s.rd (O.DIE_STATE d) = 2 → (s.lim d).waitCool = true → exec (.dieRestartReset d false) s = .next s) ∧
    (s.rd (O.DIE_STATE d) = 2 → (s.lim d).waitCool = false → ∃ t, exec (.dieRestartReset d false) s = .next t ∧
      t.rd (O.DIE_STATE d) = 3 ∧ (t.rd O.PLL_LOCKED).testBit (10 + 2 * d) = false ∧
      (t.rd O.PLL_LOCKED).testBit (11 + 2 * d) = false ∧
      (∀ c a, c / 8 = d.val → a < 2 ^ 21 → kvGet (ckey c a) t.clm = none) ∧
      (∀ c, c / 8 = d.val → t.core c = CoreSt.reset) ∧ (∀ c, c / 8 ≠ d.val → t.core c = s.core c) ∧
      (∀ r, r / 2 = d.val → (t.rink r).dirty = [] ∧ (t.rink r).lines = [] ∧ (t.rink r).poison = []) ∧
      (∀ r, r / 2 ≠ d.val → t.rink r = s.rink r) ∧
      s.Frame [.delivery, .compute, .coreMem, .integrity] [O.PLL_LOCKED, O.DIE_STATE d] t) ∧
    (s.rd (O.DIE_STATE d) ≠ 2 → exec (.dieRestartReset d false) s = .next s) ∧
    (s.rd (O.DIE_STATE d) = 3 → ∃ t, exec (.dieRestartReset d true) s = .next t ∧
      (∀ r, r / 2 = d.val → s.rinkOn r = true → (t.rd O.PLL_LOCKED).testBit (10 + r) = true) ∧
      s.Frame [.delivery] [O.PLL_LOCKED] t) ∧
    (s.rd (O.DIE_STATE d) ≠ 3 → exec (.dieRestartReset d true) s = .next s)) ∧
  (∀ (s : State) (d : Fin 2), s.sized = true → s.alive = true →
    (s.rd (O.DIE_STATE d) ≠ 3 → exec (.snowploughExit d) s = .next s) ∧
    (s.rd (O.DIE_STATE d) = 3 → (∀ u ∈ dieUnits d, s.ready u = true ∨ s.held u = true ∨ s.unitPowered u = false) →
      ∃ t, exec (.snowploughExit d) s = .next t ∧ t.rd (O.DIE_STATE d) = 1 ∧
        t.rd (O.DIE_RESTARTS d) = (s.rd (O.DIE_RESTARTS d) + 1) % 4294967296 ∧
        s.Frame [.delivery, .compute, .integrity] ([O.DIE_STATE d, O.DIE_RESTARTS d, O.PICTURE_STATE, O.PICTURE_DROPS,
          O.PICTURE_LAST_CAUSE] ++ (List.range 32).map O.TEN_RINKS ++
          (List.range 16).map (fun i => O.CTX_INSTRUCTIONS (i / 4) (i % 4))) t)) ∧
  (∀ s : State, s.alive = true → s.unitPowered 0x2C = true →
    ∃ t, exec .patrolWatchdogExpiry s = .next t ∧ t.rd O.DEVICE_SAFE = 1 ∧ t.rd O.SAFE_CAUSE = 7 ∧
      t.pins.faultAsserted = true ∧ t.pins.alive = false ∧ t.compute.acts = [])

/-! ### The whole block -/

/-- A command that may end the device safe state: a device-wide reset (R104, R488). -/
def Sys2Proof.resetRow : Instr → Bool
  | .porNAssert _ => true
  | .aonUndervoltage => true
  | .vddAonRising => true
  | .railExcursion r _ _ => r == 1
  | _ => false

/-- R488, R489: the device safe state holds until a device-wide reset. From every state in it, every step but such a reset
leaves it in force with its cause, and leaves every object but the sideband's error count, every unit, memory, job, key
and session as it was: only the sideband, the balls that it drives or senses, and what reads leave behind may change. -/
def Obligations.SafeStateHoldsUntilReset : Prop :=
  ∀ (s t : State), s.released = true → s.on O.DEVICE_SAFE = true → step s = .next t →
    (∀ c, s.pending.head? = some c → resetRow c = false) →
    t.released = true ∧ t.on O.DEVICE_SAFE = true ∧ t.rd O.SAFE_CAUSE = s.rd O.SAFE_CAUSE ∧
    (s.pending = [] → s.Frame [.clock, .time] [] t) ∧
    (s.pending ≠ [] → t.pending = s.pending.tail ∧
      s.Frame [.queue, .spi, .delivery, .pins, .transfers, .marks, .integrity, .draws] [O.SPI_CRC_ERRORS] t)

/-- Every step from a state whose memories are in canonical form and whose lists have the lengths that the spec's counts
give them (endpoints, functions, queue pairs, cores, Rinks, inputs, tenants and the rest) gives such a state. -/
def Obligations.StepsKeepForm : Prop :=
  ∀ (s t : State), s.memsWf = true → s.sized = true → step s = .next t → t.memsWf = true ∧ t.sized = true
end

