-- ==== Sys2Proof/Laws/Dict.lean ====
section
/-!
SUPPORT. The store of values by key and the object dictionary: reading what was written, and reading past it.
-/

namespace Sys2Proof.Machine

theorem kvGet_cons {α : Type} (k : Nat) (p : Nat × α) (m : List (Nat × α)) :
    kvGet k (p :: m) = if p.1 = k then some p.2 else kvGet k m := by
  by_cases h : p.1 = k <;> simp [kvGet, h]

@[simp] theorem kvGet_nil {α : Type} (k : Nat) : kvGet k ([] : List (Nat × α)) = none := rfl

/-- A value stored is read back. -/
theorem kvGet_kvPut_same {α : Type} (k : Nat) (v : α) (m : List (Nat × α)) : kvGet k (kvPut k v m) = some v := by
  induction m with
  | nil => simp [kvPut, kvGet_cons]
  | cons p rest ih =>
    unfold kvPut
    split
    · simp [kvGet_cons]
    · split
      · simp [kvGet_cons]
      · rename_i h; simp [kvGet_cons, Ne.symm h, ih]

/-- A value stored under one key leaves the others. -/
theorem kvGet_kvPut_ne {α : Type} {j k : Nat} (h : j ≠ k) (v : α) (m : List (Nat × α)) :
    kvGet j (kvPut k v m) = kvGet j m := by
  induction m with
  | nil => simp [kvPut, kvGet_cons, Ne.symm h]
  | cons p rest ih =>
    unfold kvPut
    split
    · simp [kvGet_cons, Ne.symm h]
    · split
      · rename_i hk; simp [kvGet_cons, ← hk, Ne.symm h]
      · simp [kvGet_cons, ih]

/-- A key deleted reads as absent. -/
theorem kvGet_kvDel_same {α : Type} (k : Nat) (m : List (Nat × α)) : kvGet k (kvDel k m) = none := by
  induction m with
  | nil => rfl
  | cons p rest ih =>
    by_cases h : p.1 = k
    · simp only [kvDel] at ih; simp [kvDel, h, ih]
    · simp only [kvDel] at ih; simp [kvDel, h, kvGet_cons, ih]

/-- A key deleted leaves the others. -/
theorem kvGet_kvDel_ne {α : Type} {j k : Nat} (h : j ≠ k) (m : List (Nat × α)) : kvGet j (kvDel k m) = kvGet j m := by
  induction m with
  | nil => rfl
  | cons p rest ih =>
    simp only [kvDel] at ih
    by_cases hp : p.1 = k
    · simp [kvDel, hp, ih, kvGet_cons, Ne.symm h]
    · simp [kvDel, hp, kvGet_cons, ih]

/-! ### Objects -/

/-- An object reads what was put into it. -/
@[simp] theorem State.val_put_same (s : State) (k : Nat) (v : Val) : (s.put k v).val k = v := by
  unfold State.put State.val
  by_cases h : v = dictDefault s.fuses k
  · simp [h, kvGet_kvDel_same]
  · simp [h, kvGet_kvPut_same]

/-- Putting one object leaves the others. -/
theorem State.val_put_ne (s : State) {j k : Nat} (h : j ≠ k) (v : Val) : (s.put k v).val j = s.val j := by
  unfold State.put State.val
  by_cases hv : v = dictDefault s.fuses k
  · simp [hv, kvGet_kvDel_ne h]
  · simp [hv, kvGet_kvPut_ne h]

@[simp] theorem State.rd_put_same (s : State) (k n : Nat) : (s.put k (.n n)).rd k = n := by simp [State.rd]
theorem State.rd_put_ne (s : State) {j k : Nat} (h : j ≠ k) (v : Val) : (s.put k v).rd j = s.rd j := by
  simp [State.rd, State.val_put_ne s h]
@[simp] theorem State.rdB_put_same (s : State) (k : Nat) (b : List Byte) : (s.put k (.b b)).rdB k = b := by
  simp [State.rdB]
theorem State.rdB_put_ne (s : State) {j k : Nat} (h : j ≠ k) (v : Val) : (s.put k v).rdB j = s.rdB j := by
  simp [State.rdB, State.val_put_ne s h]

/-- Objects read by the dictionary and the fuses alone. -/
theorem State.val_congr {s t : State} (hd : t.dict = s.dict) (hf : t.fuses = s.fuses) (k : Nat) : t.val k = s.val k := by
  simp [State.val, hd, hf]
theorem State.rd_congr {s t : State} {k : Nat} (h : t.val k = s.val k) : t.rd k = s.rd k := by simp [State.rd, h]
theorem State.rdB_congr {s t : State} {k : Nat} (h : t.val k = s.val k) : t.rdB k = s.rdB k := by simp [State.rdB, h]

end Sys2Proof.Machine
end

