-- ==== Sys2Proof/Laws/Frame.lean ====
section
/-!
SUPPORT. What the shared operations leave as it was: one frame for each, and the rules by which frames compose.
-/

namespace Sys2Proof.Machine

namespace State.Frame

variable {ps qs : List Part} {ks js : List Nat} {s t u : State}

theorem self (s : State) : s.Frame ps ks s := by
  refine ⟨fun p _ => ?_, fun k _ _ => rfl⟩
  cases p <;> simp [Part.same]

theorem same_trans {p : Part} (h : p.same s t) (h' : p.same t u) : p.same s u := by
  cases p <;> simp_all [Part.same]

theorem comp (h : s.Frame ps ks t) (h' : t.Frame ps ks u) : s.Frame ps ks u :=
  ⟨fun p hp => same_trans (h.1 p hp) (h'.1 p hp), fun k hk hc => (h'.2 k hk hc).trans (h.2 k hk hc)⟩

theorem mono (h : s.Frame ps ks t) (hp : ps ⊆ qs) (hk : ks ⊆ js) : s.Frame qs js t :=
  ⟨fun p hq => h.1 p fun hm => hq (hp hm), fun k hj hc => h.2 k (fun hm => hj (hk hm)) fun hd => hc (hp hd)⟩

/-- Two frames in a row, with everything that either allows. -/
theorem andThen (h : s.Frame ps ks t) (h' : t.Frame qs js u) : s.Frame (ps ++ qs) (ks ++ js) u :=
  (h.mono (by simp) (by simp)).comp (h'.mono (by simp) (by simp))

theorem ite {c : Prop} [Decidable c] (h : c → s.Frame ps ks t) (h' : ¬ c → s.Frame ps ks u) :
    s.Frame ps ks (if c then t else u) := by split <;> simp_all

/-- A fold whose every step keeps a frame keeps it. -/
theorem fold {α : Type} (f : State → α → State) (xs : List α) (s : State)
    (h : ∀ (s : State) (x : α), x ∈ xs → s.Frame ps ks (f s x)) : s.Frame ps ks (xs.foldl f s) := by
  induction xs generalizing s with
  | nil => exact self s
  | cons x xs ih => exact (h s x (by simp)).comp (ih _ fun s y hy => h s y (by simp [hy]))

/-- A frame of one object and its events, within a wider one. -/
theorem one {k : Nat} (h : s.Frame [.delivery] [k] t) (hp : Part.delivery ∈ ps) (hk : k ∈ ks) : s.Frame ps ks t :=
  h.mono (by simpa using hp) (by simpa using hk)

/-- Events alone, within a wider frame. -/
theorem event (h : s.Frame [.delivery] [] t) (hp : Part.delivery ∈ ps) : s.Frame ps ks t :=
  h.mono (by simpa using hp) (by simp)

theorem rd (h : s.Frame ps ks t) {k : Nat} (hk : k ∉ ks) (hc : ¬ carrier k) : t.rd k = s.rd k :=
  rd_congr (h.2 k hk fun _ => hc)

end State.Frame

open State.Frame

/-- Only the objects of 1103 and of the session slots are carriers. -/
theorem not_carrier {k : Nat} (h : keyIdx k ≠ 0x1103) (h' : ¬ (0x1110 ≤ keyIdx k ∧ keyIdx k ≤ 0x111F)) : ¬ carrier k := by
  unfold keyIdx at h h'
  rintro (⟨f, hf, rfl⟩ | ⟨n, hn, rfl⟩)
  · simp only [O.EVENT_DROPS, okey] at h; omega
  · simp only [O.SESSION_TX_COUNTER, okey] at h'; omega

/-! ### Primitive operations -/

theorem State.put_frame (s : State) (k : Nat) (v : Val) : s.Frame [] [k] (s.put k v) := by
  refine ⟨fun p _ => ?_, fun j hj _ => val_put_ne s (by simpa using hj) v⟩
  cases p <;> simp [Part.same, State.put]

theorem State.emitOut_frame (s : State) (o : Out) : s.Frame [.delivery] [] (s.emitOut o) := by
  refine ⟨fun p hp => ?_, fun j _ _ => rfl⟩
  cases p <;> first | (simp at hp; done) | simp [Part.same, State.emitOut]

theorem State.modEp_frame (s : State) (e : Nat) (g : EpState → EpState) : s.Frame [.delivery] [] (s.modEp e g) := by
  refine ⟨fun p hp => ?_, fun j _ _ => rfl⟩
  cases p <;> first | (simp at hp; done) | simp [Part.same, State.modEp]

theorem map_modify_same {α β : Type} (f : α → β) (g : α → α) (h : ∀ x, f (g x) = f x) (xs : List α) (i : Nat) :
    (xs.modify i g).map f = xs.map f := by
  apply List.ext_getElem?
  intro n
  simp only [List.getElem?_map, List.getElem?_modify]
  split
  · subst_vars; cases xs[n]? <;> simp [h]
  · simp

theorem State.modFunc_frame (s : State) (f : Nat) (g : Func → Func) (h : ∀ x, (g x).queues = x.queues) :
    s.Frame [.delivery] [] (s.modFunc f g) := by
  refine ⟨fun p hp => ?_, fun j _ _ => rfl⟩
  cases p <;> first
    | (simp at hp; done)
    | simp [Part.same, State.modFunc, modNth, map_modify_same, h]

theorem State.subs_frame (s : State) (xs : List Sub) : s.Frame [.delivery] [] { s with subs := xs } := by
  refine ⟨fun p hp => ?_, fun j _ _ => rfl⟩
  cases p <;> first | (simp at hp; done) | simp [Part.same]

theorem State.unread_frame (s : State) (n : Nat) : s.Frame [.marks] [] (s.unread n) := by
  refine ⟨fun p hp => ?_, fun j _ _ => rfl⟩
  cases p <;> first | (simp at hp; done) | simp [Part.same, State.unread]

theorem State.noteReady_frame (s : State) (u : Nat) : s.Frame [.marks] [] (s.noteReady u) := by
  refine ⟨fun p hp => ?_, fun j _ _ => rfl⟩
  cases p <;> first | (simp at hp; done) | simp [Part.same, State.noteReady]

theorem State.Frame.errRead {s t : State} {ps : List Part} {ks : List Nat} (h : s.Frame ps ks t) (hp : Part.marks ∈ ps)
    (x : Nat) : s.Frame ps ks { t with errRead := x } := by
  refine ⟨fun p hn => ?_, fun j hj hc => h.2 j hj hc⟩
  have := h.1 p hn
  cases p <;> first | exact absurd hp hn | simpa [Part.same] using this

theorem State.Frame.everReady {s t : State} {ps : List Part} {ks : List Nat} (h : s.Frame ps ks t)
    (hp : Part.marks ∈ ps) (x : Nat) : s.Frame ps ks { t with everReady := x } := by
  refine ⟨fun p hn => ?_, fun j hj hc => h.2 j hj hc⟩
  have := h.1 p hn
  cases p <;> first | exact absurd hp hn | simpa [Part.same] using this

theorem State.Frame.mismatch {s t : State} {ps : List Part} {ks : List Nat} (h : s.Frame ps ks t)
    (hp : Part.mismatch ∈ ps) (x : List Nat) : s.Frame ps ks { t with mismatch := x } := by
  refine ⟨fun p hn => ?_, fun j hj hc => h.2 j hj hc⟩
  have := h.1 p hn
  cases p <;> first | exact absurd hp hn | simpa [Part.same] using this

/-! ### Delivery -/

/-- An operation that only carries events. -/
abbrev State.Carries (s t : State) : Prop := s.Frame [.delivery] [] t

theorem State.put_carrier (s : State) {k : Nat} (v : Val) (h : carrier k) : s.Carries (s.put k v) := by
  refine ⟨fun p _ => (s.put_frame k v).1 p (by simp), fun j _ hc => val_put_ne s ?_ v⟩
  rintro rfl
  exact hc (by simp) h

theorem State.msix_carries (s : State) (f v : Nat) : s.Carries (s.msix f v) := by
  unfold State.msix
  split
  · exact s.emitOut_frame _
  · exact s.modFunc_frame _ _ fun _ => rfl

theorem State.sendUdp_carries (s : State) {n : Nat} (h : n < 16) (port : Nat) (msg : List Byte) :
    s.Carries (s.sendUdp n port msg) :=
  (s.put_carrier _ (.inr ⟨n, h, rfl⟩)).comp (State.emitOut_frame _ _)

theorem State.sendQueued_carries (s : State) {e : Nat} (h : e < 48) (port : Nat) : s.Carries (s.sendQueued e port) := by
  unfold State.sendQueued
  refine comp (s.modEp_frame _ _) (fold _ _ _ fun s x _ => ?_)
  exact s.sendUdp_carries (by omega) _ _

theorem State.fillMbEvent_carries (s : State) (e : Nat) : s.Carries (s.fillMbEvent e) := by
  unfold State.fillMbEvent
  split
  · exact self s
  · rename_i m rest _
    split
    · exact self s
    · refine comp ?_ (State.msix_carries _ _ _)
      refine comp (t := s.modEp e fun x => { x with queue := rest }) (s.modEp_frame e _) ?_
      apply State.modFunc_frame
      intro
      rfl

theorem State.pump_carries (s : State) (e : Nat) : s.Carries (s.pump e) := by
  unfold State.pump
  split
  · exact s.fillMbEvent_carries e
  · split
    · split
      · split
        · exact s.sendQueued_carries (by omega) _
        · exact self s
      · exact self s
    · exact self s

theorem State.queueEvent_carries (s : State) (e k : Nat) (info : EvInfo) : s.Carries (s.queueEvent e k info) := by
  unfold State.queueEvent
  simp only
  split
  · split
    · rename_i h
      exact (s.modEp_frame _ _).comp (State.put_carrier _ _ (.inl ⟨e, h, rfl⟩))
    · exact s.modEp_frame _ _
  · exact (s.modEp_frame _ _).comp (State.pump_carries _ _)

theorem State.notify_carries (s : State) (i : Nat) (info : EvInfo) : s.Carries (s.notify i info) := by
  unfold State.notify
  split
  · exact self s
  · simp only
    split
    · exact s.queueEvent_carries _ _ _
    · split
      · exact (s.subs_frame _).comp (State.queueEvent_carries _ _ _ _)
      · split
        · exact s.subs_frame _
        · split
          · exact ((s.queueEvent_carries _ _ _).comp (State.subs_frame _ _)).comp (State.queueEvent_carries _ _ _ _)
          · exact (s.subs_frame _).comp (State.queueEvent_carries _ _ _ _)

/-- An event changes what carries it, and nothing else. -/
theorem State.event_carries (s : State) (k code unit flags : Nat) : s.Carries (s.event k code unit flags) := by
  unfold State.event
  simp only
  refine fold _ _ _ fun s i _ => ?_
  split
  · exact s.notify_carries _ _
  · exact self s

/-! ### Objects that raise events -/

/-- Setting an object changes it, and carries the event. -/
theorem State.setEv_frame (s : State) (k v code unit flags : Nat) :
    s.Frame [.delivery] [k] (s.setEv k v code unit flags) := by
  unfold State.setEv
  simp only
  generalize (if keyTy k = .time96 then v else v % 2 ^ keyBits k) = w
  have h : s.Frame [.delivery] [k] (s.put k (.n w)) := (s.put_frame k _).mono (by simp) (by simp)
  split
  · exact self s
  · split
    · split
      · exact h.comp ((State.event_carries _ _ _ _ _).mono (by simp) (by simp))
      · exact h
    · exact h

/-- What an object holds after it is set. -/
theorem State.rd_setEv (s : State) {k : Nat} (hc : ¬ carrier k) (v code unit flags : Nat) :
    (s.setEv k v code unit flags).rd k = if keyTy k = .time96 then v else v % 2 ^ keyBits k := by
  unfold State.setEv
  simp only
  generalize (if keyTy k = .time96 then v else v % 2 ^ keyBits k) = w
  split
  · assumption
  · split
    · split
      · exact ((State.event_carries _ _ _ _ _).rd (by simp) hc).trans (s.rd_put_same k w)
      · simp
    · simp

theorem State.wr_frame (s : State) (k v : Nat) : s.Frame [.delivery] [k] (s.wr k v) := s.setEv_frame _ _ _ _ _

theorem State.rd_wr (s : State) {k : Nat} (hc : ¬ carrier k) (v : Nat) :
    (s.wr k v).rd k = if keyTy k = .time96 then v else v % 2 ^ keyBits k := s.rd_setEv hc _ _ _ _

theorem State.addTo_frame (s : State) (k n : Nat) : s.Frame [.delivery] [k] (s.addTo k n) := s.wr_frame _ _
theorem State.inc_frame (s : State) (k : Nat) : s.Frame [.delivery] [k] (s.inc k) := s.wr_frame _ _
theorem State.incSat_frame (s : State) (k : Nat) : s.Frame [.delivery] [k] (s.incSat k) := by
  unfold State.incSat
  split
  · exact s.inc_frame k
  · exact self s

/-- An error record changes the log and its counters. -/
theorem State.err_frame (s : State) (code sev unit tenant d0 d1 : Nat) :
    s.Frame [.delivery, .marks]
      ([O.ERRLOG_WRITTEN, O.ERRLOG_OVERWRITTEN] ++ (List.range 64).map O.ERRLOG_RECORD)
      (s.err code sev unit tenant d0 d1) := by
  unfold State.err
  simp only
  have slot : ∀ n : Nat, O.ERRLOG_RECORD ((n + 63) % 64) ∈ (List.range 64).map O.ERRLOG_RECORD := fun n =>
    List.mem_map.mpr ⟨_, List.mem_range.mpr (Nat.mod_lt _ (by omega)), rfl⟩
  refine comp ?_ ((State.setEv_frame _ O.ERRLOG_WRITTEN _ _ _ _).one (by simp) (by simp))
  refine comp ?_ ((State.unread_frame _ _).mono (by simp) (by simp))
  refine comp ?_ ((State.put_frame _ _ _).mono (by simp) ?_)
  · exact ite (fun _ => (s.inc_frame O.ERRLOG_OVERWRITTEN).one (by simp) (by simp)) fun _ => self s
  · intro k hk
    simp only [List.mem_singleton] at hk
    subst hk
    exact List.mem_append.mpr (.inr (slot _))

/-! ### Readiness -/

theorem State.flushPba_carries (s : State) : s.Carries s.flushPba := by
  unfold State.flushPba
  split
  · refine fold _ _ _ fun s f _ => fold _ _ _ fun s v _ => comp ?_ (State.emitOut_frame _ _)
    exact s.modFunc_frame _ _ fun _ => rfl
  · exact self s

theorem State.pollStatus_carries (s : State) : s.Carries s.pollStatus := by
  unfold State.pollStatus
  refine fold _ _ _ fun s f _ => ?_
  simp only
  split
  · exact self s
  · refine comp ?_ (State.msix_carries _ _ _)
    exact s.modFunc_frame _ _ fun _ => rfl

theorem State.pollRcc_frame (s : State) : s.Frame [.delivery] ((List.range 4).map O.RCC_STATE) s.pollRcc := by
  unfold State.pollRcc
  exact fold _ _ _ fun s r hr => (s.wr_frame _ _).mono (by simp) (by
    intro k hk; simp only [List.mem_singleton] at hk; subst hk; exact List.mem_map.mpr ⟨r, hr, rfl⟩)

theorem State.readyFollow_frame (s : State) (u : Nat) :
    s.Frame [.delivery] ((List.range 4).map O.RCC_STATE) (s.readyFollow u) := by
  unfold State.readyFollow
  split
  · exact ((s.flushPba_carries).comp (State.pollStatus_carries _)).mono (by simp) (by simp)
  · split
    · exact s.pollRcc_frame
    · exact self s

/-- READY changes with READY_CHANGED and the control cores' states. -/
theorem State.setReady_frame (s : State) (u : Nat) (b : Bool) (code : Nat) :
    s.Frame [.delivery, .marks] ([O.READY, O.READY_CHANGED] ++ (List.range 4).map O.RCC_STATE) (s.setReady u b code) := by
  unfold State.setReady
  simp only
  split
  · exact self s
  · refine comp ?_ ((State.readyFollow_frame _ _).mono (by simp) fun k hk => List.mem_append.mpr (.inr hk))
    have h := comp ((s.wr_frame O.READY_CHANGED s.timeNow).one (ps := [.delivery, .marks])
      (ks := [O.READY, O.READY_CHANGED] ++ (List.range 4).map O.RCC_STATE) (by simp) (by simp))
      ((State.setEv_frame _ O.READY (putBit (s.rd O.READY) u b) code u 0).one (by simp) (by simp))
    refine h.comp ?_
    exact ite (fun _ => (State.noteReady_frame _ _).mono (by simp) (by simp)) fun _ => self _

theorem State.setHeld_frame (s : State) (u : Nat) (b : Bool) (code : Nat) :
    s.Frame [.delivery] ([O.HELD, O.READY_CHANGED] ++ (List.range 4).map O.RCC_STATE) (s.setHeld u b code) := by
  unfold State.setHeld
  simp only
  split
  · exact self s
  · refine comp ?_ ((State.readyFollow_frame _ _).mono (by simp) fun k hk => List.mem_append.mpr (.inr hk))
    refine comp ?_ ((State.setEv_frame _ O.HELD _ _ _ _).one (by simp) (by simp))
    exact (s.wr_frame O.READY_CHANGED _).one (by simp) (by simp)

theorem State.hold_frame (s : State) (u code : Nat) :
    s.Frame [.delivery, .marks] ([O.READY, O.HELD, O.READY_CHANGED] ++ (List.range 4).map O.RCC_STATE) (s.hold u code) := by
  refine comp ((s.setReady_frame u false code).mono (fun p hp => hp) ?_)
    ((State.setHeld_frame _ _ _ _).mono (by simp) ?_) <;>
  · intro k hk
    simp only [List.mem_append, List.mem_cons] at hk ⊢
    rcases hk with (h | h | h) | h <;> simp [h]

/-- Raising MISMATCH changes the mark, and carries an event. -/
theorem State.setMismatch_frame (s : State) (k : Nat) (b : Bool) :
    s.Frame [.delivery, .mismatch] [] (s.setMismatch k b) := by
  have h : s.Frame [.delivery, .mismatch] [] { s with mismatch := setMem k b s.mismatch } :=
    (self s).mismatch (by simp) _
  unfold State.setMismatch
  simp only
  split
  · exact h.comp ((State.event_carries _ _ _ _ _).mono (by simp) (by simp))
  · exact h

end Sys2Proof.Machine
end

