-- ==== Sys2Proof/Laws/Memory.lean ====
section
/-!
SUPPORT. Memories: their canonical form, which every memory operation keeps, and reading after a write.
-/

namespace Sys2Proof.Machine

/-! ### Canonical form -/

theorem rising_iff (xs : List Nat) : rising xs = true ↔ xs.Pairwise (· < ·) := by
  induction xs with
  | nil => simp [rising]
  | cons a xs ih =>
    cases xs with
    | nil => simp [rising]
    | cons b rest =>
      simp only [rising, Bool.and_eq_true, decide_eq_true_eq, ih]
      refine ⟨fun ⟨hab, h⟩ => List.pairwise_cons.mpr ⟨fun c hc => ?_, h⟩, fun h => ?_⟩
      · rcases List.mem_cons.mp hc with rfl | hc
        · exact hab
        · exact Nat.lt_trans hab ((List.pairwise_cons.mp h).1 c hc)
      · exact ⟨(List.pairwise_cons.mp h).1 b (by simp), (List.pairwise_cons.mp h).2⟩

theorem memWf_iff (d : Option Byte) (m : List Host.Cell) :
    memWf d m = true ↔ m.Pairwise (fun p q => p.1 < q.1) ∧ ∀ p ∈ m, d ≠ some p.2 := by
  simp [memWf, kvWf, rising_iff, List.pairwise_map]

/-- Fewer entries. -/
theorem memWf_filter {d : Option Byte} {m : List Host.Cell} (f : Host.Cell → Bool) (h : memWf d m = true) :
    memWf d (m.filter f) = true := by
  rw [memWf_iff] at h ⊢
  exact ⟨h.1.filter f, fun p hp => h.2 p (List.mem_filter.mp hp).1⟩

theorem memWf_kvDel {d : Option Byte} {m : List Host.Cell} (k : Nat) (h : memWf d m = true) :
    memWf d (kvDel k m) = true := memWf_filter _ h

theorem mem_kvPut {α : Type} {k : Nat} {v : α} {m : List (Nat × α)} {p : Nat × α} (h : p ∈ kvPut k v m) :
    p = (k, v) ∨ p ∈ m := by
  induction m with
  | nil => simpa [kvPut] using h
  | cons q rest ih =>
    unfold kvPut at h
    split at h
    · simpa using h
    · split at h
      · rcases List.mem_cons.mp h with h | h <;> simp [h]
      · rcases List.mem_cons.mp h with h | h
        · simp [h]
        · rcases ih h with h | h <;> simp [h]

theorem memWf_kvPut {d : Option Byte} {m : List Host.Cell} (k : Nat) {v : Byte} (hv : d ≠ some v)
    (h : memWf d m = true) : memWf d (kvPut k v m) = true := by
  rw [memWf_iff] at h ⊢
  refine ⟨?_, fun p hp => (mem_kvPut hp).elim (fun e => by simpa [e] using hv) (h.2 p)⟩
  have hs := h.1
  clear h
  induction m with
  | nil => simp [kvPut]
  | cons q rest ih =>
    have hr := (List.pairwise_cons.mp hs)
    unfold kvPut
    split
    · refine List.pairwise_cons.mpr ⟨fun p hp => ?_, hs⟩
      rcases List.mem_cons.mp hp with rfl | hp
      · assumption
      · exact Nat.lt_trans ‹_› (hr.1 p hp)
    · split
      · rename_i e
        exact List.pairwise_cons.mpr ⟨fun p hp => by simpa [e] using hr.1 p hp, hr.2⟩
      · refine List.pairwise_cons.mpr ⟨fun p hp => ?_, ih hr.2⟩
        rcases mem_kvPut hp with rfl | hp
        · simp only; omega
        · exact hr.1 p hp

theorem memWf_memPut {d : Option Byte} {m : List Host.Cell} (a : Nat) (b : Byte) (h : memWf d m = true) :
    memWf d (memPut d a b m) = true := by
  unfold memPut
  split
  · exact memWf_kvDel a h
  · exact memWf_kvPut a (by assumption) h

/-- A range replaced by entries of its own. -/
theorem memWf_kvSplice {d : Option Byte} {lo hi : Nat} {cells m : List Host.Cell} (hle : lo ≤ hi)
    (hc : memWf d cells = true) (hin : ∀ p ∈ cells, lo ≤ p.1 ∧ p.1 < hi) (h : memWf d m = true) :
    memWf d (kvSplice lo hi cells m) = true := by
  rw [memWf_iff] at h hc ⊢
  unfold kvSplice
  refine ⟨?_, fun p hp => ?_⟩
  · refine List.pairwise_append.mpr ⟨List.pairwise_append.mpr ⟨h.1.filter _, hc.1, fun p hp q hq => ?_⟩, h.1.filter _,
      fun p hp q hq => ?_⟩
    · have := (List.mem_filter.mp hp).2
      have := hin q hq
      simp only [decide_eq_true_eq] at *; omega
    · have hq' := (List.mem_filter.mp hq).2
      simp only [decide_eq_true_eq] at hq'
      rcases List.mem_append.mp hp with hp | hp
      · have := (List.mem_filter.mp hp).2
        simp only [decide_eq_true_eq] at this; omega
      · have := hin p hp; omega
  · rcases List.mem_append.mp hp with hp | hp
    · rcases List.mem_append.mp hp with hp | hp
      · exact h.2 p (List.mem_filter.mp hp).1
      · exact hc.2 p hp
    · exact h.2 p (List.mem_filter.mp hp).1

/-- The cells that consecutive bytes take. -/
theorem writeCells_pairwise (a : Nat) (bs : List Byte) :
    (bs.mapIdx fun i b => ((a + i, b) : Host.Cell)).Pairwise (fun p q => p.1 < q.1) := by
  rw [List.pairwise_iff_getElem]
  intro i j hi hj hij
  simp only [List.getElem_mapIdx]
  omega

theorem memWf_memWrite {d : Option Byte} {m : List Host.Cell} (a : Nat) (bs : List Byte) (h : memWf d m = true) :
    memWf d (memWrite d a bs m) = true := by
  refine memWf_kvSplice (by omega) ?_ (fun p hp => ?_) h
  · rw [memWf_iff]
    exact ⟨(writeCells_pairwise a bs).filter _, fun p hp => by simpa using (List.mem_filter.mp hp).2⟩
  · obtain ⟨i, hi, rfl⟩ := List.mem_mapIdx.mp (List.mem_filter.mp hp).1
    exact ⟨by simp, by simp only; omega⟩

/-! ### The operations keep it -/

theorem State.memsWf_iff (s : State) : s.memsWf = true ↔
    memWf none s.tmem = true ∧ memWf (some 0) s.clm = true ∧ memWf (some 0) s.bmem = true ∧ memWf none s.hmem = true := by
  simp [State.memsWf, and_assoc]

/-- A state with the same memories. -/
theorem State.memsWf_congr {s t : State} (h1 : t.tmem = s.tmem) (h2 : t.clm = s.clm) (h3 : t.bmem = s.bmem)
    (h4 : t.hmem = s.hmem) : t.memsWf = s.memsWf := by simp [State.memsWf, h1, h2, h3, h4]

/-- A frame without the memories keeps their form. -/
theorem State.Frame.memsWf {s t : State} {ps : List Part} {ks : List Nat} (h : s.Frame ps ks t)
    (hp : ∀ p ∈ [Part.tenantMem, Part.coreMem, Part.baseMem, Part.hostMem], p ∉ ps) : t.memsWf = s.memsWf :=
  State.memsWf_congr (h.1 .tenantMem (hp _ (by simp))) (h.1 .coreMem (hp _ (by simp))) (h.1 .baseMem (hp _ (by simp)))
    (h.1 .hostMem (hp _ (by simp)))

@[simp] theorem State.unpoison_tmem (s : State) (lo hi : Nat) : (s.unpoison lo hi).tmem = s.tmem := by
  unfold State.unpoison; split <;> rfl
@[simp] theorem State.unpoison_clm (s : State) (lo hi : Nat) : (s.unpoison lo hi).clm = s.clm := by
  unfold State.unpoison; split <;> rfl
@[simp] theorem State.unpoison_bmem (s : State) (lo hi : Nat) : (s.unpoison lo hi).bmem = s.bmem := by
  unfold State.unpoison; split <;> rfl
@[simp] theorem State.unpoison_hmem (s : State) (lo hi : Nat) : (s.unpoison lo hi).hmem = s.hmem := by
  unfold State.unpoison; split <;> rfl

/-- Rewriting words changes nothing but their poison marks. -/
theorem State.unpoison_frame (s : State) (lo hi : Nat) : s.Frame [.integrity] [] (s.unpoison lo hi) := by
  unfold State.unpoison
  split
  · exact State.Frame.self s
  · refine ⟨fun p hp => ?_, fun j _ _ => rfl⟩
    cases p <;> first | (simp at hp; done) | simp [Part.same]

theorem State.tput_tmem (s : State) (t a : Nat) (bs : List Byte) :
    (s.tput t a bs).tmem = memWrite none (tkey t a) bs s.tmem := by
  unfold State.tput; simp only; split <;> simp
theorem State.cput_clm (s : State) (c a : Nat) (bs : List Byte) :
    (s.cput c a bs).clm = memWrite (some 0) (ckey c a) bs s.clm := by
  unfold State.cput; simp only; split <;> simp

/-- A store to tenant memory changes that memory, and rewrites poisoned words. -/
theorem State.tput_frame (s : State) (t a : Nat) (bs : List Byte) : s.Frame [.integrity, .tenantMem] [] (s.tput t a bs) := by
  unfold State.tput
  simp only
  refine State.Frame.comp (t := if bs = [] then s else s.unpoison (poisonTen t a) (poisonTen t (a + bs.length - 1))) ?_ ?_
  · exact State.Frame.ite (fun _ => State.Frame.self s) fun _ => (s.unpoison_frame _ _).mono (by simp) (by simp)
  · refine ⟨fun p hp => ?_, fun j _ _ => rfl⟩
    cases p <;> first | (simp at hp; done) | simp [Part.same]

/-- A store to core-local memory changes that memory, and rewrites poisoned words. -/
theorem State.cput_frame (s : State) (c a : Nat) (bs : List Byte) : s.Frame [.integrity, .coreMem] [] (s.cput c a bs) := by
  unfold State.cput
  simp only
  refine State.Frame.comp (t := if bs = [] then s else s.unpoison (poisonCore c a) (poisonCore c (a + bs.length - 1))) ?_ ?_
  · exact State.Frame.ite (fun _ => State.Frame.self s) fun _ => (s.unpoison_frame _ _).mono (by simp) (by simp)
  · refine ⟨fun p hp => ?_, fun j _ _ => rfl⟩
    cases p <;> first | (simp at hp; done) | simp [Part.same]

theorem State.bput_frame (s : State) (a : Nat) (bs : List Byte) : s.Frame [.baseMem] [] (s.bput a bs) := by
  refine ⟨fun p hp => ?_, fun j _ _ => rfl⟩
  cases p <;> first | (simp at hp; done) | simp [Part.same, State.bput]

theorem State.hput_frame (s : State) (f a : Nat) (bs : List Byte) : s.Frame [.hostMem] [] (s.hput f a bs) := by
  refine ⟨fun p hp => ?_, fun j _ _ => rfl⟩
  cases p <;> first | (simp at hp; done) | simp [Part.same, State.hput]

theorem State.cclear_frame (s : State) (c lo hi : Nat) : s.Frame [.integrity, .coreMem] [] (s.cclear c lo hi) := by
  unfold State.cclear
  simp only
  refine State.Frame.comp ((s.unpoison_frame (poisonCore c lo) (poisonCore c hi - 1)).mono (by simp) (by simp)) ?_
  refine ⟨fun p hp => ?_, fun j _ _ => rfl⟩
  cases p <;> first | (simp at hp; done) | simp [Part.same]

theorem State.tlose_frame (s : State) (t lo hi : Nat) :
    s.Frame [.integrity, .tenantMem, .compute, .draws] [] (s.tlose t lo hi) := by
  unfold State.tlose
  simp only
  refine State.Frame.comp ((s.unpoison_frame (poisonTen t lo) (poisonTen t hi - 1)).mono (by simp) (by simp)) ?_
  refine ⟨fun p hp => ?_, fun j _ _ => rfl⟩
  cases p <;> first | (simp at hp; done) | simp [Part.same]

theorem State.tloseChannels_frame (s : State) (t : Nat) (lost : List Nat) :
    s.Frame [.integrity, .tenantMem, .compute, .draws] [] (s.tloseChannels t lost) := by
  refine ⟨fun p hp => ?_, fun j _ _ => rfl⟩
  cases p <;> first | (simp at hp; done) | simp [Part.same, State.tloseChannels]

theorem State.tput_memsWf {s : State} (t a : Nat) (bs : List Byte) (h : s.memsWf = true) :
    (s.tput t a bs).memsWf = true := by
  rw [State.memsWf_iff] at h ⊢
  have f := (s.tput_frame t a bs).1
  rw [s.tput_tmem, show (s.tput t a bs).clm = s.clm from f .coreMem (by simp),
    show (s.tput t a bs).bmem = s.bmem from f .baseMem (by simp), show (s.tput t a bs).hmem = s.hmem from f .hostMem (by simp)]
  exact ⟨memWf_memWrite _ _ h.1, h.2⟩

theorem State.cput_memsWf {s : State} (c a : Nat) (bs : List Byte) (h : s.memsWf = true) :
    (s.cput c a bs).memsWf = true := by
  rw [State.memsWf_iff] at h ⊢
  have f := (s.cput_frame c a bs).1
  rw [s.cput_clm, show (s.cput c a bs).tmem = s.tmem from f .tenantMem (by simp),
    show (s.cput c a bs).bmem = s.bmem from f .baseMem (by simp), show (s.cput c a bs).hmem = s.hmem from f .hostMem (by simp)]
  exact ⟨h.1, memWf_memWrite _ _ h.2.1, h.2.2⟩

theorem State.bput_memsWf {s : State} (a : Nat) (bs : List Byte) (h : s.memsWf = true) : (s.bput a bs).memsWf = true := by
  rw [State.memsWf_iff] at h ⊢
  exact ⟨h.1, h.2.1, memWf_memWrite _ _ h.2.2.1, h.2.2.2⟩

theorem State.hput_memsWf {s : State} (f a : Nat) (bs : List Byte) (h : s.memsWf = true) :
    (s.hput f a bs).memsWf = true := by
  rw [State.memsWf_iff] at h ⊢
  exact ⟨h.1, h.2.1, h.2.2.1, memWf_memWrite _ _ h.2.2.2⟩

theorem State.cclear_memsWf {s : State} (c : Nat) {lo hi : Nat} (hle : lo ≤ hi) (h : s.memsWf = true) :
    (s.cclear c lo hi).memsWf = true := by
  rw [State.memsWf_iff] at h ⊢
  have f := (s.cclear_frame c lo hi).1
  rw [show (s.cclear c lo hi).tmem = s.tmem from f .tenantMem (by simp),
    show (s.cclear c lo hi).bmem = s.bmem from f .baseMem (by simp),
    show (s.cclear c lo hi).hmem = s.hmem from f .hostMem (by simp),
    show (s.cclear c lo hi).clm = kvSplice (ckey c lo) (ckey c hi) [] s.clm by simp [State.cclear]]
  exact ⟨h.1, memWf_kvSplice (by unfold ckey; omega) (by simp [memWf, kvWf, rising]) (by simp) h.2.1, h.2.2⟩

theorem State.tlose_memsWf {s : State} (t lo hi : Nat) (h : s.memsWf = true) : (s.tlose t lo hi).memsWf = true := by
  rw [State.memsWf_iff] at h ⊢
  have f := (s.tlose_frame t lo hi).1
  rw [show (s.tlose t lo hi).clm = s.clm from f .coreMem (by simp),
    show (s.tlose t lo hi).bmem = s.bmem from f .baseMem (by simp),
    show (s.tlose t lo hi).hmem = s.hmem from f .hostMem (by simp)]
  exact ⟨by simpa [State.tlose] using memWf_filter _ h.1, h.2⟩

theorem State.tloseChannels_memsWf {s : State} (t : Nat) (lost : List Nat) (h : s.memsWf = true) :
    (s.tloseChannels t lost).memsWf = true := by
  rw [State.memsWf_iff] at h ⊢
  exact ⟨memWf_filter _ h.1, h.2⟩

/-! ### Reading after a write -/

theorem kvGet_append {α : Type} (k : Nat) (xs ys : List (Nat × α)) :
    kvGet k (xs ++ ys) = (kvGet k xs).or (kvGet k ys) := by
  simp only [kvGet, List.find?_append]
  cases List.find? _ xs <;> simp

/-- A key that a filter keeps, and one that it drops. -/
theorem kvGet_filter_keep {α : Type} {k : Nat} {f : Nat × α → Bool} (h : ∀ v, f (k, v) = true) (m : List (Nat × α)) :
    kvGet k (m.filter f) = kvGet k m := by
  induction m with
  | nil => rfl
  | cons p rest ih =>
    by_cases hk : p.1 = k
    · have : f p = true := by rw [show p = (k, p.2) by rw [← hk]]; exact h _
      simp [this, kvGet_cons, hk]
    · by_cases hf : f p = true <;> simp [hf, kvGet_cons, hk, ih]

theorem kvGet_filter_drop {α : Type} {k : Nat} {f : Nat × α → Bool} (h : ∀ v, f (k, v) = false) (m : List (Nat × α)) :
    kvGet k (m.filter f) = none := by
  induction m with
  | nil => rfl
  | cons p rest ih =>
    by_cases hk : p.1 = k
    · have : f p = false := by rw [show p = (k, p.2) by rw [← hk]]; exact h _
      simp [this, ih]
    · by_cases hf : f p = true <;> simp [hf, kvGet_cons, hk, ih]

/-- A byte written, read from the entries of its write. -/
theorem kvGet_writeCells (d : Option Byte) (a j : Nat) (bs : List Byte) :
    kvGet j ((bs.mapIdx fun i b => ((a + i, b) : Host.Cell)).filter fun p => d != some p.2) =
      if a ≤ j then (bs[j - a]?).bind fun b => if d = some b then none else some b else none := by
  induction bs generalizing a with
  | nil => simp
  | cons b rest ih =>
    rw [List.mapIdx_cons]
    have hs : (rest.mapIdx fun i c => ((a + (i + 1), c) : Host.Cell)) = rest.mapIdx fun i c => ((a + 1 + i, c) : Host.Cell) := by
      congr 1; funext i c; simp; omega
    rw [hs]
    by_cases hb : d = some b
    · have : (d != some b) = false := by simp [hb]
      rw [List.filter_cons, if_neg (by simp [this]), ih]
      by_cases haj : a = j
      · subst haj; simp [hb] <;> omega
      · by_cases h : a ≤ j
        · have : j - a = (j - (a + 1)) + 1 := by omega
          rw [if_pos h, if_pos (by omega), this, List.getElem?_cons_succ]
        · rw [if_neg h, if_neg (by omega)]
    · have : (d != some b) = true := by simpa using hb
      rw [List.filter_cons, if_pos (by simpa using this), kvGet_cons, ih]
      by_cases haj : a = j
      · subst haj; simp [hb]
      · rw [if_neg (by simpa using haj)]
        by_cases h : a ≤ j
        · have : j - a = (j - (a + 1)) + 1 := by omega
          rw [if_pos h, if_pos (by omega), this, List.getElem?_cons_succ]
        · rw [if_neg h, if_neg (by omega)]

/-- Every byte of a memory after a write of consecutive bytes: those written, and else what stood there. -/
theorem kvGet_memWrite (d : Option Byte) (a j : Nat) (bs : List Byte) (m : List Host.Cell) :
    kvGet j (memWrite d a bs m) =
      if a ≤ j ∧ j < a + bs.length then (bs[j - a]?).bind fun b => if d = some b then none else some b
      else kvGet j m := by
  unfold memWrite kvSplice
  rw [kvGet_append, kvGet_append, kvGet_writeCells]
  by_cases h1 : j < a
  · rw [kvGet_filter_keep (by simpa using h1), if_neg (by omega), if_neg (by omega),
      kvGet_filter_drop (f := fun p => decide (a + bs.length ≤ p.1)) (by simp; omega)]
    simp
  · rw [kvGet_filter_drop (f := fun p => decide (p.1 < a)) (by simpa using Nat.le_of_not_lt h1), if_pos (by omega)]
    by_cases h2 : j < a + bs.length
    · rw [if_pos ⟨by omega, h2⟩, kvGet_filter_drop (by simpa using h2)]
      simp
    · rw [if_neg (by omega), kvGet_filter_keep (f := fun p => decide (a + bs.length ≤ p.1)) (by simp; omega),
        List.getElem?_eq_none (by omega)]
      simp

/-- Core-local memory reads what was stored. -/
theorem State.cbyte_cput (s : State) (c a b : Nat) (bs : List Byte) :
    (s.cput c a bs).cbyte c b = if a ≤ b ∧ b < a + bs.length then bs.getD (b - a) 0 else s.cbyte c b := by
  unfold State.cbyte
  rw [s.cput_clm, kvGet_memWrite]
  have e : ckey c a ≤ ckey c b ∧ ckey c b < ckey c a + bs.length ↔ a ≤ b ∧ b < a + bs.length := by unfold ckey; omega
  have e' : ckey c b - ckey c a = b - a := by unfold ckey; omega
  simp only [e, e']
  split
  · rename_i h
    rw [List.getD_eq_getElem?_getD, List.getElem?_eq_getElem (by omega)]
    simp only [Option.bind_some]
    split
    · rename_i hz; simpa using hz
    · simp
  · rfl

/-- Base engine memory reads what was stored. -/
theorem State.bbyte_bput (s : State) (a b : Nat) (bs : List Byte) :
    (s.bput a bs).bbyte b = if a ≤ b ∧ b < a + bs.length then bs.getD (b - a) 0 else s.bbyte b := by
  unfold State.bbyte State.bput
  simp only
  rw [kvGet_memWrite]
  split
  · rename_i h
    rw [List.getD_eq_getElem?_getD, List.getElem?_eq_getElem (by omega)]
    simp only [Option.bind_some]
    split
    · rename_i hz; simpa using hz
    · simp
  · rfl

end Sys2Proof.Machine
end

