-- ==== Sys2Proof/Laws/State.lean ====
section
/-!
SUPPORT. The updates that name one component of the state leave every other component, and the objects, as they were:
one lemma for each update and component.
-/

namespace Sys2Proof.Machine.State

variable (s : State)

/-! ### put -/

@[simp] theorem put_pending (k : Nat) (v : Val) : (s.put k v).pending = s.pending := rfl
@[simp] theorem put_clock (k : Nat) (v : Val) : (s.put k v).clock = s.clock := rfl
@[simp] theorem put_porAt (k : Nat) (v : Val) : (s.put k v).porAt = s.porAt := rfl
@[simp] theorem put_fuses (k : Nat) (v : Val) : (s.put k v).fuses = s.fuses := rfl
@[simp] theorem put_pins (k : Nat) (v : Val) : (s.put k v).pins = s.pins := rfl
@[simp] theorem put_eps (k : Nat) (v : Val) : (s.put k v).eps = s.eps := rfl
@[simp] theorem put_subs (k : Nat) (v : Val) : (s.put k v).subs = s.subs := rfl
@[simp] theorem put_sessions (k : Nat) (v : Val) : (s.put k v).sessions = s.sessions := rfl
@[simp] theorem put_blocks (k : Nat) (v : Val) : (s.put k v).blocks = s.blocks := rfl
@[simp] theorem put_snaps (k : Nat) (v : Val) : (s.put k v).snaps = s.snaps := rfl
@[simp] theorem put_spi (k : Nat) (v : Val) : (s.put k v).spi = s.spi := rfl
@[simp] theorem put_mismatch (k : Nat) (v : Val) : (s.put k v).mismatch = s.mismatch := rfl
@[simp] theorem put_written (k : Nat) (v : Val) : (s.put k v).written = s.written := rfl
@[simp] theorem put_errRead (k : Nat) (v : Val) : (s.put k v).errRead = s.errRead := rfl
@[simp] theorem put_everReady (k : Nat) (v : Val) : (s.put k v).everReady = s.everReady := rfl
@[simp] theorem put_power (k : Nat) (v : Val) : (s.put k v).power = s.power := rfl
@[simp] theorem put_base (k : Nat) (v : Val) : (s.put k v).base = s.base := rfl
@[simp] theorem put_dies (k : Nat) (v : Val) : (s.put k v).dies = s.dies := rfl
@[simp] theorem put_audio (k : Nat) (v : Val) : (s.put k v).audio = s.audio := rfl
@[simp] theorem put_camera (k : Nat) (v : Val) : (s.put k v).camera = s.camera := rfl
@[simp] theorem put_time (k : Nat) (v : Val) : (s.put k v).time = s.time := rfl
@[simp] theorem put_net (k : Nat) (v : Val) : (s.put k v).net = s.net := rfl
@[simp] theorem put_host (k : Nat) (v : Val) : (s.put k v).host = s.host := rfl
@[simp] theorem put_security (k : Nat) (v : Val) : (s.put k v).security = s.security := rfl
@[simp] theorem put_integrity (k : Nat) (v : Val) : (s.put k v).integrity = s.integrity := rfl
@[simp] theorem put_compute (k : Nat) (v : Val) : (s.put k v).compute = s.compute := rfl
@[simp] theorem put_tmem (k : Nat) (v : Val) : (s.put k v).tmem = s.tmem := rfl
@[simp] theorem put_clm (k : Nat) (v : Val) : (s.put k v).clm = s.clm := rfl
@[simp] theorem put_bmem (k : Nat) (v : Val) : (s.put k v).bmem = s.bmem := rfl
@[simp] theorem put_hmem (k : Nat) (v : Val) : (s.put k v).hmem = s.hmem := rfl
@[simp] theorem put_out (k : Nat) (v : Val) : (s.put k v).out = s.out := rfl
@[simp] theorem put_free (k : Nat) (v : Val) : (s.put k v).free = s.free := rfl

/-! ### emitOut -/

@[simp] theorem emitOut_pending (o : Out) : (s.emitOut o).pending = s.pending := rfl
@[simp] theorem emitOut_clock (o : Out) : (s.emitOut o).clock = s.clock := rfl
@[simp] theorem emitOut_porAt (o : Out) : (s.emitOut o).porAt = s.porAt := rfl
@[simp] theorem emitOut_fuses (o : Out) : (s.emitOut o).fuses = s.fuses := rfl
@[simp] theorem emitOut_pins (o : Out) : (s.emitOut o).pins = s.pins := rfl
@[simp] theorem emitOut_dict (o : Out) : (s.emitOut o).dict = s.dict := rfl
@[simp] theorem emitOut_eps (o : Out) : (s.emitOut o).eps = s.eps := rfl
@[simp] theorem emitOut_subs (o : Out) : (s.emitOut o).subs = s.subs := rfl
@[simp] theorem emitOut_sessions (o : Out) : (s.emitOut o).sessions = s.sessions := rfl
@[simp] theorem emitOut_blocks (o : Out) : (s.emitOut o).blocks = s.blocks := rfl
@[simp] theorem emitOut_snaps (o : Out) : (s.emitOut o).snaps = s.snaps := rfl
@[simp] theorem emitOut_spi (o : Out) : (s.emitOut o).spi = s.spi := rfl
@[simp] theorem emitOut_mismatch (o : Out) : (s.emitOut o).mismatch = s.mismatch := rfl
@[simp] theorem emitOut_written (o : Out) : (s.emitOut o).written = s.written := rfl
@[simp] theorem emitOut_errRead (o : Out) : (s.emitOut o).errRead = s.errRead := rfl
@[simp] theorem emitOut_everReady (o : Out) : (s.emitOut o).everReady = s.everReady := rfl
@[simp] theorem emitOut_power (o : Out) : (s.emitOut o).power = s.power := rfl
@[simp] theorem emitOut_base (o : Out) : (s.emitOut o).base = s.base := rfl
@[simp] theorem emitOut_dies (o : Out) : (s.emitOut o).dies = s.dies := rfl
@[simp] theorem emitOut_audio (o : Out) : (s.emitOut o).audio = s.audio := rfl
@[simp] theorem emitOut_camera (o : Out) : (s.emitOut o).camera = s.camera := rfl
@[simp] theorem emitOut_time (o : Out) : (s.emitOut o).time = s.time := rfl
@[simp] theorem emitOut_net (o : Out) : (s.emitOut o).net = s.net := rfl
@[simp] theorem emitOut_host (o : Out) : (s.emitOut o).host = s.host := rfl
@[simp] theorem emitOut_security (o : Out) : (s.emitOut o).security = s.security := rfl
@[simp] theorem emitOut_integrity (o : Out) : (s.emitOut o).integrity = s.integrity := rfl
@[simp] theorem emitOut_compute (o : Out) : (s.emitOut o).compute = s.compute := rfl
@[simp] theorem emitOut_tmem (o : Out) : (s.emitOut o).tmem = s.tmem := rfl
@[simp] theorem emitOut_clm (o : Out) : (s.emitOut o).clm = s.clm := rfl
@[simp] theorem emitOut_bmem (o : Out) : (s.emitOut o).bmem = s.bmem := rfl
@[simp] theorem emitOut_hmem (o : Out) : (s.emitOut o).hmem = s.hmem := rfl
@[simp] theorem emitOut_free (o : Out) : (s.emitOut o).free = s.free := rfl
@[simp] theorem emitOut_val (o : Out) : (s.emitOut o).val = s.val := rfl
@[simp] theorem emitOut_rd (o : Out) : (s.emitOut o).rd = s.rd := rfl
@[simp] theorem emitOut_rdB (o : Out) : (s.emitOut o).rdB = s.rdB := rfl
@[simp] theorem emitOut_ready (o : Out) : (s.emitOut o).ready = s.ready := rfl
@[simp] theorem emitOut_held (o : Out) : (s.emitOut o).held = s.held := rfl
@[simp] theorem emitOut_on (o : Out) : (s.emitOut o).on = s.on := rfl

/-! ### modEp -/

@[simp] theorem modEp_pending (e : Nat) (g : EpState → EpState) : (s.modEp e g).pending = s.pending := rfl
@[simp] theorem modEp_clock (e : Nat) (g : EpState → EpState) : (s.modEp e g).clock = s.clock := rfl
@[simp] theorem modEp_porAt (e : Nat) (g : EpState → EpState) : (s.modEp e g).porAt = s.porAt := rfl
@[simp] theorem modEp_fuses (e : Nat) (g : EpState → EpState) : (s.modEp e g).fuses = s.fuses := rfl
@[simp] theorem modEp_pins (e : Nat) (g : EpState → EpState) : (s.modEp e g).pins = s.pins := rfl
@[simp] theorem modEp_dict (e : Nat) (g : EpState → EpState) : (s.modEp e g).dict = s.dict := rfl
@[simp] theorem modEp_subs (e : Nat) (g : EpState → EpState) : (s.modEp e g).subs = s.subs := rfl
@[simp] theorem modEp_sessions (e : Nat) (g : EpState → EpState) : (s.modEp e g).sessions = s.sessions := rfl
@[simp] theorem modEp_blocks (e : Nat) (g : EpState → EpState) : (s.modEp e g).blocks = s.blocks := rfl
@[simp] theorem modEp_snaps (e : Nat) (g : EpState → EpState) : (s.modEp e g).snaps = s.snaps := rfl
@[simp] theorem modEp_spi (e : Nat) (g : EpState → EpState) : (s.modEp e g).spi = s.spi := rfl
@[simp] theorem modEp_mismatch (e : Nat) (g : EpState → EpState) : (s.modEp e g).mismatch = s.mismatch := rfl
@[simp] theorem modEp_written (e : Nat) (g : EpState → EpState) : (s.modEp e g).written = s.written := rfl
@[simp] theorem modEp_errRead (e : Nat) (g : EpState → EpState) : (s.modEp e g).errRead = s.errRead := rfl
@[simp] theorem modEp_everReady (e : Nat) (g : EpState → EpState) : (s.modEp e g).everReady = s.everReady := rfl
@[simp] theorem modEp_power (e : Nat) (g : EpState → EpState) : (s.modEp e g).power = s.power := rfl
@[simp] theorem modEp_base (e : Nat) (g : EpState → EpState) : (s.modEp e g).base = s.base := rfl
@[simp] theorem modEp_dies (e : Nat) (g : EpState → EpState) : (s.modEp e g).dies = s.dies := rfl
@[simp] theorem modEp_audio (e : Nat) (g : EpState → EpState) : (s.modEp e g).audio = s.audio := rfl
@[simp] theorem modEp_camera (e : Nat) (g : EpState → EpState) : (s.modEp e g).camera = s.camera := rfl
@[simp] theorem modEp_time (e : Nat) (g : EpState → EpState) : (s.modEp e g).time = s.time := rfl
@[simp] theorem modEp_net (e : Nat) (g : EpState → EpState) : (s.modEp e g).net = s.net := rfl
@[simp] theorem modEp_host (e : Nat) (g : EpState → EpState) : (s.modEp e g).host = s.host := rfl
@[simp] theorem modEp_security (e : Nat) (g : EpState → EpState) : (s.modEp e g).security = s.security := rfl
@[simp] theorem modEp_integrity (e : Nat) (g : EpState → EpState) : (s.modEp e g).integrity = s.integrity := rfl
@[simp] theorem modEp_compute (e : Nat) (g : EpState → EpState) : (s.modEp e g).compute = s.compute := rfl
@[simp] theorem modEp_tmem (e : Nat) (g : EpState → EpState) : (s.modEp e g).tmem = s.tmem := rfl
@[simp] theorem modEp_clm (e : Nat) (g : EpState → EpState) : (s.modEp e g).clm = s.clm := rfl
@[simp] theorem modEp_bmem (e : Nat) (g : EpState → EpState) : (s.modEp e g).bmem = s.bmem := rfl
@[simp] theorem modEp_hmem (e : Nat) (g : EpState → EpState) : (s.modEp e g).hmem = s.hmem := rfl
@[simp] theorem modEp_out (e : Nat) (g : EpState → EpState) : (s.modEp e g).out = s.out := rfl
@[simp] theorem modEp_free (e : Nat) (g : EpState → EpState) : (s.modEp e g).free = s.free := rfl
@[simp] theorem modEp_val (e : Nat) (g : EpState → EpState) : (s.modEp e g).val = s.val := rfl
@[simp] theorem modEp_rd (e : Nat) (g : EpState → EpState) : (s.modEp e g).rd = s.rd := rfl
@[simp] theorem modEp_rdB (e : Nat) (g : EpState → EpState) : (s.modEp e g).rdB = s.rdB := rfl
@[simp] theorem modEp_ready (e : Nat) (g : EpState → EpState) : (s.modEp e g).ready = s.ready := rfl
@[simp] theorem modEp_held (e : Nat) (g : EpState → EpState) : (s.modEp e g).held = s.held := rfl
@[simp] theorem modEp_on (e : Nat) (g : EpState → EpState) : (s.modEp e g).on = s.on := rfl

/-! ### modSession -/

@[simp] theorem modSession_pending (n : Nat) (g : Session → Session) : (s.modSession n g).pending = s.pending := rfl
@[simp] theorem modSession_clock (n : Nat) (g : Session → Session) : (s.modSession n g).clock = s.clock := rfl
@[simp] theorem modSession_porAt (n : Nat) (g : Session → Session) : (s.modSession n g).porAt = s.porAt := rfl
@[simp] theorem modSession_fuses (n : Nat) (g : Session → Session) : (s.modSession n g).fuses = s.fuses := rfl
@[simp] theorem modSession_pins (n : Nat) (g : Session → Session) : (s.modSession n g).pins = s.pins := rfl
@[simp] theorem modSession_dict (n : Nat) (g : Session → Session) : (s.modSession n g).dict = s.dict := rfl
@[simp] theorem modSession_eps (n : Nat) (g : Session → Session) : (s.modSession n g).eps = s.eps := rfl
@[simp] theorem modSession_subs (n : Nat) (g : Session → Session) : (s.modSession n g).subs = s.subs := rfl
@[simp] theorem modSession_blocks (n : Nat) (g : Session → Session) : (s.modSession n g).blocks = s.blocks := rfl
@[simp] theorem modSession_snaps (n : Nat) (g : Session → Session) : (s.modSession n g).snaps = s.snaps := rfl
@[simp] theorem modSession_spi (n : Nat) (g : Session → Session) : (s.modSession n g).spi = s.spi := rfl
@[simp] theorem modSession_mismatch (n : Nat) (g : Session → Session) : (s.modSession n g).mismatch = s.mismatch := rfl
@[simp] theorem modSession_written (n : Nat) (g : Session → Session) : (s.modSession n g).written = s.written := rfl
@[simp] theorem modSession_errRead (n : Nat) (g : Session → Session) : (s.modSession n g).errRead = s.errRead := rfl
@[simp] theorem modSession_everReady (n : Nat) (g : Session → Session) : (s.modSession n g).everReady = s.everReady := rfl
@[simp] theorem modSession_power (n : Nat) (g : Session → Session) : (s.modSession n g).power = s.power := rfl
@[simp] theorem modSession_base (n : Nat) (g : Session → Session) : (s.modSession n g).base = s.base := rfl
@[simp] theorem modSession_dies (n : Nat) (g : Session → Session) : (s.modSession n g).dies = s.dies := rfl
@[simp] theorem modSession_audio (n : Nat) (g : Session → Session) : (s.modSession n g).audio = s.audio := rfl
@[simp] theorem modSession_camera (n : Nat) (g : Session → Session) : (s.modSession n g).camera = s.camera := rfl
@[simp] theorem modSession_time (n : Nat) (g : Session → Session) : (s.modSession n g).time = s.time := rfl
@[simp] theorem modSession_net (n : Nat) (g : Session → Session) : (s.modSession n g).net = s.net := rfl
@[simp] theorem modSession_host (n : Nat) (g : Session → Session) : (s.modSession n g).host = s.host := rfl
@[simp] theorem modSession_security (n : Nat) (g : Session → Session) : (s.modSession n g).security = s.security := rfl
@[simp] theorem modSession_integrity (n : Nat) (g : Session → Session) : (s.modSession n g).integrity = s.integrity := rfl
@[simp] theorem modSession_compute (n : Nat) (g : Session → Session) : (s.modSession n g).compute = s.compute := rfl
@[simp] theorem modSession_tmem (n : Nat) (g : Session → Session) : (s.modSession n g).tmem = s.tmem := rfl
@[simp] theorem modSession_clm (n : Nat) (g : Session → Session) : (s.modSession n g).clm = s.clm := rfl
@[simp] theorem modSession_bmem (n : Nat) (g : Session → Session) : (s.modSession n g).bmem = s.bmem := rfl
@[simp] theorem modSession_hmem (n : Nat) (g : Session → Session) : (s.modSession n g).hmem = s.hmem := rfl
@[simp] theorem modSession_out (n : Nat) (g : Session → Session) : (s.modSession n g).out = s.out := rfl
@[simp] theorem modSession_free (n : Nat) (g : Session → Session) : (s.modSession n g).free = s.free := rfl
@[simp] theorem modSession_val (n : Nat) (g : Session → Session) : (s.modSession n g).val = s.val := rfl
@[simp] theorem modSession_rd (n : Nat) (g : Session → Session) : (s.modSession n g).rd = s.rd := rfl
@[simp] theorem modSession_rdB (n : Nat) (g : Session → Session) : (s.modSession n g).rdB = s.rdB := rfl
@[simp] theorem modSession_ready (n : Nat) (g : Session → Session) : (s.modSession n g).ready = s.ready := rfl
@[simp] theorem modSession_held (n : Nat) (g : Session → Session) : (s.modSession n g).held = s.held := rfl
@[simp] theorem modSession_on (n : Nat) (g : Session → Session) : (s.modSession n g).on = s.on := rfl

/-! ### modSpi -/

@[simp] theorem modSpi_pending (g : Spi → Spi) : (s.modSpi g).pending = s.pending := rfl
@[simp] theorem modSpi_clock (g : Spi → Spi) : (s.modSpi g).clock = s.clock := rfl
@[simp] theorem modSpi_porAt (g : Spi → Spi) : (s.modSpi g).porAt = s.porAt := rfl
@[simp] theorem modSpi_fuses (g : Spi → Spi) : (s.modSpi g).fuses = s.fuses := rfl
@[simp] theorem modSpi_pins (g : Spi → Spi) : (s.modSpi g).pins = s.pins := rfl
@[simp] theorem modSpi_dict (g : Spi → Spi) : (s.modSpi g).dict = s.dict := rfl
@[simp] theorem modSpi_eps (g : Spi → Spi) : (s.modSpi g).eps = s.eps := rfl
@[simp] theorem modSpi_subs (g : Spi → Spi) : (s.modSpi g).subs = s.subs := rfl
@[simp] theorem modSpi_sessions (g : Spi → Spi) : (s.modSpi g).sessions = s.sessions := rfl
@[simp] theorem modSpi_blocks (g : Spi → Spi) : (s.modSpi g).blocks = s.blocks := rfl
@[simp] theorem modSpi_snaps (g : Spi → Spi) : (s.modSpi g).snaps = s.snaps := rfl
@[simp] theorem modSpi_mismatch (g : Spi → Spi) : (s.modSpi g).mismatch = s.mismatch := rfl
@[simp] theorem modSpi_written (g : Spi → Spi) : (s.modSpi g).written = s.written := rfl
@[simp] theorem modSpi_errRead (g : Spi → Spi) : (s.modSpi g).errRead = s.errRead := rfl
@[simp] theorem modSpi_everReady (g : Spi → Spi) : (s.modSpi g).everReady = s.everReady := rfl
@[simp] theorem modSpi_power (g : Spi → Spi) : (s.modSpi g).power = s.power := rfl
@[simp] theorem modSpi_base (g : Spi → Spi) : (s.modSpi g).base = s.base := rfl
@[simp] theorem modSpi_dies (g : Spi → Spi) : (s.modSpi g).dies = s.dies := rfl
@[simp] theorem modSpi_audio (g : Spi → Spi) : (s.modSpi g).audio = s.audio := rfl
@[simp] theorem modSpi_camera (g : Spi → Spi) : (s.modSpi g).camera = s.camera := rfl
@[simp] theorem modSpi_time (g : Spi → Spi) : (s.modSpi g).time = s.time := rfl
@[simp] theorem modSpi_net (g : Spi → Spi) : (s.modSpi g).net = s.net := rfl
@[simp] theorem modSpi_host (g : Spi → Spi) : (s.modSpi g).host = s.host := rfl
@[simp] theorem modSpi_security (g : Spi → Spi) : (s.modSpi g).security = s.security := rfl
@[simp] theorem modSpi_integrity (g : Spi → Spi) : (s.modSpi g).integrity = s.integrity := rfl
@[simp] theorem modSpi_compute (g : Spi → Spi) : (s.modSpi g).compute = s.compute := rfl
@[simp] theorem modSpi_tmem (g : Spi → Spi) : (s.modSpi g).tmem = s.tmem := rfl
@[simp] theorem modSpi_clm (g : Spi → Spi) : (s.modSpi g).clm = s.clm := rfl
@[simp] theorem modSpi_bmem (g : Spi → Spi) : (s.modSpi g).bmem = s.bmem := rfl
@[simp] theorem modSpi_hmem (g : Spi → Spi) : (s.modSpi g).hmem = s.hmem := rfl
@[simp] theorem modSpi_out (g : Spi → Spi) : (s.modSpi g).out = s.out := rfl
@[simp] theorem modSpi_free (g : Spi → Spi) : (s.modSpi g).free = s.free := rfl
@[simp] theorem modSpi_val (g : Spi → Spi) : (s.modSpi g).val = s.val := rfl
@[simp] theorem modSpi_rd (g : Spi → Spi) : (s.modSpi g).rd = s.rd := rfl
@[simp] theorem modSpi_rdB (g : Spi → Spi) : (s.modSpi g).rdB = s.rdB := rfl
@[simp] theorem modSpi_ready (g : Spi → Spi) : (s.modSpi g).ready = s.ready := rfl
@[simp] theorem modSpi_held (g : Spi → Spi) : (s.modSpi g).held = s.held := rfl
@[simp] theorem modSpi_on (g : Spi → Spi) : (s.modSpi g).on = s.on := rfl

/-! ### modPower -/

@[simp] theorem modPower_pending (g : Power → Power) : (s.modPower g).pending = s.pending := rfl
@[simp] theorem modPower_clock (g : Power → Power) : (s.modPower g).clock = s.clock := rfl
@[simp] theorem modPower_porAt (g : Power → Power) : (s.modPower g).porAt = s.porAt := rfl
@[simp] theorem modPower_fuses (g : Power → Power) : (s.modPower g).fuses = s.fuses := rfl
@[simp] theorem modPower_pins (g : Power → Power) : (s.modPower g).pins = s.pins := rfl
@[simp] theorem modPower_dict (g : Power → Power) : (s.modPower g).dict = s.dict := rfl
@[simp] theorem modPower_eps (g : Power → Power) : (s.modPower g).eps = s.eps := rfl
@[simp] theorem modPower_subs (g : Power → Power) : (s.modPower g).subs = s.subs := rfl
@[simp] theorem modPower_sessions (g : Power → Power) : (s.modPower g).sessions = s.sessions := rfl
@[simp] theorem modPower_blocks (g : Power → Power) : (s.modPower g).blocks = s.blocks := rfl
@[simp] theorem modPower_snaps (g : Power → Power) : (s.modPower g).snaps = s.snaps := rfl
@[simp] theorem modPower_spi (g : Power → Power) : (s.modPower g).spi = s.spi := rfl
@[simp] theorem modPower_mismatch (g : Power → Power) : (s.modPower g).mismatch = s.mismatch := rfl
@[simp] theorem modPower_written (g : Power → Power) : (s.modPower g).written = s.written := rfl
@[simp] theorem modPower_errRead (g : Power → Power) : (s.modPower g).errRead = s.errRead := rfl
@[simp] theorem modPower_everReady (g : Power → Power) : (s.modPower g).everReady = s.everReady := rfl
@[simp] theorem modPower_base (g : Power → Power) : (s.modPower g).base = s.base := rfl
@[simp] theorem modPower_dies (g : Power → Power) : (s.modPower g).dies = s.dies := rfl
@[simp] theorem modPower_audio (g : Power → Power) : (s.modPower g).audio = s.audio := rfl
@[simp] theorem modPower_camera (g : Power → Power) : (s.modPower g).camera = s.camera := rfl
@[simp] theorem modPower_time (g : Power → Power) : (s.modPower g).time = s.time := rfl
@[simp] theorem modPower_net (g : Power → Power) : (s.modPower g).net = s.net := rfl
@[simp] theorem modPower_host (g : Power → Power) : (s.modPower g).host = s.host := rfl
@[simp] theorem modPower_security (g : Power → Power) : (s.modPower g).security = s.security := rfl
@[simp] theorem modPower_integrity (g : Power → Power) : (s.modPower g).integrity = s.integrity := rfl
@[simp] theorem modPower_compute (g : Power → Power) : (s.modPower g).compute = s.compute := rfl
@[simp] theorem modPower_tmem (g : Power → Power) : (s.modPower g).tmem = s.tmem := rfl
@[simp] theorem modPower_clm (g : Power → Power) : (s.modPower g).clm = s.clm := rfl
@[simp] theorem modPower_bmem (g : Power → Power) : (s.modPower g).bmem = s.bmem := rfl
@[simp] theorem modPower_hmem (g : Power → Power) : (s.modPower g).hmem = s.hmem := rfl
@[simp] theorem modPower_out (g : Power → Power) : (s.modPower g).out = s.out := rfl
@[simp] theorem modPower_free (g : Power → Power) : (s.modPower g).free = s.free := rfl
@[simp] theorem modPower_val (g : Power → Power) : (s.modPower g).val = s.val := rfl
@[simp] theorem modPower_rd (g : Power → Power) : (s.modPower g).rd = s.rd := rfl
@[simp] theorem modPower_rdB (g : Power → Power) : (s.modPower g).rdB = s.rdB := rfl
@[simp] theorem modPower_ready (g : Power → Power) : (s.modPower g).ready = s.ready := rfl
@[simp] theorem modPower_held (g : Power → Power) : (s.modPower g).held = s.held := rfl
@[simp] theorem modPower_on (g : Power → Power) : (s.modPower g).on = s.on := rfl

/-! ### modLim -/

@[simp] theorem modLim_pending (d : Nat) (g : DieLimits → DieLimits) : (s.modLim d g).pending = s.pending := rfl
@[simp] theorem modLim_clock (d : Nat) (g : DieLimits → DieLimits) : (s.modLim d g).clock = s.clock := rfl
@[simp] theorem modLim_porAt (d : Nat) (g : DieLimits → DieLimits) : (s.modLim d g).porAt = s.porAt := rfl
@[simp] theorem modLim_fuses (d : Nat) (g : DieLimits → DieLimits) : (s.modLim d g).fuses = s.fuses := rfl
@[simp] theorem modLim_pins (d : Nat) (g : DieLimits → DieLimits) : (s.modLim d g).pins = s.pins := rfl
@[simp] theorem modLim_dict (d : Nat) (g : DieLimits → DieLimits) : (s.modLim d g).dict = s.dict := rfl
@[simp] theorem modLim_eps (d : Nat) (g : DieLimits → DieLimits) : (s.modLim d g).eps = s.eps := rfl
@[simp] theorem modLim_subs (d : Nat) (g : DieLimits → DieLimits) : (s.modLim d g).subs = s.subs := rfl
@[simp] theorem modLim_sessions (d : Nat) (g : DieLimits → DieLimits) : (s.modLim d g).sessions = s.sessions := rfl
@[simp] theorem modLim_blocks (d : Nat) (g : DieLimits → DieLimits) : (s.modLim d g).blocks = s.blocks := rfl
@[simp] theorem modLim_snaps (d : Nat) (g : DieLimits → DieLimits) : (s.modLim d g).snaps = s.snaps := rfl
@[simp] theorem modLim_spi (d : Nat) (g : DieLimits → DieLimits) : (s.modLim d g).spi = s.spi := rfl
@[simp] theorem modLim_mismatch (d : Nat) (g : DieLimits → DieLimits) : (s.modLim d g).mismatch = s.mismatch := rfl
@[simp] theorem modLim_written (d : Nat) (g : DieLimits → DieLimits) : (s.modLim d g).written = s.written := rfl
@[simp] theorem modLim_errRead (d : Nat) (g : DieLimits → DieLimits) : (s.modLim d g).errRead = s.errRead := rfl
@[simp] theorem modLim_everReady (d : Nat) (g : DieLimits → DieLimits) : (s.modLim d g).everReady = s.everReady := rfl
@[simp] theorem modLim_power (d : Nat) (g : DieLimits → DieLimits) : (s.modLim d g).power = s.power := rfl
@[simp] theorem modLim_base (d : Nat) (g : DieLimits → DieLimits) : (s.modLim d g).base = s.base := rfl
@[simp] theorem modLim_audio (d : Nat) (g : DieLimits → DieLimits) : (s.modLim d g).audio = s.audio := rfl
@[simp] theorem modLim_camera (d : Nat) (g : DieLimits → DieLimits) : (s.modLim d g).camera = s.camera := rfl
@[simp] theorem modLim_time (d : Nat) (g : DieLimits → DieLimits) : (s.modLim d g).time = s.time := rfl
@[simp] theorem modLim_net (d : Nat) (g : DieLimits → DieLimits) : (s.modLim d g).net = s.net := rfl
@[simp] theorem modLim_host (d : Nat) (g : DieLimits → DieLimits) : (s.modLim d g).host = s.host := rfl
@[simp] theorem modLim_security (d : Nat) (g : DieLimits → DieLimits) : (s.modLim d g).security = s.security := rfl
@[simp] theorem modLim_integrity (d : Nat) (g : DieLimits → DieLimits) : (s.modLim d g).integrity = s.integrity := rfl
@[simp] theorem modLim_compute (d : Nat) (g : DieLimits → DieLimits) : (s.modLim d g).compute = s.compute := rfl
@[simp] theorem modLim_tmem (d : Nat) (g : DieLimits → DieLimits) : (s.modLim d g).tmem = s.tmem := rfl
@[simp] theorem modLim_clm (d : Nat) (g : DieLimits → DieLimits) : (s.modLim d g).clm = s.clm := rfl
@[simp] theorem modLim_bmem (d : Nat) (g : DieLimits → DieLimits) : (s.modLim d g).bmem = s.bmem := rfl
@[simp] theorem modLim_hmem (d : Nat) (g : DieLimits → DieLimits) : (s.modLim d g).hmem = s.hmem := rfl
@[simp] theorem modLim_out (d : Nat) (g : DieLimits → DieLimits) : (s.modLim d g).out = s.out := rfl
@[simp] theorem modLim_free (d : Nat) (g : DieLimits → DieLimits) : (s.modLim d g).free = s.free := rfl
@[simp] theorem modLim_val (d : Nat) (g : DieLimits → DieLimits) : (s.modLim d g).val = s.val := rfl
@[simp] theorem modLim_rd (d : Nat) (g : DieLimits → DieLimits) : (s.modLim d g).rd = s.rd := rfl
@[simp] theorem modLim_rdB (d : Nat) (g : DieLimits → DieLimits) : (s.modLim d g).rdB = s.rdB := rfl
@[simp] theorem modLim_ready (d : Nat) (g : DieLimits → DieLimits) : (s.modLim d g).ready = s.ready := rfl
@[simp] theorem modLim_held (d : Nat) (g : DieLimits → DieLimits) : (s.modLim d g).held = s.held := rfl
@[simp] theorem modLim_on (d : Nat) (g : DieLimits → DieLimits) : (s.modLim d g).on = s.on := rfl

/-! ### modCh -/

@[simp] theorem modCh_pending (c : Nat) (g : AudioCh → AudioCh) : (s.modCh c g).pending = s.pending := rfl
@[simp] theorem modCh_clock (c : Nat) (g : AudioCh → AudioCh) : (s.modCh c g).clock = s.clock := rfl
@[simp] theorem modCh_porAt (c : Nat) (g : AudioCh → AudioCh) : (s.modCh c g).porAt = s.porAt := rfl
@[simp] theorem modCh_fuses (c : Nat) (g : AudioCh → AudioCh) : (s.modCh c g).fuses = s.fuses := rfl
@[simp] theorem modCh_pins (c : Nat) (g : AudioCh → AudioCh) : (s.modCh c g).pins = s.pins := rfl
@[simp] theorem modCh_dict (c : Nat) (g : AudioCh → AudioCh) : (s.modCh c g).dict = s.dict := rfl
@[simp] theorem modCh_eps (c : Nat) (g : AudioCh → AudioCh) : (s.modCh c g).eps = s.eps := rfl
@[simp] theorem modCh_subs (c : Nat) (g : AudioCh → AudioCh) : (s.modCh c g).subs = s.subs := rfl
@[simp] theorem modCh_sessions (c : Nat) (g : AudioCh → AudioCh) : (s.modCh c g).sessions = s.sessions := rfl
@[simp] theorem modCh_blocks (c : Nat) (g : AudioCh → AudioCh) : (s.modCh c g).blocks = s.blocks := rfl
@[simp] theorem modCh_snaps (c : Nat) (g : AudioCh → AudioCh) : (s.modCh c g).snaps = s.snaps := rfl
@[simp] theorem modCh_spi (c : Nat) (g : AudioCh → AudioCh) : (s.modCh c g).spi = s.spi := rfl
@[simp] theorem modCh_mismatch (c : Nat) (g : AudioCh → AudioCh) : (s.modCh c g).mismatch = s.mismatch := rfl
@[simp] theorem modCh_written (c : Nat) (g : AudioCh → AudioCh) : (s.modCh c g).written = s.written := rfl
@[simp] theorem modCh_errRead (c : Nat) (g : AudioCh → AudioCh) : (s.modCh c g).errRead = s.errRead := rfl
@[simp] theorem modCh_everReady (c : Nat) (g : AudioCh → AudioCh) : (s.modCh c g).everReady = s.everReady := rfl
@[simp] theorem modCh_power (c : Nat) (g : AudioCh → AudioCh) : (s.modCh c g).power = s.power := rfl
@[simp] theorem modCh_base (c : Nat) (g : AudioCh → AudioCh) : (s.modCh c g).base = s.base := rfl
@[simp] theorem modCh_dies (c : Nat) (g : AudioCh → AudioCh) : (s.modCh c g).dies = s.dies := rfl
@[simp] theorem modCh_camera (c : Nat) (g : AudioCh → AudioCh) : (s.modCh c g).camera = s.camera := rfl
@[simp] theorem modCh_time (c : Nat) (g : AudioCh → AudioCh) : (s.modCh c g).time = s.time := rfl
@[simp] theorem modCh_net (c : Nat) (g : AudioCh → AudioCh) : (s.modCh c g).net = s.net := rfl
@[simp] theorem modCh_host (c : Nat) (g : AudioCh → AudioCh) : (s.modCh c g).host = s.host := rfl
@[simp] theorem modCh_security (c : Nat) (g : AudioCh → AudioCh) : (s.modCh c g).security = s.security := rfl
@[simp] theorem modCh_integrity (c : Nat) (g : AudioCh → AudioCh) : (s.modCh c g).integrity = s.integrity := rfl
@[simp] theorem modCh_compute (c : Nat) (g : AudioCh → AudioCh) : (s.modCh c g).compute = s.compute := rfl
@[simp] theorem modCh_tmem (c : Nat) (g : AudioCh → AudioCh) : (s.modCh c g).tmem = s.tmem := rfl
@[simp] theorem modCh_clm (c : Nat) (g : AudioCh → AudioCh) : (s.modCh c g).clm = s.clm := rfl
@[simp] theorem modCh_bmem (c : Nat) (g : AudioCh → AudioCh) : (s.modCh c g).bmem = s.bmem := rfl
@[simp] theorem modCh_hmem (c : Nat) (g : AudioCh → AudioCh) : (s.modCh c g).hmem = s.hmem := rfl
@[simp] theorem modCh_out (c : Nat) (g : AudioCh → AudioCh) : (s.modCh c g).out = s.out := rfl
@[simp] theorem modCh_free (c : Nat) (g : AudioCh → AudioCh) : (s.modCh c g).free = s.free := rfl
@[simp] theorem modCh_val (c : Nat) (g : AudioCh → AudioCh) : (s.modCh c g).val = s.val := rfl
@[simp] theorem modCh_rd (c : Nat) (g : AudioCh → AudioCh) : (s.modCh c g).rd = s.rd := rfl
@[simp] theorem modCh_rdB (c : Nat) (g : AudioCh → AudioCh) : (s.modCh c g).rdB = s.rdB := rfl
@[simp] theorem modCh_ready (c : Nat) (g : AudioCh → AudioCh) : (s.modCh c g).ready = s.ready := rfl
@[simp] theorem modCh_held (c : Nat) (g : AudioCh → AudioCh) : (s.modCh c g).held = s.held := rfl
@[simp] theorem modCh_on (c : Nat) (g : AudioCh → AudioCh) : (s.modCh c g).on = s.on := rfl

/-! ### modRing -/

@[simp] theorem modRing_pending (g : Ring → Ring) : (s.modRing g).pending = s.pending := rfl
@[simp] theorem modRing_clock (g : Ring → Ring) : (s.modRing g).clock = s.clock := rfl
@[simp] theorem modRing_porAt (g : Ring → Ring) : (s.modRing g).porAt = s.porAt := rfl
@[simp] theorem modRing_fuses (g : Ring → Ring) : (s.modRing g).fuses = s.fuses := rfl
@[simp] theorem modRing_pins (g : Ring → Ring) : (s.modRing g).pins = s.pins := rfl
@[simp] theorem modRing_dict (g : Ring → Ring) : (s.modRing g).dict = s.dict := rfl
@[simp] theorem modRing_eps (g : Ring → Ring) : (s.modRing g).eps = s.eps := rfl
@[simp] theorem modRing_subs (g : Ring → Ring) : (s.modRing g).subs = s.subs := rfl
@[simp] theorem modRing_sessions (g : Ring → Ring) : (s.modRing g).sessions = s.sessions := rfl
@[simp] theorem modRing_blocks (g : Ring → Ring) : (s.modRing g).blocks = s.blocks := rfl
@[simp] theorem modRing_snaps (g : Ring → Ring) : (s.modRing g).snaps = s.snaps := rfl
@[simp] theorem modRing_spi (g : Ring → Ring) : (s.modRing g).spi = s.spi := rfl
@[simp] theorem modRing_mismatch (g : Ring → Ring) : (s.modRing g).mismatch = s.mismatch := rfl
@[simp] theorem modRing_written (g : Ring → Ring) : (s.modRing g).written = s.written := rfl
@[simp] theorem modRing_errRead (g : Ring → Ring) : (s.modRing g).errRead = s.errRead := rfl
@[simp] theorem modRing_everReady (g : Ring → Ring) : (s.modRing g).everReady = s.everReady := rfl
@[simp] theorem modRing_power (g : Ring → Ring) : (s.modRing g).power = s.power := rfl
@[simp] theorem modRing_base (g : Ring → Ring) : (s.modRing g).base = s.base := rfl
@[simp] theorem modRing_dies (g : Ring → Ring) : (s.modRing g).dies = s.dies := rfl
@[simp] theorem modRing_camera (g : Ring → Ring) : (s.modRing g).camera = s.camera := rfl
@[simp] theorem modRing_time (g : Ring → Ring) : (s.modRing g).time = s.time := rfl
@[simp] theorem modRing_net (g : Ring → Ring) : (s.modRing g).net = s.net := rfl
@[simp] theorem modRing_host (g : Ring → Ring) : (s.modRing g).host = s.host := rfl
@[simp] theorem modRing_security (g : Ring → Ring) : (s.modRing g).security = s.security := rfl
@[simp] theorem modRing_integrity (g : Ring → Ring) : (s.modRing g).integrity = s.integrity := rfl
@[simp] theorem modRing_compute (g : Ring → Ring) : (s.modRing g).compute = s.compute := rfl
@[simp] theorem modRing_tmem (g : Ring → Ring) : (s.modRing g).tmem = s.tmem := rfl
@[simp] theorem modRing_clm (g : Ring → Ring) : (s.modRing g).clm = s.clm := rfl
@[simp] theorem modRing_bmem (g : Ring → Ring) : (s.modRing g).bmem = s.bmem := rfl
@[simp] theorem modRing_hmem (g : Ring → Ring) : (s.modRing g).hmem = s.hmem := rfl
@[simp] theorem modRing_out (g : Ring → Ring) : (s.modRing g).out = s.out := rfl
@[simp] theorem modRing_free (g : Ring → Ring) : (s.modRing g).free = s.free := rfl
@[simp] theorem modRing_val (g : Ring → Ring) : (s.modRing g).val = s.val := rfl
@[simp] theorem modRing_rd (g : Ring → Ring) : (s.modRing g).rd = s.rd := rfl
@[simp] theorem modRing_rdB (g : Ring → Ring) : (s.modRing g).rdB = s.rdB := rfl
@[simp] theorem modRing_ready (g : Ring → Ring) : (s.modRing g).ready = s.ready := rfl
@[simp] theorem modRing_held (g : Ring → Ring) : (s.modRing g).held = s.held := rfl
@[simp] theorem modRing_on (g : Ring → Ring) : (s.modRing g).on = s.on := rfl

/-! ### modCam -/

@[simp] theorem modCam_pending (i : Nat) (g : CamIn → CamIn) : (s.modCam i g).pending = s.pending := rfl
@[simp] theorem modCam_clock (i : Nat) (g : CamIn → CamIn) : (s.modCam i g).clock = s.clock := rfl
@[simp] theorem modCam_porAt (i : Nat) (g : CamIn → CamIn) : (s.modCam i g).porAt = s.porAt := rfl
@[simp] theorem modCam_fuses (i : Nat) (g : CamIn → CamIn) : (s.modCam i g).fuses = s.fuses := rfl
@[simp] theorem modCam_pins (i : Nat) (g : CamIn → CamIn) : (s.modCam i g).pins = s.pins := rfl
@[simp] theorem modCam_dict (i : Nat) (g : CamIn → CamIn) : (s.modCam i g).dict = s.dict := rfl
@[simp] theorem modCam_eps (i : Nat) (g : CamIn → CamIn) : (s.modCam i g).eps = s.eps := rfl
@[simp] theorem modCam_subs (i : Nat) (g : CamIn → CamIn) : (s.modCam i g).subs = s.subs := rfl
@[simp] theorem modCam_sessions (i : Nat) (g : CamIn → CamIn) : (s.modCam i g).sessions = s.sessions := rfl
@[simp] theorem modCam_blocks (i : Nat) (g : CamIn → CamIn) : (s.modCam i g).blocks = s.blocks := rfl
@[simp] theorem modCam_snaps (i : Nat) (g : CamIn → CamIn) : (s.modCam i g).snaps = s.snaps := rfl
@[simp] theorem modCam_spi (i : Nat) (g : CamIn → CamIn) : (s.modCam i g).spi = s.spi := rfl
@[simp] theorem modCam_mismatch (i : Nat) (g : CamIn → CamIn) : (s.modCam i g).mismatch = s.mismatch := rfl
@[simp] theorem modCam_written (i : Nat) (g : CamIn → CamIn) : (s.modCam i g).written = s.written := rfl
@[simp] theorem modCam_errRead (i : Nat) (g : CamIn → CamIn) : (s.modCam i g).errRead = s.errRead := rfl
@[simp] theorem modCam_everReady (i : Nat) (g : CamIn → CamIn) : (s.modCam i g).everReady = s.everReady := rfl
@[simp] theorem modCam_power (i : Nat) (g : CamIn → CamIn) : (s.modCam i g).power = s.power := rfl
@[simp] theorem modCam_base (i : Nat) (g : CamIn → CamIn) : (s.modCam i g).base = s.base := rfl
@[simp] theorem modCam_dies (i : Nat) (g : CamIn → CamIn) : (s.modCam i g).dies = s.dies := rfl
@[simp] theorem modCam_audio (i : Nat) (g : CamIn → CamIn) : (s.modCam i g).audio = s.audio := rfl
@[simp] theorem modCam_time (i : Nat) (g : CamIn → CamIn) : (s.modCam i g).time = s.time := rfl
@[simp] theorem modCam_net (i : Nat) (g : CamIn → CamIn) : (s.modCam i g).net = s.net := rfl
@[simp] theorem modCam_host (i : Nat) (g : CamIn → CamIn) : (s.modCam i g).host = s.host := rfl
@[simp] theorem modCam_security (i : Nat) (g : CamIn → CamIn) : (s.modCam i g).security = s.security := rfl
@[simp] theorem modCam_integrity (i : Nat) (g : CamIn → CamIn) : (s.modCam i g).integrity = s.integrity := rfl
@[simp] theorem modCam_compute (i : Nat) (g : CamIn → CamIn) : (s.modCam i g).compute = s.compute := rfl
@[simp] theorem modCam_tmem (i : Nat) (g : CamIn → CamIn) : (s.modCam i g).tmem = s.tmem := rfl
@[simp] theorem modCam_clm (i : Nat) (g : CamIn → CamIn) : (s.modCam i g).clm = s.clm := rfl
@[simp] theorem modCam_bmem (i : Nat) (g : CamIn → CamIn) : (s.modCam i g).bmem = s.bmem := rfl
@[simp] theorem modCam_hmem (i : Nat) (g : CamIn → CamIn) : (s.modCam i g).hmem = s.hmem := rfl
@[simp] theorem modCam_out (i : Nat) (g : CamIn → CamIn) : (s.modCam i g).out = s.out := rfl
@[simp] theorem modCam_free (i : Nat) (g : CamIn → CamIn) : (s.modCam i g).free = s.free := rfl
@[simp] theorem modCam_val (i : Nat) (g : CamIn → CamIn) : (s.modCam i g).val = s.val := rfl
@[simp] theorem modCam_rd (i : Nat) (g : CamIn → CamIn) : (s.modCam i g).rd = s.rd := rfl
@[simp] theorem modCam_rdB (i : Nat) (g : CamIn → CamIn) : (s.modCam i g).rdB = s.rdB := rfl
@[simp] theorem modCam_ready (i : Nat) (g : CamIn → CamIn) : (s.modCam i g).ready = s.ready := rfl
@[simp] theorem modCam_held (i : Nat) (g : CamIn → CamIn) : (s.modCam i g).held = s.held := rfl
@[simp] theorem modCam_on (i : Nat) (g : CamIn → CamIn) : (s.modCam i g).on = s.on := rfl

/-! ### modTime -/

@[simp] theorem modTime_pending (g : TimeBase → TimeBase) : (s.modTime g).pending = s.pending := rfl
@[simp] theorem modTime_clock (g : TimeBase → TimeBase) : (s.modTime g).clock = s.clock := rfl
@[simp] theorem modTime_porAt (g : TimeBase → TimeBase) : (s.modTime g).porAt = s.porAt := rfl
@[simp] theorem modTime_fuses (g : TimeBase → TimeBase) : (s.modTime g).fuses = s.fuses := rfl
@[simp] theorem modTime_pins (g : TimeBase → TimeBase) : (s.modTime g).pins = s.pins := rfl
@[simp] theorem modTime_dict (g : TimeBase → TimeBase) : (s.modTime g).dict = s.dict := rfl
@[simp] theorem modTime_eps (g : TimeBase → TimeBase) : (s.modTime g).eps = s.eps := rfl
@[simp] theorem modTime_subs (g : TimeBase → TimeBase) : (s.modTime g).subs = s.subs := rfl
@[simp] theorem modTime_sessions (g : TimeBase → TimeBase) : (s.modTime g).sessions = s.sessions := rfl
@[simp] theorem modTime_blocks (g : TimeBase → TimeBase) : (s.modTime g).blocks = s.blocks := rfl
@[simp] theorem modTime_snaps (g : TimeBase → TimeBase) : (s.modTime g).snaps = s.snaps := rfl
@[simp] theorem modTime_spi (g : TimeBase → TimeBase) : (s.modTime g).spi = s.spi := rfl
@[simp] theorem modTime_mismatch (g : TimeBase → TimeBase) : (s.modTime g).mismatch = s.mismatch := rfl
@[simp] theorem modTime_written (g : TimeBase → TimeBase) : (s.modTime g).written = s.written := rfl
@[simp] theorem modTime_errRead (g : TimeBase → TimeBase) : (s.modTime g).errRead = s.errRead := rfl
@[simp] theorem modTime_everReady (g : TimeBase → TimeBase) : (s.modTime g).everReady = s.everReady := rfl
@[simp] theorem modTime_power (g : TimeBase → TimeBase) : (s.modTime g).power = s.power := rfl
@[simp] theorem modTime_base (g : TimeBase → TimeBase) : (s.modTime g).base = s.base := rfl
@[simp] theorem modTime_dies (g : TimeBase → TimeBase) : (s.modTime g).dies = s.dies := rfl
@[simp] theorem modTime_audio (g : TimeBase → TimeBase) : (s.modTime g).audio = s.audio := rfl
@[simp] theorem modTime_camera (g : TimeBase → TimeBase) : (s.modTime g).camera = s.camera := rfl
@[simp] theorem modTime_net (g : TimeBase → TimeBase) : (s.modTime g).net = s.net := rfl
@[simp] theorem modTime_host (g : TimeBase → TimeBase) : (s.modTime g).host = s.host := rfl
@[simp] theorem modTime_security (g : TimeBase → TimeBase) : (s.modTime g).security = s.security := rfl
@[simp] theorem modTime_integrity (g : TimeBase → TimeBase) : (s.modTime g).integrity = s.integrity := rfl
@[simp] theorem modTime_compute (g : TimeBase → TimeBase) : (s.modTime g).compute = s.compute := rfl
@[simp] theorem modTime_tmem (g : TimeBase → TimeBase) : (s.modTime g).tmem = s.tmem := rfl
@[simp] theorem modTime_clm (g : TimeBase → TimeBase) : (s.modTime g).clm = s.clm := rfl
@[simp] theorem modTime_bmem (g : TimeBase → TimeBase) : (s.modTime g).bmem = s.bmem := rfl
@[simp] theorem modTime_hmem (g : TimeBase → TimeBase) : (s.modTime g).hmem = s.hmem := rfl
@[simp] theorem modTime_out (g : TimeBase → TimeBase) : (s.modTime g).out = s.out := rfl
@[simp] theorem modTime_free (g : TimeBase → TimeBase) : (s.modTime g).free = s.free := rfl
@[simp] theorem modTime_val (g : TimeBase → TimeBase) : (s.modTime g).val = s.val := rfl
@[simp] theorem modTime_rd (g : TimeBase → TimeBase) : (s.modTime g).rd = s.rd := rfl
@[simp] theorem modTime_rdB (g : TimeBase → TimeBase) : (s.modTime g).rdB = s.rdB := rfl
@[simp] theorem modTime_ready (g : TimeBase → TimeBase) : (s.modTime g).ready = s.ready := rfl
@[simp] theorem modTime_held (g : TimeBase → TimeBase) : (s.modTime g).held = s.held := rfl
@[simp] theorem modTime_on (g : TimeBase → TimeBase) : (s.modTime g).on = s.on := rfl

/-! ### modFunc -/

@[simp] theorem modFunc_pending (f : Nat) (g : Func → Func) : (s.modFunc f g).pending = s.pending := rfl
@[simp] theorem modFunc_clock (f : Nat) (g : Func → Func) : (s.modFunc f g).clock = s.clock := rfl
@[simp] theorem modFunc_porAt (f : Nat) (g : Func → Func) : (s.modFunc f g).porAt = s.porAt := rfl
@[simp] theorem modFunc_fuses (f : Nat) (g : Func → Func) : (s.modFunc f g).fuses = s.fuses := rfl
@[simp] theorem modFunc_pins (f : Nat) (g : Func → Func) : (s.modFunc f g).pins = s.pins := rfl
@[simp] theorem modFunc_dict (f : Nat) (g : Func → Func) : (s.modFunc f g).dict = s.dict := rfl
@[simp] theorem modFunc_eps (f : Nat) (g : Func → Func) : (s.modFunc f g).eps = s.eps := rfl
@[simp] theorem modFunc_subs (f : Nat) (g : Func → Func) : (s.modFunc f g).subs = s.subs := rfl
@[simp] theorem modFunc_sessions (f : Nat) (g : Func → Func) : (s.modFunc f g).sessions = s.sessions := rfl
@[simp] theorem modFunc_blocks (f : Nat) (g : Func → Func) : (s.modFunc f g).blocks = s.blocks := rfl
@[simp] theorem modFunc_snaps (f : Nat) (g : Func → Func) : (s.modFunc f g).snaps = s.snaps := rfl
@[simp] theorem modFunc_spi (f : Nat) (g : Func → Func) : (s.modFunc f g).spi = s.spi := rfl
@[simp] theorem modFunc_mismatch (f : Nat) (g : Func → Func) : (s.modFunc f g).mismatch = s.mismatch := rfl
@[simp] theorem modFunc_written (f : Nat) (g : Func → Func) : (s.modFunc f g).written = s.written := rfl
@[simp] theorem modFunc_errRead (f : Nat) (g : Func → Func) : (s.modFunc f g).errRead = s.errRead := rfl
@[simp] theorem modFunc_everReady (f : Nat) (g : Func → Func) : (s.modFunc f g).everReady = s.everReady := rfl
@[simp] theorem modFunc_power (f : Nat) (g : Func → Func) : (s.modFunc f g).power = s.power := rfl
@[simp] theorem modFunc_base (f : Nat) (g : Func → Func) : (s.modFunc f g).base = s.base := rfl
@[simp] theorem modFunc_dies (f : Nat) (g : Func → Func) : (s.modFunc f g).dies = s.dies := rfl
@[simp] theorem modFunc_audio (f : Nat) (g : Func → Func) : (s.modFunc f g).audio = s.audio := rfl
@[simp] theorem modFunc_camera (f : Nat) (g : Func → Func) : (s.modFunc f g).camera = s.camera := rfl
@[simp] theorem modFunc_time (f : Nat) (g : Func → Func) : (s.modFunc f g).time = s.time := rfl
@[simp] theorem modFunc_net (f : Nat) (g : Func → Func) : (s.modFunc f g).net = s.net := rfl
@[simp] theorem modFunc_security (f : Nat) (g : Func → Func) : (s.modFunc f g).security = s.security := rfl
@[simp] theorem modFunc_integrity (f : Nat) (g : Func → Func) : (s.modFunc f g).integrity = s.integrity := rfl
@[simp] theorem modFunc_compute (f : Nat) (g : Func → Func) : (s.modFunc f g).compute = s.compute := rfl
@[simp] theorem modFunc_tmem (f : Nat) (g : Func → Func) : (s.modFunc f g).tmem = s.tmem := rfl
@[simp] theorem modFunc_clm (f : Nat) (g : Func → Func) : (s.modFunc f g).clm = s.clm := rfl
@[simp] theorem modFunc_bmem (f : Nat) (g : Func → Func) : (s.modFunc f g).bmem = s.bmem := rfl
@[simp] theorem modFunc_hmem (f : Nat) (g : Func → Func) : (s.modFunc f g).hmem = s.hmem := rfl
@[simp] theorem modFunc_out (f : Nat) (g : Func → Func) : (s.modFunc f g).out = s.out := rfl
@[simp] theorem modFunc_free (f : Nat) (g : Func → Func) : (s.modFunc f g).free = s.free := rfl
@[simp] theorem modFunc_val (f : Nat) (g : Func → Func) : (s.modFunc f g).val = s.val := rfl
@[simp] theorem modFunc_rd (f : Nat) (g : Func → Func) : (s.modFunc f g).rd = s.rd := rfl
@[simp] theorem modFunc_rdB (f : Nat) (g : Func → Func) : (s.modFunc f g).rdB = s.rdB := rfl
@[simp] theorem modFunc_ready (f : Nat) (g : Func → Func) : (s.modFunc f g).ready = s.ready := rfl
@[simp] theorem modFunc_held (f : Nat) (g : Func → Func) : (s.modFunc f g).held = s.held := rfl
@[simp] theorem modFunc_on (f : Nat) (g : Func → Func) : (s.modFunc f g).on = s.on := rfl

/-! ### modQueue -/

@[simp] theorem modQueue_pending (f q : Nat) (g : Queue → Queue) : (s.modQueue f q g).pending = s.pending := rfl
@[simp] theorem modQueue_clock (f q : Nat) (g : Queue → Queue) : (s.modQueue f q g).clock = s.clock := rfl
@[simp] theorem modQueue_porAt (f q : Nat) (g : Queue → Queue) : (s.modQueue f q g).porAt = s.porAt := rfl
@[simp] theorem modQueue_fuses (f q : Nat) (g : Queue → Queue) : (s.modQueue f q g).fuses = s.fuses := rfl
@[simp] theorem modQueue_pins (f q : Nat) (g : Queue → Queue) : (s.modQueue f q g).pins = s.pins := rfl
@[simp] theorem modQueue_dict (f q : Nat) (g : Queue → Queue) : (s.modQueue f q g).dict = s.dict := rfl
@[simp] theorem modQueue_eps (f q : Nat) (g : Queue → Queue) : (s.modQueue f q g).eps = s.eps := rfl
@[simp] theorem modQueue_subs (f q : Nat) (g : Queue → Queue) : (s.modQueue f q g).subs = s.subs := rfl
@[simp] theorem modQueue_sessions (f q : Nat) (g : Queue → Queue) : (s.modQueue f q g).sessions = s.sessions := rfl
@[simp] theorem modQueue_blocks (f q : Nat) (g : Queue → Queue) : (s.modQueue f q g).blocks = s.blocks := rfl
@[simp] theorem modQueue_snaps (f q : Nat) (g : Queue → Queue) : (s.modQueue f q g).snaps = s.snaps := rfl
@[simp] theorem modQueue_spi (f q : Nat) (g : Queue → Queue) : (s.modQueue f q g).spi = s.spi := rfl
@[simp] theorem modQueue_mismatch (f q : Nat) (g : Queue → Queue) : (s.modQueue f q g).mismatch = s.mismatch := rfl
@[simp] theorem modQueue_written (f q : Nat) (g : Queue → Queue) : (s.modQueue f q g).written = s.written := rfl
@[simp] theorem modQueue_errRead (f q : Nat) (g : Queue → Queue) : (s.modQueue f q g).errRead = s.errRead := rfl
@[simp] theorem modQueue_everReady (f q : Nat) (g : Queue → Queue) : (s.modQueue f q g).everReady = s.everReady := rfl
@[simp] theorem modQueue_power (f q : Nat) (g : Queue → Queue) : (s.modQueue f q g).power = s.power := rfl
@[simp] theorem modQueue_base (f q : Nat) (g : Queue → Queue) : (s.modQueue f q g).base = s.base := rfl
@[simp] theorem modQueue_dies (f q : Nat) (g : Queue → Queue) : (s.modQueue f q g).dies = s.dies := rfl
@[simp] theorem modQueue_audio (f q : Nat) (g : Queue → Queue) : (s.modQueue f q g).audio = s.audio := rfl
@[simp] theorem modQueue_camera (f q : Nat) (g : Queue → Queue) : (s.modQueue f q g).camera = s.camera := rfl
@[simp] theorem modQueue_time (f q : Nat) (g : Queue → Queue) : (s.modQueue f q g).time = s.time := rfl
@[simp] theorem modQueue_net (f q : Nat) (g : Queue → Queue) : (s.modQueue f q g).net = s.net := rfl
@[simp] theorem modQueue_security (f q : Nat) (g : Queue → Queue) : (s.modQueue f q g).security = s.security := rfl
@[simp] theorem modQueue_integrity (f q : Nat) (g : Queue → Queue) : (s.modQueue f q g).integrity = s.integrity := rfl
@[simp] theorem modQueue_compute (f q : Nat) (g : Queue → Queue) : (s.modQueue f q g).compute = s.compute := rfl
@[simp] theorem modQueue_tmem (f q : Nat) (g : Queue → Queue) : (s.modQueue f q g).tmem = s.tmem := rfl
@[simp] theorem modQueue_clm (f q : Nat) (g : Queue → Queue) : (s.modQueue f q g).clm = s.clm := rfl
@[simp] theorem modQueue_bmem (f q : Nat) (g : Queue → Queue) : (s.modQueue f q g).bmem = s.bmem := rfl
@[simp] theorem modQueue_hmem (f q : Nat) (g : Queue → Queue) : (s.modQueue f q g).hmem = s.hmem := rfl
@[simp] theorem modQueue_out (f q : Nat) (g : Queue → Queue) : (s.modQueue f q g).out = s.out := rfl
@[simp] theorem modQueue_free (f q : Nat) (g : Queue → Queue) : (s.modQueue f q g).free = s.free := rfl
@[simp] theorem modQueue_val (f q : Nat) (g : Queue → Queue) : (s.modQueue f q g).val = s.val := rfl
@[simp] theorem modQueue_rd (f q : Nat) (g : Queue → Queue) : (s.modQueue f q g).rd = s.rd := rfl
@[simp] theorem modQueue_rdB (f q : Nat) (g : Queue → Queue) : (s.modQueue f q g).rdB = s.rdB := rfl
@[simp] theorem modQueue_ready (f q : Nat) (g : Queue → Queue) : (s.modQueue f q g).ready = s.ready := rfl
@[simp] theorem modQueue_held (f q : Nat) (g : Queue → Queue) : (s.modQueue f q g).held = s.held := rfl
@[simp] theorem modQueue_on (f q : Nat) (g : Queue → Queue) : (s.modQueue f q g).on = s.on := rfl

/-! ### modStream -/

@[simp] theorem modStream_pending (k : Nat) (g : StreamCtx → StreamCtx) : (s.modStream k g).pending = s.pending := rfl
@[simp] theorem modStream_clock (k : Nat) (g : StreamCtx → StreamCtx) : (s.modStream k g).clock = s.clock := rfl
@[simp] theorem modStream_porAt (k : Nat) (g : StreamCtx → StreamCtx) : (s.modStream k g).porAt = s.porAt := rfl
@[simp] theorem modStream_fuses (k : Nat) (g : StreamCtx → StreamCtx) : (s.modStream k g).fuses = s.fuses := rfl
@[simp] theorem modStream_pins (k : Nat) (g : StreamCtx → StreamCtx) : (s.modStream k g).pins = s.pins := rfl
@[simp] theorem modStream_dict (k : Nat) (g : StreamCtx → StreamCtx) : (s.modStream k g).dict = s.dict := rfl
@[simp] theorem modStream_eps (k : Nat) (g : StreamCtx → StreamCtx) : (s.modStream k g).eps = s.eps := rfl
@[simp] theorem modStream_subs (k : Nat) (g : StreamCtx → StreamCtx) : (s.modStream k g).subs = s.subs := rfl
@[simp] theorem modStream_sessions (k : Nat) (g : StreamCtx → StreamCtx) : (s.modStream k g).sessions = s.sessions := rfl
@[simp] theorem modStream_blocks (k : Nat) (g : StreamCtx → StreamCtx) : (s.modStream k g).blocks = s.blocks := rfl
@[simp] theorem modStream_snaps (k : Nat) (g : StreamCtx → StreamCtx) : (s.modStream k g).snaps = s.snaps := rfl
@[simp] theorem modStream_spi (k : Nat) (g : StreamCtx → StreamCtx) : (s.modStream k g).spi = s.spi := rfl
@[simp] theorem modStream_mismatch (k : Nat) (g : StreamCtx → StreamCtx) : (s.modStream k g).mismatch = s.mismatch := rfl
@[simp] theorem modStream_written (k : Nat) (g : StreamCtx → StreamCtx) : (s.modStream k g).written = s.written := rfl
@[simp] theorem modStream_errRead (k : Nat) (g : StreamCtx → StreamCtx) : (s.modStream k g).errRead = s.errRead := rfl
@[simp] theorem modStream_everReady (k : Nat) (g : StreamCtx → StreamCtx) : (s.modStream k g).everReady = s.everReady := rfl
@[simp] theorem modStream_power (k : Nat) (g : StreamCtx → StreamCtx) : (s.modStream k g).power = s.power := rfl
@[simp] theorem modStream_base (k : Nat) (g : StreamCtx → StreamCtx) : (s.modStream k g).base = s.base := rfl
@[simp] theorem modStream_dies (k : Nat) (g : StreamCtx → StreamCtx) : (s.modStream k g).dies = s.dies := rfl
@[simp] theorem modStream_audio (k : Nat) (g : StreamCtx → StreamCtx) : (s.modStream k g).audio = s.audio := rfl
@[simp] theorem modStream_camera (k : Nat) (g : StreamCtx → StreamCtx) : (s.modStream k g).camera = s.camera := rfl
@[simp] theorem modStream_time (k : Nat) (g : StreamCtx → StreamCtx) : (s.modStream k g).time = s.time := rfl
@[simp] theorem modStream_net (k : Nat) (g : StreamCtx → StreamCtx) : (s.modStream k g).net = s.net := rfl
@[simp] theorem modStream_security (k : Nat) (g : StreamCtx → StreamCtx) : (s.modStream k g).security = s.security := rfl
@[simp] theorem modStream_integrity (k : Nat) (g : StreamCtx → StreamCtx) : (s.modStream k g).integrity = s.integrity := rfl
@[simp] theorem modStream_compute (k : Nat) (g : StreamCtx → StreamCtx) : (s.modStream k g).compute = s.compute := rfl
@[simp] theorem modStream_tmem (k : Nat) (g : StreamCtx → StreamCtx) : (s.modStream k g).tmem = s.tmem := rfl
@[simp] theorem modStream_clm (k : Nat) (g : StreamCtx → StreamCtx) : (s.modStream k g).clm = s.clm := rfl
@[simp] theorem modStream_bmem (k : Nat) (g : StreamCtx → StreamCtx) : (s.modStream k g).bmem = s.bmem := rfl
@[simp] theorem modStream_hmem (k : Nat) (g : StreamCtx → StreamCtx) : (s.modStream k g).hmem = s.hmem := rfl
@[simp] theorem modStream_out (k : Nat) (g : StreamCtx → StreamCtx) : (s.modStream k g).out = s.out := rfl
@[simp] theorem modStream_free (k : Nat) (g : StreamCtx → StreamCtx) : (s.modStream k g).free = s.free := rfl
@[simp] theorem modStream_val (k : Nat) (g : StreamCtx → StreamCtx) : (s.modStream k g).val = s.val := rfl
@[simp] theorem modStream_rd (k : Nat) (g : StreamCtx → StreamCtx) : (s.modStream k g).rd = s.rd := rfl
@[simp] theorem modStream_rdB (k : Nat) (g : StreamCtx → StreamCtx) : (s.modStream k g).rdB = s.rdB := rfl
@[simp] theorem modStream_ready (k : Nat) (g : StreamCtx → StreamCtx) : (s.modStream k g).ready = s.ready := rfl
@[simp] theorem modStream_held (k : Nat) (g : StreamCtx → StreamCtx) : (s.modStream k g).held = s.held := rfl
@[simp] theorem modStream_on (k : Nat) (g : StreamCtx → StreamCtx) : (s.modStream k g).on = s.on := rfl

/-! ### modSec -/

@[simp] theorem modSec_pending (g : Security → Security) : (s.modSec g).pending = s.pending := rfl
@[simp] theorem modSec_clock (g : Security → Security) : (s.modSec g).clock = s.clock := rfl
@[simp] theorem modSec_porAt (g : Security → Security) : (s.modSec g).porAt = s.porAt := rfl
@[simp] theorem modSec_fuses (g : Security → Security) : (s.modSec g).fuses = s.fuses := rfl
@[simp] theorem modSec_pins (g : Security → Security) : (s.modSec g).pins = s.pins := rfl
@[simp] theorem modSec_dict (g : Security → Security) : (s.modSec g).dict = s.dict := rfl
@[simp] theorem modSec_eps (g : Security → Security) : (s.modSec g).eps = s.eps := rfl
@[simp] theorem modSec_subs (g : Security → Security) : (s.modSec g).subs = s.subs := rfl
@[simp] theorem modSec_sessions (g : Security → Security) : (s.modSec g).sessions = s.sessions := rfl
@[simp] theorem modSec_blocks (g : Security → Security) : (s.modSec g).blocks = s.blocks := rfl
@[simp] theorem modSec_snaps (g : Security → Security) : (s.modSec g).snaps = s.snaps := rfl
@[simp] theorem modSec_spi (g : Security → Security) : (s.modSec g).spi = s.spi := rfl
@[simp] theorem modSec_mismatch (g : Security → Security) : (s.modSec g).mismatch = s.mismatch := rfl
@[simp] theorem modSec_written (g : Security → Security) : (s.modSec g).written = s.written := rfl
@[simp] theorem modSec_errRead (g : Security → Security) : (s.modSec g).errRead = s.errRead := rfl
@[simp] theorem modSec_everReady (g : Security → Security) : (s.modSec g).everReady = s.everReady := rfl
@[simp] theorem modSec_power (g : Security → Security) : (s.modSec g).power = s.power := rfl
@[simp] theorem modSec_base (g : Security → Security) : (s.modSec g).base = s.base := rfl
@[simp] theorem modSec_dies (g : Security → Security) : (s.modSec g).dies = s.dies := rfl
@[simp] theorem modSec_audio (g : Security → Security) : (s.modSec g).audio = s.audio := rfl
@[simp] theorem modSec_camera (g : Security → Security) : (s.modSec g).camera = s.camera := rfl
@[simp] theorem modSec_time (g : Security → Security) : (s.modSec g).time = s.time := rfl
@[simp] theorem modSec_net (g : Security → Security) : (s.modSec g).net = s.net := rfl
@[simp] theorem modSec_host (g : Security → Security) : (s.modSec g).host = s.host := rfl
@[simp] theorem modSec_integrity (g : Security → Security) : (s.modSec g).integrity = s.integrity := rfl
@[simp] theorem modSec_compute (g : Security → Security) : (s.modSec g).compute = s.compute := rfl
@[simp] theorem modSec_tmem (g : Security → Security) : (s.modSec g).tmem = s.tmem := rfl
@[simp] theorem modSec_clm (g : Security → Security) : (s.modSec g).clm = s.clm := rfl
@[simp] theorem modSec_bmem (g : Security → Security) : (s.modSec g).bmem = s.bmem := rfl
@[simp] theorem modSec_hmem (g : Security → Security) : (s.modSec g).hmem = s.hmem := rfl
@[simp] theorem modSec_out (g : Security → Security) : (s.modSec g).out = s.out := rfl
@[simp] theorem modSec_free (g : Security → Security) : (s.modSec g).free = s.free := rfl
@[simp] theorem modSec_val (g : Security → Security) : (s.modSec g).val = s.val := rfl
@[simp] theorem modSec_rd (g : Security → Security) : (s.modSec g).rd = s.rd := rfl
@[simp] theorem modSec_rdB (g : Security → Security) : (s.modSec g).rdB = s.rdB := rfl
@[simp] theorem modSec_ready (g : Security → Security) : (s.modSec g).ready = s.ready := rfl
@[simp] theorem modSec_held (g : Security → Security) : (s.modSec g).held = s.held := rfl
@[simp] theorem modSec_on (g : Security → Security) : (s.modSec g).on = s.on := rfl

/-! ### modInt -/

@[simp] theorem modInt_pending (g : Integrity → Integrity) : (s.modInt g).pending = s.pending := rfl
@[simp] theorem modInt_clock (g : Integrity → Integrity) : (s.modInt g).clock = s.clock := rfl
@[simp] theorem modInt_porAt (g : Integrity → Integrity) : (s.modInt g).porAt = s.porAt := rfl
@[simp] theorem modInt_fuses (g : Integrity → Integrity) : (s.modInt g).fuses = s.fuses := rfl
@[simp] theorem modInt_pins (g : Integrity → Integrity) : (s.modInt g).pins = s.pins := rfl
@[simp] theorem modInt_dict (g : Integrity → Integrity) : (s.modInt g).dict = s.dict := rfl
@[simp] theorem modInt_eps (g : Integrity → Integrity) : (s.modInt g).eps = s.eps := rfl
@[simp] theorem modInt_subs (g : Integrity → Integrity) : (s.modInt g).subs = s.subs := rfl
@[simp] theorem modInt_sessions (g : Integrity → Integrity) : (s.modInt g).sessions = s.sessions := rfl
@[simp] theorem modInt_blocks (g : Integrity → Integrity) : (s.modInt g).blocks = s.blocks := rfl
@[simp] theorem modInt_snaps (g : Integrity → Integrity) : (s.modInt g).snaps = s.snaps := rfl
@[simp] theorem modInt_spi (g : Integrity → Integrity) : (s.modInt g).spi = s.spi := rfl
@[simp] theorem modInt_mismatch (g : Integrity → Integrity) : (s.modInt g).mismatch = s.mismatch := rfl
@[simp] theorem modInt_written (g : Integrity → Integrity) : (s.modInt g).written = s.written := rfl
@[simp] theorem modInt_errRead (g : Integrity → Integrity) : (s.modInt g).errRead = s.errRead := rfl
@[simp] theorem modInt_everReady (g : Integrity → Integrity) : (s.modInt g).everReady = s.everReady := rfl
@[simp] theorem modInt_power (g : Integrity → Integrity) : (s.modInt g).power = s.power := rfl
@[simp] theorem modInt_base (g : Integrity → Integrity) : (s.modInt g).base = s.base := rfl
@[simp] theorem modInt_dies (g : Integrity → Integrity) : (s.modInt g).dies = s.dies := rfl
@[simp] theorem modInt_audio (g : Integrity → Integrity) : (s.modInt g).audio = s.audio := rfl
@[simp] theorem modInt_camera (g : Integrity → Integrity) : (s.modInt g).camera = s.camera := rfl
@[simp] theorem modInt_time (g : Integrity → Integrity) : (s.modInt g).time = s.time := rfl
@[simp] theorem modInt_net (g : Integrity → Integrity) : (s.modInt g).net = s.net := rfl
@[simp] theorem modInt_host (g : Integrity → Integrity) : (s.modInt g).host = s.host := rfl
@[simp] theorem modInt_security (g : Integrity → Integrity) : (s.modInt g).security = s.security := rfl
@[simp] theorem modInt_compute (g : Integrity → Integrity) : (s.modInt g).compute = s.compute := rfl
@[simp] theorem modInt_tmem (g : Integrity → Integrity) : (s.modInt g).tmem = s.tmem := rfl
@[simp] theorem modInt_clm (g : Integrity → Integrity) : (s.modInt g).clm = s.clm := rfl
@[simp] theorem modInt_bmem (g : Integrity → Integrity) : (s.modInt g).bmem = s.bmem := rfl
@[simp] theorem modInt_hmem (g : Integrity → Integrity) : (s.modInt g).hmem = s.hmem := rfl
@[simp] theorem modInt_out (g : Integrity → Integrity) : (s.modInt g).out = s.out := rfl
@[simp] theorem modInt_free (g : Integrity → Integrity) : (s.modInt g).free = s.free := rfl
@[simp] theorem modInt_val (g : Integrity → Integrity) : (s.modInt g).val = s.val := rfl
@[simp] theorem modInt_rd (g : Integrity → Integrity) : (s.modInt g).rd = s.rd := rfl
@[simp] theorem modInt_rdB (g : Integrity → Integrity) : (s.modInt g).rdB = s.rdB := rfl
@[simp] theorem modInt_ready (g : Integrity → Integrity) : (s.modInt g).ready = s.ready := rfl
@[simp] theorem modInt_held (g : Integrity → Integrity) : (s.modInt g).held = s.held := rfl
@[simp] theorem modInt_on (g : Integrity → Integrity) : (s.modInt g).on = s.on := rfl

/-! ### modCore -/

@[simp] theorem modCore_pending (c : Nat) (g : CoreSt → CoreSt) : (s.modCore c g).pending = s.pending := rfl
@[simp] theorem modCore_clock (c : Nat) (g : CoreSt → CoreSt) : (s.modCore c g).clock = s.clock := rfl
@[simp] theorem modCore_porAt (c : Nat) (g : CoreSt → CoreSt) : (s.modCore c g).porAt = s.porAt := rfl
@[simp] theorem modCore_fuses (c : Nat) (g : CoreSt → CoreSt) : (s.modCore c g).fuses = s.fuses := rfl
@[simp] theorem modCore_pins (c : Nat) (g : CoreSt → CoreSt) : (s.modCore c g).pins = s.pins := rfl
@[simp] theorem modCore_dict (c : Nat) (g : CoreSt → CoreSt) : (s.modCore c g).dict = s.dict := rfl
@[simp] theorem modCore_eps (c : Nat) (g : CoreSt → CoreSt) : (s.modCore c g).eps = s.eps := rfl
@[simp] theorem modCore_subs (c : Nat) (g : CoreSt → CoreSt) : (s.modCore c g).subs = s.subs := rfl
@[simp] theorem modCore_sessions (c : Nat) (g : CoreSt → CoreSt) : (s.modCore c g).sessions = s.sessions := rfl
@[simp] theorem modCore_blocks (c : Nat) (g : CoreSt → CoreSt) : (s.modCore c g).blocks = s.blocks := rfl
@[simp] theorem modCore_snaps (c : Nat) (g : CoreSt → CoreSt) : (s.modCore c g).snaps = s.snaps := rfl
@[simp] theorem modCore_spi (c : Nat) (g : CoreSt → CoreSt) : (s.modCore c g).spi = s.spi := rfl
@[simp] theorem modCore_mismatch (c : Nat) (g : CoreSt → CoreSt) : (s.modCore c g).mismatch = s.mismatch := rfl
@[simp] theorem modCore_written (c : Nat) (g : CoreSt → CoreSt) : (s.modCore c g).written = s.written := rfl
@[simp] theorem modCore_errRead (c : Nat) (g : CoreSt → CoreSt) : (s.modCore c g).errRead = s.errRead := rfl
@[simp] theorem modCore_everReady (c : Nat) (g : CoreSt → CoreSt) : (s.modCore c g).everReady = s.everReady := rfl
@[simp] theorem modCore_power (c : Nat) (g : CoreSt → CoreSt) : (s.modCore c g).power = s.power := rfl
@[simp] theorem modCore_base (c : Nat) (g : CoreSt → CoreSt) : (s.modCore c g).base = s.base := rfl
@[simp] theorem modCore_dies (c : Nat) (g : CoreSt → CoreSt) : (s.modCore c g).dies = s.dies := rfl
@[simp] theorem modCore_audio (c : Nat) (g : CoreSt → CoreSt) : (s.modCore c g).audio = s.audio := rfl
@[simp] theorem modCore_camera (c : Nat) (g : CoreSt → CoreSt) : (s.modCore c g).camera = s.camera := rfl
@[simp] theorem modCore_time (c : Nat) (g : CoreSt → CoreSt) : (s.modCore c g).time = s.time := rfl
@[simp] theorem modCore_net (c : Nat) (g : CoreSt → CoreSt) : (s.modCore c g).net = s.net := rfl
@[simp] theorem modCore_host (c : Nat) (g : CoreSt → CoreSt) : (s.modCore c g).host = s.host := rfl
@[simp] theorem modCore_security (c : Nat) (g : CoreSt → CoreSt) : (s.modCore c g).security = s.security := rfl
@[simp] theorem modCore_integrity (c : Nat) (g : CoreSt → CoreSt) : (s.modCore c g).integrity = s.integrity := rfl
@[simp] theorem modCore_tmem (c : Nat) (g : CoreSt → CoreSt) : (s.modCore c g).tmem = s.tmem := rfl
@[simp] theorem modCore_clm (c : Nat) (g : CoreSt → CoreSt) : (s.modCore c g).clm = s.clm := rfl
@[simp] theorem modCore_bmem (c : Nat) (g : CoreSt → CoreSt) : (s.modCore c g).bmem = s.bmem := rfl
@[simp] theorem modCore_hmem (c : Nat) (g : CoreSt → CoreSt) : (s.modCore c g).hmem = s.hmem := rfl
@[simp] theorem modCore_out (c : Nat) (g : CoreSt → CoreSt) : (s.modCore c g).out = s.out := rfl
@[simp] theorem modCore_free (c : Nat) (g : CoreSt → CoreSt) : (s.modCore c g).free = s.free := rfl
@[simp] theorem modCore_val (c : Nat) (g : CoreSt → CoreSt) : (s.modCore c g).val = s.val := rfl
@[simp] theorem modCore_rd (c : Nat) (g : CoreSt → CoreSt) : (s.modCore c g).rd = s.rd := rfl
@[simp] theorem modCore_rdB (c : Nat) (g : CoreSt → CoreSt) : (s.modCore c g).rdB = s.rdB := rfl
@[simp] theorem modCore_ready (c : Nat) (g : CoreSt → CoreSt) : (s.modCore c g).ready = s.ready := rfl
@[simp] theorem modCore_held (c : Nat) (g : CoreSt → CoreSt) : (s.modCore c g).held = s.held := rfl
@[simp] theorem modCore_on (c : Nat) (g : CoreSt → CoreSt) : (s.modCore c g).on = s.on := rfl

/-! ### modRink -/

@[simp] theorem modRink_pending (r : Nat) (g : RinkSt → RinkSt) : (s.modRink r g).pending = s.pending := rfl
@[simp] theorem modRink_clock (r : Nat) (g : RinkSt → RinkSt) : (s.modRink r g).clock = s.clock := rfl
@[simp] theorem modRink_porAt (r : Nat) (g : RinkSt → RinkSt) : (s.modRink r g).porAt = s.porAt := rfl
@[simp] theorem modRink_fuses (r : Nat) (g : RinkSt → RinkSt) : (s.modRink r g).fuses = s.fuses := rfl
@[simp] theorem modRink_pins (r : Nat) (g : RinkSt → RinkSt) : (s.modRink r g).pins = s.pins := rfl
@[simp] theorem modRink_dict (r : Nat) (g : RinkSt → RinkSt) : (s.modRink r g).dict = s.dict := rfl
@[simp] theorem modRink_eps (r : Nat) (g : RinkSt → RinkSt) : (s.modRink r g).eps = s.eps := rfl
@[simp] theorem modRink_subs (r : Nat) (g : RinkSt → RinkSt) : (s.modRink r g).subs = s.subs := rfl
@[simp] theorem modRink_sessions (r : Nat) (g : RinkSt → RinkSt) : (s.modRink r g).sessions = s.sessions := rfl
@[simp] theorem modRink_blocks (r : Nat) (g : RinkSt → RinkSt) : (s.modRink r g).blocks = s.blocks := rfl
@[simp] theorem modRink_snaps (r : Nat) (g : RinkSt → RinkSt) : (s.modRink r g).snaps = s.snaps := rfl
@[simp] theorem modRink_spi (r : Nat) (g : RinkSt → RinkSt) : (s.modRink r g).spi = s.spi := rfl
@[simp] theorem modRink_mismatch (r : Nat) (g : RinkSt → RinkSt) : (s.modRink r g).mismatch = s.mismatch := rfl
@[simp] theorem modRink_written (r : Nat) (g : RinkSt → RinkSt) : (s.modRink r g).written = s.written := rfl
@[simp] theorem modRink_errRead (r : Nat) (g : RinkSt → RinkSt) : (s.modRink r g).errRead = s.errRead := rfl
@[simp] theorem modRink_everReady (r : Nat) (g : RinkSt → RinkSt) : (s.modRink r g).everReady = s.everReady := rfl
@[simp] theorem modRink_power (r : Nat) (g : RinkSt → RinkSt) : (s.modRink r g).power = s.power := rfl
@[simp] theorem modRink_base (r : Nat) (g : RinkSt → RinkSt) : (s.modRink r g).base = s.base := rfl
@[simp] theorem modRink_dies (r : Nat) (g : RinkSt → RinkSt) : (s.modRink r g).dies = s.dies := rfl
@[simp] theorem modRink_audio (r : Nat) (g : RinkSt → RinkSt) : (s.modRink r g).audio = s.audio := rfl
@[simp] theorem modRink_camera (r : Nat) (g : RinkSt → RinkSt) : (s.modRink r g).camera = s.camera := rfl
@[simp] theorem modRink_time (r : Nat) (g : RinkSt → RinkSt) : (s.modRink r g).time = s.time := rfl
@[simp] theorem modRink_net (r : Nat) (g : RinkSt → RinkSt) : (s.modRink r g).net = s.net := rfl
@[simp] theorem modRink_host (r : Nat) (g : RinkSt → RinkSt) : (s.modRink r g).host = s.host := rfl
@[simp] theorem modRink_security (r : Nat) (g : RinkSt → RinkSt) : (s.modRink r g).security = s.security := rfl
@[simp] theorem modRink_integrity (r : Nat) (g : RinkSt → RinkSt) : (s.modRink r g).integrity = s.integrity := rfl
@[simp] theorem modRink_tmem (r : Nat) (g : RinkSt → RinkSt) : (s.modRink r g).tmem = s.tmem := rfl
@[simp] theorem modRink_clm (r : Nat) (g : RinkSt → RinkSt) : (s.modRink r g).clm = s.clm := rfl
@[simp] theorem modRink_bmem (r : Nat) (g : RinkSt → RinkSt) : (s.modRink r g).bmem = s.bmem := rfl
@[simp] theorem modRink_hmem (r : Nat) (g : RinkSt → RinkSt) : (s.modRink r g).hmem = s.hmem := rfl
@[simp] theorem modRink_out (r : Nat) (g : RinkSt → RinkSt) : (s.modRink r g).out = s.out := rfl
@[simp] theorem modRink_free (r : Nat) (g : RinkSt → RinkSt) : (s.modRink r g).free = s.free := rfl
@[simp] theorem modRink_val (r : Nat) (g : RinkSt → RinkSt) : (s.modRink r g).val = s.val := rfl
@[simp] theorem modRink_rd (r : Nat) (g : RinkSt → RinkSt) : (s.modRink r g).rd = s.rd := rfl
@[simp] theorem modRink_rdB (r : Nat) (g : RinkSt → RinkSt) : (s.modRink r g).rdB = s.rdB := rfl
@[simp] theorem modRink_ready (r : Nat) (g : RinkSt → RinkSt) : (s.modRink r g).ready = s.ready := rfl
@[simp] theorem modRink_held (r : Nat) (g : RinkSt → RinkSt) : (s.modRink r g).held = s.held := rfl
@[simp] theorem modRink_on (r : Nat) (g : RinkSt → RinkSt) : (s.modRink r g).on = s.on := rfl

/-! ### setActivity -/

@[simp] theorem setActivity_pending (a : Nat) (x : Option Activity) : (s.setActivity a x).pending = s.pending := rfl
@[simp] theorem setActivity_clock (a : Nat) (x : Option Activity) : (s.setActivity a x).clock = s.clock := rfl
@[simp] theorem setActivity_porAt (a : Nat) (x : Option Activity) : (s.setActivity a x).porAt = s.porAt := rfl
@[simp] theorem setActivity_fuses (a : Nat) (x : Option Activity) : (s.setActivity a x).fuses = s.fuses := rfl
@[simp] theorem setActivity_pins (a : Nat) (x : Option Activity) : (s.setActivity a x).pins = s.pins := rfl
@[simp] theorem setActivity_dict (a : Nat) (x : Option Activity) : (s.setActivity a x).dict = s.dict := rfl
@[simp] theorem setActivity_eps (a : Nat) (x : Option Activity) : (s.setActivity a x).eps = s.eps := rfl
@[simp] theorem setActivity_subs (a : Nat) (x : Option Activity) : (s.setActivity a x).subs = s.subs := rfl
@[simp] theorem setActivity_sessions (a : Nat) (x : Option Activity) : (s.setActivity a x).sessions = s.sessions := rfl
@[simp] theorem setActivity_blocks (a : Nat) (x : Option Activity) : (s.setActivity a x).blocks = s.blocks := rfl
@[simp] theorem setActivity_snaps (a : Nat) (x : Option Activity) : (s.setActivity a x).snaps = s.snaps := rfl
@[simp] theorem setActivity_spi (a : Nat) (x : Option Activity) : (s.setActivity a x).spi = s.spi := rfl
@[simp] theorem setActivity_mismatch (a : Nat) (x : Option Activity) : (s.setActivity a x).mismatch = s.mismatch := rfl
@[simp] theorem setActivity_written (a : Nat) (x : Option Activity) : (s.setActivity a x).written = s.written := rfl
@[simp] theorem setActivity_errRead (a : Nat) (x : Option Activity) : (s.setActivity a x).errRead = s.errRead := rfl
@[simp] theorem setActivity_everReady (a : Nat) (x : Option Activity) : (s.setActivity a x).everReady = s.everReady := rfl
@[simp] theorem setActivity_power (a : Nat) (x : Option Activity) : (s.setActivity a x).power = s.power := rfl
@[simp] theorem setActivity_base (a : Nat) (x : Option Activity) : (s.setActivity a x).base = s.base := rfl
@[simp] theorem setActivity_dies (a : Nat) (x : Option Activity) : (s.setActivity a x).dies = s.dies := rfl
@[simp] theorem setActivity_audio (a : Nat) (x : Option Activity) : (s.setActivity a x).audio = s.audio := rfl
@[simp] theorem setActivity_camera (a : Nat) (x : Option Activity) : (s.setActivity a x).camera = s.camera := rfl
@[simp] theorem setActivity_time (a : Nat) (x : Option Activity) : (s.setActivity a x).time = s.time := rfl
@[simp] theorem setActivity_net (a : Nat) (x : Option Activity) : (s.setActivity a x).net = s.net := rfl
@[simp] theorem setActivity_host (a : Nat) (x : Option Activity) : (s.setActivity a x).host = s.host := rfl
@[simp] theorem setActivity_security (a : Nat) (x : Option Activity) : (s.setActivity a x).security = s.security := rfl
@[simp] theorem setActivity_integrity (a : Nat) (x : Option Activity) : (s.setActivity a x).integrity = s.integrity := rfl
@[simp] theorem setActivity_tmem (a : Nat) (x : Option Activity) : (s.setActivity a x).tmem = s.tmem := rfl
@[simp] theorem setActivity_clm (a : Nat) (x : Option Activity) : (s.setActivity a x).clm = s.clm := rfl
@[simp] theorem setActivity_bmem (a : Nat) (x : Option Activity) : (s.setActivity a x).bmem = s.bmem := rfl
@[simp] theorem setActivity_hmem (a : Nat) (x : Option Activity) : (s.setActivity a x).hmem = s.hmem := rfl
@[simp] theorem setActivity_out (a : Nat) (x : Option Activity) : (s.setActivity a x).out = s.out := rfl
@[simp] theorem setActivity_free (a : Nat) (x : Option Activity) : (s.setActivity a x).free = s.free := rfl
@[simp] theorem setActivity_val (a : Nat) (x : Option Activity) : (s.setActivity a x).val = s.val := rfl
@[simp] theorem setActivity_rd (a : Nat) (x : Option Activity) : (s.setActivity a x).rd = s.rd := rfl
@[simp] theorem setActivity_rdB (a : Nat) (x : Option Activity) : (s.setActivity a x).rdB = s.rdB := rfl
@[simp] theorem setActivity_ready (a : Nat) (x : Option Activity) : (s.setActivity a x).ready = s.ready := rfl
@[simp] theorem setActivity_held (a : Nat) (x : Option Activity) : (s.setActivity a x).held = s.held := rfl
@[simp] theorem setActivity_on (a : Nat) (x : Option Activity) : (s.setActivity a x).on = s.on := rfl

/-! ### bput -/

@[simp] theorem bput_pending (a : Nat) (bs : List Byte) : (s.bput a bs).pending = s.pending := rfl
@[simp] theorem bput_clock (a : Nat) (bs : List Byte) : (s.bput a bs).clock = s.clock := rfl
@[simp] theorem bput_porAt (a : Nat) (bs : List Byte) : (s.bput a bs).porAt = s.porAt := rfl
@[simp] theorem bput_fuses (a : Nat) (bs : List Byte) : (s.bput a bs).fuses = s.fuses := rfl
@[simp] theorem bput_pins (a : Nat) (bs : List Byte) : (s.bput a bs).pins = s.pins := rfl
@[simp] theorem bput_dict (a : Nat) (bs : List Byte) : (s.bput a bs).dict = s.dict := rfl
@[simp] theorem bput_eps (a : Nat) (bs : List Byte) : (s.bput a bs).eps = s.eps := rfl
@[simp] theorem bput_subs (a : Nat) (bs : List Byte) : (s.bput a bs).subs = s.subs := rfl
@[simp] theorem bput_sessions (a : Nat) (bs : List Byte) : (s.bput a bs).sessions = s.sessions := rfl
@[simp] theorem bput_blocks (a : Nat) (bs : List Byte) : (s.bput a bs).blocks = s.blocks := rfl
@[simp] theorem bput_snaps (a : Nat) (bs : List Byte) : (s.bput a bs).snaps = s.snaps := rfl
@[simp] theorem bput_spi (a : Nat) (bs : List Byte) : (s.bput a bs).spi = s.spi := rfl
@[simp] theorem bput_mismatch (a : Nat) (bs : List Byte) : (s.bput a bs).mismatch = s.mismatch := rfl
@[simp] theorem bput_written (a : Nat) (bs : List Byte) : (s.bput a bs).written = s.written := rfl
@[simp] theorem bput_errRead (a : Nat) (bs : List Byte) : (s.bput a bs).errRead = s.errRead := rfl
@[simp] theorem bput_everReady (a : Nat) (bs : List Byte) : (s.bput a bs).everReady = s.everReady := rfl
@[simp] theorem bput_power (a : Nat) (bs : List Byte) : (s.bput a bs).power = s.power := rfl
@[simp] theorem bput_base (a : Nat) (bs : List Byte) : (s.bput a bs).base = s.base := rfl
@[simp] theorem bput_dies (a : Nat) (bs : List Byte) : (s.bput a bs).dies = s.dies := rfl
@[simp] theorem bput_audio (a : Nat) (bs : List Byte) : (s.bput a bs).audio = s.audio := rfl
@[simp] theorem bput_camera (a : Nat) (bs : List Byte) : (s.bput a bs).camera = s.camera := rfl
@[simp] theorem bput_time (a : Nat) (bs : List Byte) : (s.bput a bs).time = s.time := rfl
@[simp] theorem bput_net (a : Nat) (bs : List Byte) : (s.bput a bs).net = s.net := rfl
@[simp] theorem bput_host (a : Nat) (bs : List Byte) : (s.bput a bs).host = s.host := rfl
@[simp] theorem bput_security (a : Nat) (bs : List Byte) : (s.bput a bs).security = s.security := rfl
@[simp] theorem bput_integrity (a : Nat) (bs : List Byte) : (s.bput a bs).integrity = s.integrity := rfl
@[simp] theorem bput_compute (a : Nat) (bs : List Byte) : (s.bput a bs).compute = s.compute := rfl
@[simp] theorem bput_tmem (a : Nat) (bs : List Byte) : (s.bput a bs).tmem = s.tmem := rfl
@[simp] theorem bput_clm (a : Nat) (bs : List Byte) : (s.bput a bs).clm = s.clm := rfl
@[simp] theorem bput_hmem (a : Nat) (bs : List Byte) : (s.bput a bs).hmem = s.hmem := rfl
@[simp] theorem bput_out (a : Nat) (bs : List Byte) : (s.bput a bs).out = s.out := rfl
@[simp] theorem bput_free (a : Nat) (bs : List Byte) : (s.bput a bs).free = s.free := rfl
@[simp] theorem bput_val (a : Nat) (bs : List Byte) : (s.bput a bs).val = s.val := rfl
@[simp] theorem bput_rd (a : Nat) (bs : List Byte) : (s.bput a bs).rd = s.rd := rfl
@[simp] theorem bput_rdB (a : Nat) (bs : List Byte) : (s.bput a bs).rdB = s.rdB := rfl
@[simp] theorem bput_ready (a : Nat) (bs : List Byte) : (s.bput a bs).ready = s.ready := rfl
@[simp] theorem bput_held (a : Nat) (bs : List Byte) : (s.bput a bs).held = s.held := rfl
@[simp] theorem bput_on (a : Nat) (bs : List Byte) : (s.bput a bs).on = s.on := rfl

/-! ### hput -/

@[simp] theorem hput_pending (f a : Nat) (bs : List Byte) : (s.hput f a bs).pending = s.pending := rfl
@[simp] theorem hput_clock (f a : Nat) (bs : List Byte) : (s.hput f a bs).clock = s.clock := rfl
@[simp] theorem hput_porAt (f a : Nat) (bs : List Byte) : (s.hput f a bs).porAt = s.porAt := rfl
@[simp] theorem hput_fuses (f a : Nat) (bs : List Byte) : (s.hput f a bs).fuses = s.fuses := rfl
@[simp] theorem hput_pins (f a : Nat) (bs : List Byte) : (s.hput f a bs).pins = s.pins := rfl
@[simp] theorem hput_dict (f a : Nat) (bs : List Byte) : (s.hput f a bs).dict = s.dict := rfl
@[simp] theorem hput_eps (f a : Nat) (bs : List Byte) : (s.hput f a bs).eps = s.eps := rfl
@[simp] theorem hput_subs (f a : Nat) (bs : List Byte) : (s.hput f a bs).subs = s.subs := rfl
@[simp] theorem hput_sessions (f a : Nat) (bs : List Byte) : (s.hput f a bs).sessions = s.sessions := rfl
@[simp] theorem hput_blocks (f a : Nat) (bs : List Byte) : (s.hput f a bs).blocks = s.blocks := rfl
@[simp] theorem hput_snaps (f a : Nat) (bs : List Byte) : (s.hput f a bs).snaps = s.snaps := rfl
@[simp] theorem hput_spi (f a : Nat) (bs : List Byte) : (s.hput f a bs).spi = s.spi := rfl
@[simp] theorem hput_mismatch (f a : Nat) (bs : List Byte) : (s.hput f a bs).mismatch = s.mismatch := rfl
@[simp] theorem hput_written (f a : Nat) (bs : List Byte) : (s.hput f a bs).written = s.written := rfl
@[simp] theorem hput_errRead (f a : Nat) (bs : List Byte) : (s.hput f a bs).errRead = s.errRead := rfl
@[simp] theorem hput_everReady (f a : Nat) (bs : List Byte) : (s.hput f a bs).everReady = s.everReady := rfl
@[simp] theorem hput_power (f a : Nat) (bs : List Byte) : (s.hput f a bs).power = s.power := rfl
@[simp] theorem hput_base (f a : Nat) (bs : List Byte) : (s.hput f a bs).base = s.base := rfl
@[simp] theorem hput_dies (f a : Nat) (bs : List Byte) : (s.hput f a bs).dies = s.dies := rfl
@[simp] theorem hput_audio (f a : Nat) (bs : List Byte) : (s.hput f a bs).audio = s.audio := rfl
@[simp] theorem hput_camera (f a : Nat) (bs : List Byte) : (s.hput f a bs).camera = s.camera := rfl
@[simp] theorem hput_time (f a : Nat) (bs : List Byte) : (s.hput f a bs).time = s.time := rfl
@[simp] theorem hput_net (f a : Nat) (bs : List Byte) : (s.hput f a bs).net = s.net := rfl
@[simp] theorem hput_host (f a : Nat) (bs : List Byte) : (s.hput f a bs).host = s.host := rfl
@[simp] theorem hput_security (f a : Nat) (bs : List Byte) : (s.hput f a bs).security = s.security := rfl
@[simp] theorem hput_integrity (f a : Nat) (bs : List Byte) : (s.hput f a bs).integrity = s.integrity := rfl
@[simp] theorem hput_compute (f a : Nat) (bs : List Byte) : (s.hput f a bs).compute = s.compute := rfl
@[simp] theorem hput_tmem (f a : Nat) (bs : List Byte) : (s.hput f a bs).tmem = s.tmem := rfl
@[simp] theorem hput_clm (f a : Nat) (bs : List Byte) : (s.hput f a bs).clm = s.clm := rfl
@[simp] theorem hput_bmem (f a : Nat) (bs : List Byte) : (s.hput f a bs).bmem = s.bmem := rfl
@[simp] theorem hput_out (f a : Nat) (bs : List Byte) : (s.hput f a bs).out = s.out := rfl
@[simp] theorem hput_free (f a : Nat) (bs : List Byte) : (s.hput f a bs).free = s.free := rfl
@[simp] theorem hput_val (f a : Nat) (bs : List Byte) : (s.hput f a bs).val = s.val := rfl
@[simp] theorem hput_rd (f a : Nat) (bs : List Byte) : (s.hput f a bs).rd = s.rd := rfl
@[simp] theorem hput_rdB (f a : Nat) (bs : List Byte) : (s.hput f a bs).rdB = s.rdB := rfl
@[simp] theorem hput_ready (f a : Nat) (bs : List Byte) : (s.hput f a bs).ready = s.ready := rfl
@[simp] theorem hput_held (f a : Nat) (bs : List Byte) : (s.hput f a bs).held = s.held := rfl
@[simp] theorem hput_on (f a : Nat) (bs : List Byte) : (s.hput f a bs).on = s.on := rfl

end Sys2Proof.Machine.State
end

