-- ==== Sys2Proof/Laws/Updates.lean ====
section
/-!
SUPPORT. What the operations that the chapters share leave as it was, and the outcomes of commands that wait for the
device to be alive.
-/

namespace Sys2Proof.Machine

/-! ### Updates of one part -/

theorem State.modSession_frame (s : State) (n : Nat) (g : Session → Session) : s.Frame [.sessions] [] (s.modSession n g) := by
  refine ⟨fun p hp => ?_, fun j _ _ => rfl⟩
  cases p <;> first | (simp at hp; done) | exact ⟨rfl, rfl, rfl, rfl⟩ | exact ⟨rfl, rfl, rfl⟩ | exact ⟨rfl, rfl⟩ | rfl

theorem State.modSpi_frame (s : State) (g : Spi → Spi) : s.Frame [.spi] [] (s.modSpi g) := by
  refine ⟨fun p hp => ?_, fun j _ _ => rfl⟩
  cases p <;> first | (simp at hp; done) | exact ⟨rfl, rfl, rfl, rfl⟩ | exact ⟨rfl, rfl, rfl⟩ | exact ⟨rfl, rfl⟩ | rfl

theorem State.modPower_frame (s : State) (g : Power → Power) : s.Frame [.power] [] (s.modPower g) := by
  refine ⟨fun p hp => ?_, fun j _ _ => rfl⟩
  cases p <;> first | (simp at hp; done) | exact ⟨rfl, rfl, rfl, rfl⟩ | exact ⟨rfl, rfl, rfl⟩ | exact ⟨rfl, rfl⟩ | rfl

theorem State.modLim_frame (s : State) (d : Nat) (g : DieLimits → DieLimits) : s.Frame [.dies] [] (s.modLim d g) := by
  refine ⟨fun p hp => ?_, fun j _ _ => rfl⟩
  cases p <;> first | (simp at hp; done) | exact ⟨rfl, rfl, rfl, rfl⟩ | exact ⟨rfl, rfl, rfl⟩ | exact ⟨rfl, rfl⟩ | rfl

theorem State.modCh_frame (s : State) (c : Nat) (g : AudioCh → AudioCh) : s.Frame [.audio] [] (s.modCh c g) := by
  refine ⟨fun p hp => ?_, fun j _ _ => rfl⟩
  cases p <;> first | (simp at hp; done) | exact ⟨rfl, rfl, rfl, rfl⟩ | exact ⟨rfl, rfl, rfl⟩ | exact ⟨rfl, rfl⟩ | rfl

theorem State.modRing_frame (s : State) (g : Ring → Ring) : s.Frame [.audio] [] (s.modRing g) := by
  refine ⟨fun p hp => ?_, fun j _ _ => rfl⟩
  cases p <;> first | (simp at hp; done) | exact ⟨rfl, rfl, rfl, rfl⟩ | exact ⟨rfl, rfl, rfl⟩ | exact ⟨rfl, rfl⟩ | rfl

theorem State.modCam_frame (s : State) (i : Nat) (g : CamIn → CamIn) : s.Frame [.camera] [] (s.modCam i g) := by
  refine ⟨fun p hp => ?_, fun j _ _ => rfl⟩
  cases p <;> first | (simp at hp; done) | exact ⟨rfl, rfl, rfl, rfl⟩ | exact ⟨rfl, rfl, rfl⟩ | exact ⟨rfl, rfl⟩ | rfl

theorem State.modFrame_frame (s : State) (i : Nat) (g : Machine.Frame → Machine.Frame) : s.Frame [.camera] [] (s.modFrame i g) := by
  refine ⟨fun p hp => ?_, fun j _ _ => rfl⟩
  cases p <;> first | (simp at hp; done) | exact ⟨rfl, rfl, rfl, rfl⟩ | exact ⟨rfl, rfl, rfl⟩ | exact ⟨rfl, rfl⟩ | rfl

theorem State.modTime_frame (s : State) (g : TimeBase → TimeBase) : s.Frame [.time] [] (s.modTime g) := by
  refine ⟨fun p hp => ?_, fun j _ _ => rfl⟩
  cases p <;> first | (simp at hp; done) | exact ⟨rfl, rfl, rfl, rfl⟩ | exact ⟨rfl, rfl, rfl⟩ | exact ⟨rfl, rfl⟩ | rfl

theorem State.modStream_frame (s : State) (k : Nat) (g : StreamCtx → StreamCtx) : s.Frame [.streams] [] (s.modStream k g) := by
  refine ⟨fun p hp => ?_, fun j _ _ => rfl⟩
  cases p <;> first | (simp at hp; done) | exact ⟨rfl, rfl, rfl, rfl⟩ | exact ⟨rfl, rfl, rfl⟩ | exact ⟨rfl, rfl⟩ | rfl

theorem State.modSec_frame (s : State) (g : Security → Security) : s.Frame [.security] [] (s.modSec g) := by
  refine ⟨fun p hp => ?_, fun j _ _ => rfl⟩
  cases p <;> first | (simp at hp; done) | exact ⟨rfl, rfl, rfl, rfl⟩ | exact ⟨rfl, rfl, rfl⟩ | exact ⟨rfl, rfl⟩ | rfl

theorem State.modInt_frame (s : State) (g : Integrity → Integrity) : s.Frame [.integrity] [] (s.modInt g) := by
  refine ⟨fun p hp => ?_, fun j _ _ => rfl⟩
  cases p <;> first | (simp at hp; done) | exact ⟨rfl, rfl, rfl, rfl⟩ | exact ⟨rfl, rfl, rfl⟩ | exact ⟨rfl, rfl⟩ | rfl

theorem State.modCore_frame (s : State) (c : Nat) (g : CoreSt → CoreSt) : s.Frame [.compute] [] (s.modCore c g) := by
  refine ⟨fun p hp => ?_, fun j _ _ => rfl⟩
  cases p <;> first | (simp at hp; done) | exact ⟨rfl, rfl, rfl, rfl⟩ | exact ⟨rfl, rfl, rfl⟩ | exact ⟨rfl, rfl⟩ | rfl

theorem State.modRink_frame (s : State) (r : Nat) (g : RinkSt → RinkSt) : s.Frame [.compute] [] (s.modRink r g) := by
  refine ⟨fun p hp => ?_, fun j _ _ => rfl⟩
  cases p <;> first | (simp at hp; done) | exact ⟨rfl, rfl, rfl, rfl⟩ | exact ⟨rfl, rfl, rfl⟩ | exact ⟨rfl, rfl⟩ | rfl

theorem State.setActivity_frame (s : State) (a : Nat) (x : Option Activity) : s.Frame [.compute] [] (s.setActivity a x) := by
  refine ⟨fun p hp => ?_, fun j _ _ => rfl⟩
  cases p <;> first | (simp at hp; done) | exact ⟨rfl, rfl, rfl, rfl⟩ | exact ⟨rfl, rfl, rfl⟩ | exact ⟨rfl, rfl⟩ | rfl

/-- A Rink set applies: only a change of it is counted. -/
theorem State.applySet_frame (s : State) (t : Nat) (set : List Nat) :
    s.Frame [.compute, .delivery] [O.TEN_RESPLITS t] (s.applySet t set) := by
  unfold State.applySet
  split
  · exact State.Frame.self s
  · refine State.Frame.comp ?_ ((State.inc_frame _ _).mono (by simp) (by simp))
    refine ⟨fun p hp => ?_, fun j _ _ => rfl⟩
    cases p <;> first | (simp at hp; done) | exact ⟨rfl, rfl, rfl, rfl⟩ | exact ⟨rfl, rfl, rfl⟩ | exact ⟨rfl, rfl⟩ | rfl

/-- A change of a queue pair. -/
theorem State.modQueue_frame (s : State) (f q : Nat) (g : Queue → Queue) : s.Frame [.jobs] [] (s.modQueue f q g) := by
  refine ⟨fun p hp => ?_, fun j _ _ => rfl⟩
  cases p <;> first
    | (simp at hp; done)
    | simp [Part.same, State.modQueue, State.modFunc, modNth, map_modify_same]

/-! ### Free values and draws -/

theorem State.freeBytes_frame (s : State) (n : Nat) : s.Frame [.draws] [] (s.freeBytes n).2 := by
  refine ⟨fun p hp => ?_, fun j _ _ => rfl⟩
  cases p <;> first | (simp at hp; done) | exact ⟨rfl, rfl, rfl, rfl⟩ | exact ⟨rfl, rfl, rfl⟩ | exact ⟨rfl, rfl⟩ | rfl

theorem State.freeVal_frame (s : State) (w : Nat) : s.Frame [.draws] [] (s.freeVal w).2 := by
  refine ⟨fun p hp => ?_, fun j _ _ => rfl⟩
  cases p <;> first | (simp at hp; done) | exact ⟨rfl, rfl, rfl, rfl⟩ | exact ⟨rfl, rfl, rfl⟩ | exact ⟨rfl, rfl⟩ | rfl

theorem State.draw_frame (s : State) (n : Nat) : s.Frame [.security] [] (s.draw n).2 := by
  refine ⟨fun p hp => ?_, fun j _ _ => rfl⟩
  cases p <;> first | (simp at hp; done) | exact ⟨rfl, rfl, rfl, rfl⟩ | exact ⟨rfl, rfl, rfl⟩ | exact ⟨rfl, rfl⟩ | rfl

@[simp] theorem State.freeBytes_length (s : State) (n : Nat) : (s.freeBytes n).1.length = n := by simp [State.freeBytes]
@[simp] theorem State.draw_length (s : State) (n : Nat) : (s.draw n).1.length = n := by simp [State.draw]

/-! ### Passes -/

theorem State.charge_frame (s : State) (act res n : Nat) : s.Frame [.compute] [] (s.charge act res n) := by
  unfold State.charge
  split
  · exact State.Frame.self s
  · refine ⟨fun p hp => ?_, fun j _ _ => rfl⟩
    cases p <;> first | (simp at hp; done) | exact ⟨rfl, rfl, rfl, rfl⟩ | exact ⟨rfl, rfl, rfl⟩ | exact ⟨rfl, rfl⟩ | rfl

/-! ### Requests and targets of power states -/

/-- A recorded request is counted, and is the last one. -/
theorem State.record_frame (s : State) (src flags u : Nat) :
    s.Frame [.delivery] [O.REQUEST_COUNT src, O.LAST_REQUEST_TIME, O.LAST_REQUEST_SOURCE] (s.record src flags u) := by
  unfold State.record
  simp only
  refine State.Frame.comp ?_ (State.Frame.event (State.event_carries _ _ _ _ _) (by simp))
  refine State.Frame.comp ?_ ((State.put_frame _ O.LAST_REQUEST_SOURCE _).mono (by simp) (by simp))
  refine State.Frame.comp ?_ ((State.put_frame _ O.LAST_REQUEST_TIME _).mono (by simp) (by simp))
  exact (s.inc_frame _).one (by simp) (by simp)

/-- A change of the pending target. -/
theorem State.setTarget_frame (s : State) (v src unit flags : Nat) :
    s.Frame [.power, .delivery] [O.TARGET_STATE] (s.setTarget v src unit flags) := by
  unfold State.setTarget
  simp only
  split
  · exact State.Frame.self s
  · refine State.Frame.comp ?_ (State.Frame.event (State.event_carries _ _ _ _ _) (by simp))
    refine State.Frame.comp ?_ ((State.put_frame _ O.TARGET_STATE _).mono (by simp) (by simp))
    exact (s.modPower_frame fun x => { x with
      source := src, unit := unit, early := flags.testBit 2, targetTentative := flags.testBit 0,
      cascade := src == 10 || (x.cascade && v == 4) }).mono (by simp) (by simp)

/-- A request source acts. -/
theorem State.raise_frame (s : State) (src tgt flags : Nat) :
    s.Frame [.power, .delivery] [O.REQUEST_COUNT src, O.LAST_REQUEST_TIME, O.LAST_REQUEST_SOURCE, O.TARGET_STATE]
      (s.raise src tgt flags) := by
  unfold State.raise
  simp only
  have h : s.Frame [.power, .delivery] [O.REQUEST_COUNT src, O.LAST_REQUEST_TIME, O.LAST_REQUEST_SOURCE, O.TARGET_STATE]
      (s.record src (flags &&& 4)) := (s.record_frame _ _ _).mono (by simp) (by
    intro k hk; simp only [List.mem_cons, List.not_mem_nil, or_false] at hk ⊢; rcases hk with h | h | h <;> simp [h])
  split
  · exact h.comp ((State.setTarget_frame _ _ _ _ _).mono (by simp) (by simp))
  · exact h

theorem State.wakeSource_frame (s : State) (src : Nat) :
    s.Frame [.power, .delivery] [O.REQUEST_COUNT src, O.LAST_REQUEST_TIME, O.LAST_REQUEST_SOURCE, O.TARGET_STATE]
      (s.wakeSource src) := s.raise_frame _ _ _

/-! ### The picture -/

theorem State.pictureDrop_frame (s : State) (cond : Nat) :
    s.Frame [.delivery] [O.PICTURE_STATE, O.PICTURE_DROPS, O.PICTURE_LAST_CAUSE] (s.pictureDrop cond) := by
  unfold State.pictureDrop
  exact (((s.setEv_frame _ _ _ _ _).one (by simp) (by simp)).comp ((State.inc_frame _ _).one (by simp) (by simp))).comp
    ((State.wr_frame _ _ _).one (by simp) (by simp))

theorem State.checkPicture_frame (s : State) :
    s.Frame [.delivery, .integrity] [O.PICTURE_STATE, O.PICTURE_DROPS, O.PICTURE_LAST_CAUSE] s.checkPicture := by
  unfold State.checkPicture
  simp only
  split
  · split
    · exact State.Frame.self s
    · exact (s.wr_frame _ _).one (by simp) (by simp)
  · have h : s.Frame [.delivery, .integrity] [O.PICTURE_STATE, O.PICTURE_DROPS, O.PICTURE_LAST_CAUSE]
        (s.modInt fun x => { x with picFailed := setBit x.picFailed s.pictureCond }) :=
      (s.modInt_frame _).mono (by simp) (by simp)
    split
    · exact h.comp ((State.pictureDrop_frame _ _).mono (by simp) (by simp))
    · exact h.comp ((State.wr_frame _ _ _).one (by simp) (by simp))

/-- OUTPUT_INVALID of a tenant. -/
theorem State.outputInvalid_frame (s : State) (t : Nat) :
    s.Frame [.delivery, .integrity] [O.OUTPUT_INVALID t, O.PICTURE_STATE, O.PICTURE_DROPS, O.PICTURE_LAST_CAUSE]
      (s.outputInvalid t) := by
  unfold State.outputInvalid
  simp only
  have h : s.Frame [.delivery, .integrity] [O.OUTPUT_INVALID t, O.PICTURE_STATE, O.PICTURE_DROPS, O.PICTURE_LAST_CAUSE]
      (s.modInt fun x => { x with causeRound := modNth x.causeRound t fun _ => s.rd O.KAT_ROUNDS }) :=
    (s.modInt_frame _).mono (by simp) (by simp)
  have h := h.comp ((State.setEv_frame _ (O.OUTPUT_INVALID t) 1 0x8005 0xFF 0).one (by simp) (by simp))
  split
  · exact h.comp ((State.pictureDrop_frame _ _).mono (by simp) (by simp))
  · exact h

/-! ### The device safe state -/

theorem State.sendHeartbeat_carries (s : State) {n : Nat} (h : n < 16) (sleeping : Bool) :
    s.Carries (s.sendHeartbeat n sleeping) := by
  unfold State.sendHeartbeat
  split
  · split
    · exact (s.sendUdp_carries h _ _).comp (State.modEp_frame _ _ _)
    · exact State.Frame.self s
  · exact State.Frame.self s

theorem State.sendHeartbeats_carries (s : State) (sleeping : Bool) : s.Carries (s.sendHeartbeats sleeping) := by
  unfold State.sendHeartbeats
  exact State.Frame.fold _ _ _ fun s n hn => s.sendHeartbeat_carries (List.mem_range.mp hn) _

/-! ### Commands that the device attends to -/

theorem whenAlive_of {s : State} (h : s.alive = true) (f : State → State) : whenAlive s f = .next (f s) := by
  simp [whenAlive, h]
theorem whenAlive_not {s : State} (h : s.alive = false) (f : State → State) : whenAlive s f = .next s := by
  simp [whenAlive, h]
theorem whenOk_of {s : State} {c : Bool} (h : s.alive = true) (hc : c = true) (f : State → State) :
    whenOk c s f = .next (f s) := by simp [whenOk, h, hc]
theorem whenOk_not {s : State} {c : Bool} (h : s.alive = false ∨ c = false) (f : State → State) :
    whenOk c s f = .next s := by rcases h with h | h <;> simp [whenOk, h]

end Sys2Proof.Machine
end

