-- ==== Sys2Proof/Tests/Slice0.lean ====
section
/-!
SUPPORT. Tests: ill-formed commands that the checks refuse, small steps whose results the spec states, and for the
statements of Obligations.lean with hypotheses, states and operands that meet all of them together.  A clause whose
hypothesis asks that an opaque check accepts (an authentication tag under a key the device drew, the verify data of a
FINISH, a certificate chain) has no decidable witness, and none is given for it: nothing in Lean evaluates such a check.
-/

namespace Sys2Proof.Tests

open Sys2Proof Sys2Proof.Machine

set_option Elab.async false

/-- A released device whose every unit is ready, with the objects named at the values given. -/
def up (kvs : List (Nat × Nat)) : State :=
  { State.reset with
    dict := (kvs ++ [(O.DEVICE_SAFE, 0), (O.READY, 2 ^ 54 - 1), (O.HELD, 0), (O.POWER_STATE, 4), (O.TARGET_STATE, 4),
      (O.LINK_STATE, 2)]).foldr (fun (p : Nat × Nat) (d : List (Nat × Val)) => kvPut p.1 (.n p.2) d) [],
    pins := { State.reset.pins with powered := true, porN := true, refInRange := true, perstN := true } }

/-- The objects of the first `n` numbers, all at `v`. -/
def each (n : Nat) (f : Nat → Nat) (v : Nat) : List (Nat × Nat) := (List.range n).map fun i => (f i, v)

/-- Every power domain On, every tenant admitted with its function, and nothing claimed or enabled, with the objects named at the values
given. -/
def running (kvs : List (Nat × Nat)) : State :=
  let s := up (kvs ++ each 96 O.STREAM_CLAIM 0xFF ++ each 80 O.DOMAIN_POWER 2 ++ each 16 O.CAM_OWNER 0xFF ++
    each 32 O.TEN_RINKS 0 ++ each 2 O.DIE_STATE 1 ++ each 32 O.SLOT_STATE 2)
  { s with host := { s.host with vfEnable := true } }

/-- A BARRIER (Table 8.2): no operand, no table. -/
def barrierBytes : List Byte :=
  [0x13, 0, 0, 0] ++ List.replicate 10 0xFF ++ [0, 0] ++ List.replicate 8 0xFF ++ List.replicate 40 0

/-- A program of one BARRIER at offset 64 whose header is that of Table 8.1: the target's flag and its budget. -/
def barrierProg (flags budget : Nat) : List Byte :=
  leBytes 4 0x5A565047 ++ leBytes 2 1 ++ leBytes 2 flags ++ leBytes 4 1 ++ leBytes 2 1 ++ leBytes 2 0 ++ leBytes 4 64 ++
  leBytes 4 128 ++ leBytes 4 budget ++ List.replicate 36 0 ++ barrierBytes ++ List.replicate 32 0

/-- The header of a request for one subindex with `len` bytes of payload. -/
def hdr (index : Fin 65536) (sub : Fin 256) (len : Fin 65536) : NypHdr :=
  { version := 1, flags := 0, tenantByte := 0, session := 0, seq := 7, index, sub, count := 1, length := len, status := 0 }

/-! ### Steps, reset, rails and clocks -/

theorem wit_StepRunsTheFrontCommand : { up [] with pending := [.hostWake, .l1Exit] }.pending = .hostWake :: [.l1Exit] := rfl

theorem wit_EmptyQueueLetsTimePass : (up []).pending = [] := rfl

theorem wit_ResetsRestorePowerUpValues :
    let s := up []
    s.released = true ∧ 10000 ≤ 10000 ∧ 1999 < 2000 ∧ 2000 ≤ 9999 ∧ 9999 < 10000 ∧ s.pins.powered = true := by
  decide +kernel

theorem wit_ReleaseStartsBringup :
    let s := { up [] with pins := { State.reset.pins with powered := true } }
    s.pins.powered = true ∧ s.pins.porN = false ∧ s.rd O.DEVICE_SAFE = 0 := by decide +kernel

theorem wit_InternalResetsRestart :
    let s := { up [(O.WDOG_RESETS, 254)] with clock := 10000000001, pins := { (up []).pins with lastWdog := some 0 } }
    let s' := { s with clock := 10000000000 }
    (s.released = true ∧ s.pins.testEn = false ∧ s.pins.refInRange = true ∧ (719 : Fin 65536).val < 720) ∧
    (s.alive = true ∧ s.rd O.WDOG_RESETS < 255 ∧ s.pins.lastWdog = some 0 ∧ 0 + 10000000000 < s.clock) ∧
    (s'.alive = true ∧ s'.pins.lastWdog = some 0 ∧ s'.clock ≤ 0 + 10000000000) := by decide +kernel

theorem wit_UnitsReportReadyOrHeld :
    let s := running [(O.READY, 2 ^ 54 - 1 - 2 ^ 0x35)]
    s.alive = true ∧ s.comingUp (0x35 : Fin 54) = true := by decide +kernel

theorem wit_RailsOutOfRangeAreActedOnOnce :
    let s := up []
    let s' := { s with pins := { s.pins with railActed := 1 } }
    (s.alive = true ∧ s.ready 0x33 = true ∧ (0 : Fin 9) ≠ 1 ∧ s.pins.railActed.testBit (0 : Fin 9) = false ∧
      (5 : Fin 9) ≠ 1 ∧ s.pins.railActed.testBit (5 : Fin 9) = false ∧ (8 : Fin 9) ≠ 1 ∧
      s.pins.railActed.testBit (8 : Fin 9) = false) ∧
    (s'.alive = true ∧ s'.ready 0x33 = true ∧ s'.pins.railActed.testBit (0 : Fin 9) = true) := by decide +kernel

theorem wit_FailedPhasesLeaveTheRotation :
    let s := up [(O.REG_STATE 0, 1), (O.REG_PHASE_MAP 0, 0xFF), (O.REG_STATE 2, 3), (O.REG_PHASE_MAP 2, 8),
      (O.POWER_STATE, 2)]
    (s.alive = true ∧ s.regRuns (0 : Fin 3) = true ∧
      (s.rd (O.REG_PHASE_MAP (0 : Fin 3))).testBit (7 : Fin 8) = true) ∧
    (s.regBursts (2 : Fin 3) = true ∧ (s.rd (O.REG_PHASE_MAP (2 : Fin 3))).testBit (s.burstPhase (2 : Fin 3)) = true ∧
      50 ≤ 50 ∧ 49 < 50) ∧
    s.rd O.POWER_STATE ≤ 2 ∧
    (6 ≤ popCount 8 (clrBit (s.rd (O.REG_PHASE_MAP 0)) 7) ∧
      26000 ≤ ((s.removePhase 0 7 1 ⟨26000, 0⟩).rd (O.REG_ILIMIT_MA 0))) := by decide +kernel

theorem wit_FrequencyFollowsPowerAndDemand :
    let s := up [(O.DIE_STATE 1, 1), (O.DIE_POWER_LIMIT_MW 1, 1000), (O.FREQ_MIN_MHZ 3, 200), (O.FREQ_MAX_MHZ 3, 200)]
    (s.alive = true ∧ s.ready 0x33 = true ∧ s.dieServes (1 : Fin 2) = true ∧ s.dies.length = 2) ∧
    s.rd (O.DIE_POWER_LIMIT_MW (1 : Fin 2)) < (1001 : Fin 4294967296).val ∧
    (1000 : Fin 4294967296).val ≤ s.rd (O.DIE_POWER_LIMIT_MW (1 : Fin 2)) ∧
    s.rd (O.FREQ_MIN_MHZ 3) ≤ s.rd (O.FREQ_MAX_MHZ 3) := by decide +kernel

theorem wit_ThermalLimitsFollowTemperature :
    let s := up [(O.THERMAL_THROTTLE_C, 100), (O.THERMAL_CRITICAL_C, 110), (O.DIE_STATE 1, 1)]
    let s' := s.modLim 1 fun x => { x with waitCool := true }
    (s.alive = true ∧ s.ready 0x33 = true ∧ s.dies.length = 2 ∧ s.rdI 16 O.THERMAL_THROTTLE_C ≤ 100) ∧
    97 + 2 < s.rdI 16 O.THERMAL_THROTTLE_C ∧
    (s.rdI 16 O.THERMAL_CRITICAL_C ≤ 110 ∧ s.rd (O.DIE_STATE (1 : Fin 2)) < 2) ∧
    (s'.alive = true ∧ (s'.lim (1 : Fin 2)).waitCool = true ∧ 90 + 10 ≤ s'.rdI 16 O.THERMAL_THROTTLE_C) := by
  decide +kernel

theorem wit_ClockFaultsTakeTheirAction :
    let s := up [(O.POWER_STATE, 3), (O.PLL_LOCKED, 0x3FFF), (O.XTAL32K_STATE, 0)]
    let s1 := up [(O.XTAL32K_STATE, 1)]
    let s2 := up [(O.XTAL32K_STATE, 2)]
    (s.alive = true ∧ 3 ≤ s.rd O.POWER_STATE ∧ (s.rd O.PLL_LOCKED).testBit (13 : Fin 14) = true ∧
      (s.rd O.PLL_LOCKED).testBit (0 : Fin 14) = true ∧ s.rd O.XTAL32K_STATE = 0) ∧
    (s1.alive = true ∧ s1.rd O.XTAL32K_STATE = 1) ∧ (s2.alive = true ∧ s2.rd O.XTAL32K_STATE = 2) := by decide +kernel


/-! ### Balls, the link and power states -/

theorem wit_BallsActAsRequestSources :
    let s := up [(O.PRIVACY, 0)]
    let w : WakeRec := { time := 0, source := 1, early := false, frame := 0 }
    let s' := { up [(O.PRIVACY, 1)] with audio := { State.reset.audio with
      ring := { State.reset.audio.ring with latch := some w } } }
    (s.alive = true ∧ s.pins.wakeDriven = false ∧ s.pins.pttPressed = false ∧ s.pins.pttBlocked = false ∧
      s.audio.ring.latch = none ∧ s.audio.ring.handover = none ∧ s.rd O.PRIVACY = 0) ∧
    (s'.alive = true ∧ s'.pins.pttPressed = false ∧ s'.pins.pttBlocked = false ∧ s'.audio.ring.latch.isSome = true ∧
      s'.rd O.PRIVACY = 1) := by decide +kernel

theorem wit_LinkStatesFollowTheLink :
    let s := up [(O.LINK_STATE, 0), (O.DOMAIN_POWER 56, 2)]
    let s2 := up [(O.LINK_STATE, 2)]
    let s4 := up [(O.LINK_STATE, 4)]
    let s5 := up [(O.LINK_STATE, 5)]
    (s.alive = true ∧ s.domOn 56 = true ∧ s.rd O.LINK_STATE = 0 ∧ s.pins.perstN = true ∧ (1 : Fin 6) ≠ 0 ∧
      (5 : Fin 6) ≠ 0 ∧ (8 : Fin 9).val ∈ [1, 2, 4, 8]) ∧
    (s2.alive = true ∧ s2.rd O.LINK_STATE ≠ 0 ∧ 2 ≤ s2.rd O.LINK_STATE ∧ s2.rd O.LINK_STATE ≤ 4 ∧
      s2.rd O.LINK_STATE = 2) ∧
    (s4.alive = true ∧ 2 ≤ s4.rd O.LINK_STATE ∧ s4.rd O.LINK_STATE ≤ 4 ∧ s4.rd O.LINK_STATE = 4) ∧
    (s5.alive = true ∧ s5.rd O.LINK_STATE ≠ 0) := by decide +kernel

theorem wit_FunctionsAnswerAndReset :
    let s := up []
    let s0 := up [(O.READY, 0)]
    let s' := { s with host := { s.host with vfEnable := true } }
    (s.alive = true ∧ s.pins.perstN = true ∧ s.ready 0x20 = true ∧ (31 : Fin 32) ≠ 0 ∧ s.host.vfEnable = false ∧
      s.linkUp = true) ∧
    (s0.alive = true ∧ s0.pins.perstN = true ∧ s0.ready 0x20 = false) ∧
    (s'.alive = true ∧ s'.pins.perstN = true ∧ s'.ready 0x20 = true ∧ s'.linkUp = true ∧ s'.host.vfEnable = true) := by
  decide +kernel

/-- A device on its way to `dest`, in step `step`. -/
def moving (dest step : Nat) (kvs : List (Nat × Nat)) : State :=
  let s := running (kvs ++ [(O.MID_RINK, 0), (O.MID_CORE, 0), (O.MID_CAMERA, 0), (O.XTAL32K_STATE, 1),
    (O.BASE_IDLE_MS, 1000), (O.IDLE_FLOOR, 1)])
  let x : Trans := { origin := s.rd O.POWER_STATE, dest, step, source := 14, unit := 0x2B, early := false, startedAt := 0 }
  { s with power := { s.power with trans := some x } }

/-- The same device before it sets out. -/
def settled (kvs : List (Nat × Nat)) : State :=
  let s := moving 0 0 kvs
  { s with power := { s.power with trans := none } }

theorem wit_EntriesAreRefusedAbandonedOrReachTheirState_start :
    let s := settled [(O.TARGET_STATE, 3)]
    let s0 := s.put O.TRANSITION_ORIGIN (.n (s.rd O.POWER_STATE))
    let r := { s with security := { s.security with tasks := [.remove 5] } }
    let r0 := r.put O.TRANSITION_ORIGIN (.n (r.rd O.POWER_STATE))
    let q := settled [(O.TARGET_STATE, 2)]
    let q0 := q.put O.TRANSITION_ORIGIN (.n (q.rd O.POWER_STATE))
    (s.alive = true ∧ s.power.trans = none ∧ s.power.bringup = false ∧ s.rd O.TARGET_STATE < s.rd O.POWER_STATE ∧
      s0.dieWait 3 = false ∧ s0.refusal 3 = none ∧ 2 < s.rd O.TARGET_STATE) ∧
    (r.alive = true ∧ r.power.trans = none ∧ r.power.bringup = false ∧ r.rd O.TARGET_STATE < r.rd O.POWER_STATE ∧
      r0.dieWait 3 = false ∧ (r0.refusal 3).isSome = true) ∧
    (q.alive = true ∧ q.power.trans = none ∧ q.power.bringup = false ∧ q.rd O.TARGET_STATE < q.rd O.POWER_STATE ∧
      q0.dieWait 2 = false ∧ q0.refusal 2 = none ∧ q.rd O.TARGET_STATE ≤ 2 ∧ 3 ≤ q.rd O.POWER_STATE ∧
      q0.linkQuiet = false) := by decide +kernel

theorem wit_EntriesAreRefusedAbandonedOrReachTheirState_steps :
    let s := moving 2 0x10 [(O.TARGET_STATE, 2), (O.LINK_STATE, 5)]
    let f := moving 2 0x10 [(O.TARGET_STATE, 4), (O.LINK_STATE, 5)]
    let q := moving 2 0x10 [(O.TARGET_STATE, 2)]
    let d := moving 3 0x12 [(O.TARGET_STATE, 3)]
    let e := moving 3 0x12 [(O.TARGET_STATE, 4)]
    (∀ t ∈ [s, f], t.alive = true ∧ (∀ x ∈ t.power.trans, x.dest < x.origin ∧ x.step = 0x10 ∧ t.dieWait x.dest = false) ∧
      t.power.trans.isSome = true ∧ t.linkQuiet = true) ∧
    (∀ x ∈ s.power.trans, s.farSide x = false) ∧ (∀ x ∈ f.power.trans, f.farSide x = true) ∧
    (q.alive = true ∧ q.power.trans.isSome = true ∧ q.linkQuiet = false ∧
      ∀ x ∈ q.power.trans, x.dest < x.origin ∧ x.step = 0x10 ∧ x.dest ≤ 2) ∧
    (∀ t ∈ [d, e], t.alive = true ∧ t.power.trans.isSome = true ∧
      ∀ x ∈ t.power.trans, x.dest < x.origin ∧ x.origin ≤ 4 ∧ x.step = 0x12 ∧ t.drained x = true ∧
        unitExists (0x35 : Fin 54) = true ∧ t.leaving x (0x35 : Fin 54) = true) ∧
    (∀ x ∈ d.power.trans, d.farSide x = false) ∧ (∀ x ∈ e.power.trans, e.farSide x = true) := by decide +kernel

theorem wit_ExitsGoStepByStep :
    let s := settled [(O.POWER_STATE, 1)]
    let i := settled [(O.POWER_STATE, 2), (O.TARGET_STATE, 2)]
    let a := moving 4 0x29 [(O.POWER_STATE, 2), (O.TARGET_STATE, 4)]
    let b := moving 4 0x23 [(O.POWER_STATE, 2), (O.TARGET_STATE, 2)]
    let t := { up [(O.POWER_STATE, 2)] with power := { State.reset.power with source := 13 } }
    (s.alive = true ∧ s.power.trans = none ∧ s.power.bringup = false ∧ s.rd O.POWER_STATE < s.rd O.TARGET_STATE) ∧
    (∀ u ∈ [a, b], u.alive = true ∧ u.power.trans.isSome = true ∧
      ∀ x ∈ u.power.trans, x.origin < x.dest ∧ x.origin ≤ 2 ∧ 3 ≤ x.dest ∧ x.dest ≤ 4) ∧
    (∀ x ∈ a.power.trans, x.step = 0x29 ∧ a.allUp x.dest = true ∧ a.farSide x = false) ∧
    (∀ x ∈ b.power.trans, x.step = 0x23 ∧ b.farSide x = true) ∧
    (t.alive = true ∧ t.power.source = 13 ∧ t.rd O.TARGET_STATE ≠ t.rd O.POWER_STATE) ∧
    (i.alive = true ∧ i.power.trans = none ∧ i.power.bringup = false ∧ i.rd O.TARGET_STATE = i.rd O.POWER_STATE ∧
      i.idleHeld = false ∧ i.rd O.IDLE_FLOOR < i.rd O.POWER_STATE ∧
      i.rd (if i.rd O.POWER_STATE = 4 then O.SUMMIT_IDLE_MS else if i.rd O.POWER_STATE = 3 then O.MID_IDLE_MS
        else O.BASE_IDLE_MS) ≠ 0) := by decide +kernel

/-- A Base engine with an armed program of one BARRIER at 0x10000, and `v` in its decision word. -/
def baseArmed (v : Nat) : State :=
  let s := up [(O.DOMAIN_POWER 77, 2), (O.DOMAIN_POWER 79, 2), (O.CH_MODE 3, 2), (O.COMP_ENABLE, 8), (O.BASE_TENANT, 31),
    (O.BASE_PROGRAM 31, 0x10000), (O.ESTIMATOR_STATE, 1), (O.WAKE_THRESHOLD, 65535)]
  ({ s with base := { s.base with started := true } }.bput 0x10000 (barrierProg 1 65536)).bput 0xEFFF8 (leBytes 8 v)

theorem wit_BaseLiftWakesAndRetracts :
    let s := baseArmed 65535
    let n := baseArmed (2 ^ 64 - 1)
    let d := up [(O.BASE_PROGRAM 0, 0xFFFFFFFF), (O.BASE_TENANT, 0), (O.TARGET_STATE, 3)]
    let p := { d with power := { d.power with prewake := true, targetTentative := true } }
    (s.alive = true ∧ s.domOn 79 = true ∧ s.ready 0x27 = true ∧ s.rd (O.CH_MODE (3 : Fin 4)) = 2 ∧
      (s.rd O.COMP_ENABLE).testBit (3 : Fin 4) = true ∧ s.rd (O.BASE_PROGRAM (s.rd O.BASE_TENANT)) ≠ 0xFFFFFFFF ∧
      s.domOn 77 = true) ∧
    (∀ t ∈ [s, n], t.alive = true ∧ t.base.started = true ∧ t.domOn 77 = true ∧ t.ready 0x2A = true ∧
      (t.liftProg false (t.rd (O.BASE_PROGRAM (t.rd O.BASE_TENANT)))).isSome = true) ∧
    (∀ g ∈ s.liftProg false 0x10000, let r := (s.liftRun false g).takeDecision false
      0 ≤ r.1 ∧ r.1 ≤ 65535 ∧ r.2.rd O.WAKE_THRESHOLD ≤ r.1.toNat) ∧
    (∀ g ∈ n.liftProg false 0x10000, ((n.liftRun false g).takeDecision false).1 = -1) ∧
    (d.rd (O.BASE_PROGRAM (d.rd O.BASE_TENANT)) = 0xFFFFFFFF ∧ d.alive = true ∧ d.power.prewake = false) ∧
    (p.alive = true ∧ p.power.prewake = true ∧ p.power.targetTentative = true ∧ p.rd O.TARGET_STATE = 3) := by
  decide +kernel

/-- A Mid core in its run of a program of one BARRIER at 0x40000, with `v` in its decision word. -/
def midArmed (v : Nat) : State :=
  let s := up [(O.MID_RINK, 3), (O.MID_CORE, 3), (O.MID_TENANT, 31), (O.MID_PROGRAM 31, 0x40000), (O.POWER_STATE, 3)]
  ({ s with power := { s.power with midRun := true } }.cput 15 0x40000 (barrierProg 0 0x40000)).cput 15 0x1FEFF8
    (leBytes 8 v)

theorem wit_MidLiftConfirmsOrRejects :
    ∀ v ∈ [0, 1, 2],
      let s := midArmed v
      s.alive = true ∧ s.power.midRun = true ∧ s.rd O.POWER_STATE = 3 ∧ s.ready s.midCoreNo = true ∧
      (s.liftProg true (s.rd (O.MID_PROGRAM (s.rd O.MID_TENANT)))).isSome = true ∧
      ∀ g ∈ s.liftProg true 0x40000, ((s.liftRun true g).takeDecision true).1 = v := by decide +kernel


/-! ### NYP -/

/-- Session slot 15 OPEN for tenant 0 on port 1, and slot 0 as `st` says on port 0. -/
def withSession (st : Nat) : State :=
  running [(O.SESSION_STATE 15, 2), (O.SESSION_TENANT 15, 0), (O.SESSION_PORTS 15, 2), (O.SESSION_STATE 0, st),
    (O.SESSION_TENANT 0, 0), (O.SESSION_PORTS 0, 1), (O.UDP_ENABLE, 3), (O.SPI_AUTHORITY, 1)]

theorem wit_RequestsAreAnswered :
    let s := withSession 3
    let safe := up [(O.DEVICE_SAFE, 1), (O.SPI_AUTHORITY, 1)]
    let q := (Req.ofHdr 0 (hdr 0x2200 1 0) []).via .spi
    let bad := (Req.ofHdr 0 (hdr 0x1018 2 1) []).via (.mailbox 0)
    let open_ := (Req.ofHdr 0xA (hdr 0 0 1) [1]).via (.session 0)
    let busy := s.modFunc 31 fun x => { x with respReady := true }
    (s.sized = true ∧ s.hears (.mailbox 0) q = true ∧ s.hears .spi q = true ∧ s.hears (.session 15) q = true ∧
      s.hears (.mailbox 0) bad = true ∧ bad.bad (isNetEp (.mailbox 0)) = true) ∧
    (safe.sized = true ∧ safe.hears .spi q = true ∧ q.bad (isNetEp .spi) = false ∧ safe.on O.DEVICE_SAFE = true ∧
      safeAnswers q = false) ∧
    (s.hears (.session 0) open_ = true ∧ isNetEp (.session 0) = true ∧ isNetEp (.mailbox 0) = false) ∧
    busy.hears (.mailbox 31) q = false := by decide +kernel

theorem wit_ReadsReturnTheValue :
    let s := withSession 3
    let q := (Req.ofHdr 0 (hdr 0x3020 0x19 0) []).via (.mailbox 0)
    let b (p : List Byte) := (Req.ofHdr 2 (hdr 0x3020 0x19 8) p).via (.mailbox 0)
    let k := okey 0x3020 0x19 0
    let held := { s with snaps := [{ key := k, ep := 0, bytes := [1, 2, 3, 4, 5, 6, 7, 8] }] }
    (s.sized = true ∧ s.hears (.mailbox 0) q = true ∧ q.bad (isNetEp (.mailbox 0)) = false ∧ s.on O.DEVICE_SAFE = false ∧
      q.count = 1 ∧ (objInfo q.idx q.sub).isSome = true ∧
      firstAbort ((s.posted (.mailbox 0) q).epAborts (epIdx (.mailbox 0)) q ++
        readAborts (s.epTenant (epIdx (.mailbox 0))) q q.sub) = none) ∧
    (∀ p ∈ [leBytes 4 0 ++ leBytes 4 4, leBytes 4 8 ++ leBytes 4 4], held.sized = true ∧ held.on O.DEVICE_SAFE = false ∧
      held.hears (.mailbox 0) (b p) = true ∧ (b p).bad (isNetEp (.mailbox 0)) = false ∧
      firstAbort ((held.posted (.mailbox 0) (b p)).epAborts (epIdx (.mailbox 0)) (b p) ++
        readAborts (held.epTenant (epIdx (.mailbox 0))) (b p) (b p).sub) = none ∧ field p 0 4 ≤ 8) ∧
    (∀ r ∈ objInfo 0x3020 0x19, instKey r 0x3020 0x19 0 = k) ∧
    (held.snaps.find? fun x => x.key == k && x.ep == epIdx (.mailbox 0)).isSome = true ∧
    (let b := b (leBytes 4 8 ++ leBytes 4 4)
     s.hears (.mailbox 0) b = true ∧ firstAbort ((s.posted (.mailbox 0) b).epAborts (epIdx (.mailbox 0)) b ++
        readAborts (s.epTenant (epIdx (.mailbox 0))) b b.sub) = none ∧ field b.payload 0 4 ≠ 0 ∧
      (s.snaps.find? fun x => x.key == k && x.ep == epIdx (.mailbox 0)).isSome = false) ∧ s.alive = true := by
  decide +kernel

theorem wit_WritesTakeEffectWholeOrNotAtAll :
    let s := withSession 3
    let p := leBytes 8 0x0102030405060708
    let q := (Req.ofHdr 1 (hdr 0x3020 0x19 8) p).via (.mailbox 0)
    let ro := (Req.ofHdr 1 (hdr 0x1018 2 4) [1, 2, 3, 4]).via (.mailbox 0)
    let first := leBytes 4 0 ++ leBytes 4 8 ++ p.take 4
    let last := leBytes 4 4 ++ leBytes 4 8 ++ p.drop 4
    let more : NypHdr := { hdr 0x3020 0x19 12 with flags := 4 }
    let q1 := (Req.ofHdr 3 more first).via (.mailbox 0)
    let q2 := (Req.ofHdr 3 (hdr 0x3020 0x19 12) last).via (.mailbox 0)
    let x : BlockXfer := { key := okey 0x3020 0x19 0, ep := 0, total := 8, bytes := p.take 4 }
    let b := { s with blocks := [x] }
    (s.sized = true ∧ s.on O.DEVICE_SAFE = false ∧ s.hears (.mailbox 0) q = true ∧
      q.bad (isNetEp (.mailbox 0)) = false ∧ q.count = 1 ∧ (objInfo q.idx q.sub).isSome = true ∧
      (∀ r ∈ objInfo q.idx q.sub, r.scope = .dev ∧ firstAbort ((s.posted (.mailbox 0) q).epAborts 0 q ++
        (s.posted (.mailbox 0) q).formAborts 0 0 r (instKey r q.idx q.sub q.tenant) q.tenant ++
        (s.posted (.mailbox 0) q).valueAborts 0 0 r (instKey r q.idx q.sub q.tenant) p) = none)) ∧
    (s.hears (.mailbox 0) ro = true ∧ ro.bad (isNetEp (.mailbox 0)) = false ∧ ro.manyBlobs = false ∧
      (State.writeSubs 0 0 ro ((s.posted (.mailbox 0) ro).epAborts 0 ro) ro.count ro.sub [1, 2, 3, 4]
        (s.posted (.mailbox 0) ro)).toOption.isNone = true) ∧
    (s.hears (.mailbox 0) q1 = true ∧ q1.bad (isNetEp (.mailbox 0)) = false ∧ (∀ r ∈ objInfo q1.idx q1.sub,
      firstAbort ((s.posted (.mailbox 0) q1).epAborts 0 q1 ++
        (s.posted (.mailbox 0) q1).formAborts 0 0 r (instKey r q1.idx q1.sub q1.tenant) q1.tenant) = none ∧
      r.ty.lenOk 8 = true) ∧ segBad none 0 8 4 (q1.flags.testBit 2) = false) ∧
    (b.sized = true ∧ b.on O.DEVICE_SAFE = false ∧ b.hears (.mailbox 0) q2 = true ∧
      q2.bad (isNetEp (.mailbox 0)) = false ∧ (∀ r ∈ objInfo q2.idx q2.sub,
        x.key = instKey r q2.idx q2.sub q2.tenant ∧ firstAbort ((b.posted (.mailbox 0) q2).epAborts 0 q2 ++
        ((b.posted (.mailbox 0) q2).dropXfer x.key 0).formAborts 0 0 r x.key q2.tenant ++
        ((b.posted (.mailbox 0) q2).dropXfer x.key 0).valueAborts 0 0 r x.key p) = none) ∧
      segBad (some x) 4 8 4 (q2.flags.testBit 2) = false) := by decide +kernel

theorem wit_SubscriptionsCarryTheLatestChange :
    let s := withSession 3
    let p := leBytes 4 1000000
    let q := (Req.ofHdr 4 (hdr 0x2200 1 4) p).via (.mailbox 0)
    let u := (Req.ofHdr 5 (hdr 0x2200 1 0) []).via (.mailbox 0)
    let e : EvInfo := { time := 0, code := 0x2200, unit := 0x2B, flags := 0, value := [3] }
    let w := { s with subs := [{ ep := 48, key := O.POWER_STATE, intervalUs := 1000, windowOpen := true, combined := some e }] }
    (s.sized = true ∧ s.on O.DEVICE_SAFE = false ∧ s.hears (.mailbox 0) q = true ∧ q.bad (isNetEp (.mailbox 0)) = false ∧
      q.count = 1 ∧ (∀ r ∈ objInfo q.idx q.sub, (encodeVal r.ty ((s.posted (.mailbox 0) q).readVal 0
        (instKey r q.idx q.sub q.tenant)).1).length ≤ 1024) ∧ (objInfo q.idx q.sub).isSome = true ∧
      firstAbort ((s.posted (.mailbox 0) q).epAborts 0 q ++ subAborts 0 q q.sub) = none ∧
      (s.subs.filter fun b => b.ep == 0).length < 64) ∧
    (s.hears (.mailbox 0) u = true ∧ u.bad (isNetEp (.mailbox 0)) = false ∧ u.count = 1 ∧
      ∀ r ∈ objInfo u.idx u.sub, firstAbort (s.epAborts 0 u ++ scopeAborts r 0 u.tenant false) = none) ∧
    (w.sized = true ∧ w.alive = true ∧ rowKey (0x2200 : Fin 65536) (1 : Fin 256) (0 : Fin 32) = some O.POWER_STATE ∧
      (w.subs.findIdx? fun b => b.ep == epIdx .spi && b.key == O.POWER_STATE) = some 0 ∧
      (w.subs[0]?.bind Sub.combined) = some e ∧ (w.ep 48).queue.length < 32 ∧ (w.ep 48).overflow = false) := by
  decide +kernel

theorem wit_ClaimsGiveOneOwner :
    let free := running [(grantKey 1, 1)]
    let own := running [(O.TRIG_CLAIM 7, 0), (O.TRIG_ACTIONS 7 0, 0), (O.TRIG_ACTIONS 7 31, 0)]
    let use := running [(O.TRIG_CLAIM 7, 0), (O.TRIG_ACTIONS 7 0, 2)]
    let other := running [(O.TRIG_CLAIM 7, 31), (O.TRIG_ACTIONS 7 31, 0)]
    let c := (Req.ofHdr 7 (hdr 0x1201 8 0) []).via (.mailbox 0)
    let r (p : Byte) := (Req.ofHdr 8 (hdr 0x1201 8 1) [p]).via (.mailbox 0)
    (claimAt c.idx c.sub = some (1, 7) ∧ (objInfo c.idx c.sub).isSome = true ∧ c.bad (isNetEp (.mailbox 0)) = false ∧
      ∀ p ∈ ([0, 1] : List Byte), (r p).bad (isNetEp (.mailbox 0)) = false ∧ (r p).count = 1) ∧
    (∀ s ∈ [free, own, use, other], s.sized = true ∧ s.on O.DEVICE_SAFE = false ∧ s.epTenant (epIdx (.mailbox 0)) = 0 ∧
      s.hears (.mailbox 0) c = true ∧ s.epAborts (epIdx (.mailbox 0)) c = [] ∧ s.hears (.mailbox 0) (r 1) = true) ∧
    free.rd (O.TRIG_CLAIM 7) = 0xFF ∧ (own.rd (O.TRIG_CLAIM 7) = 0 ∧ own.claimBusy 1 7 0 = false) ∧
    (use.rd (O.TRIG_CLAIM 7) = 0 ∧ use.claimBusy 1 7 0 = true) ∧
    (other.rd (O.TRIG_CLAIM 7) = 31 ∧ other.rd (O.TRIG_CLAIM 7) < 32 ∧ other.claimBusy 1 7 31 = false) := by
  decide +kernel

theorem wit_SessionsOpenCloseAndAuthenticate :
    let s := withSession 3
    let s2 := withSession 2
    let h := (Req.ofHdr 9 (hdr 0 0 0) []).via (.mailbox 0)
    let q (a : Byte) := (Req.ofHdr 0xA (hdr 0 0 1) [a]).via (.session 0)
    (s.sized = true ∧ s.hears (.mailbox 0) h = true ∧ h.bad (isNetEp (.mailbox 0)) = false ∧
      s.epAborts (epIdx (.mailbox 0)) h = []) ∧
    (s.on O.DEVICE_SAFE = false ∧ s.hears (.session 0) (q 1) = true ∧ (q 1).bad true = false ∧ s.epAborts 32 (q 1) = [] ∧
      1 ≤ s.rd (O.SESSION_STATE 0) ∧ s.rd (O.SESSION_STATE 0) ≤ 3) ∧
    (∀ a ∈ ([2, 3] : List Byte), s2.hears (.session 0) (q a) = true ∧ (q a).bad true = false ∧ s2.epAborts 32 (q a) = [] ∧
      1 ≤ s2.rd (O.SESSION_STATE 0) ∧ s2.rd (O.SESSION_STATE 0) ≤ 3) ∧
    (s.alive = true ∧ s.rd (O.SESSION_STATE (0 : Fin 16)) ≠ 2 ∧ s2.rd (O.SESSION_STATE (0 : Fin 16)) = 2) ∧
    ((s.rd O.UDP_ENABLE).testBit (1 : Fin 2) = true ∧ s.ready (0x21 + (1 : Fin 2)) = true ∧
      s.datagramBound (1 : Fin 2) 0 [] [] = false) := by decide +kernel

/-- The header and counter of a datagram of session 15: its HEARTBEAT request with counter 5. -/
def datagramHead : List Byte := nypHeader 9 0 0 16 7 0 0 1 0 0 ++ leBytes 8 5

/-- That datagram, sealed with a key of zeros. -/
def datagram : List Byte := datagramHead ++ gcmTag (List.replicate 32 0) (udpNonce 15 0 5) datagramHead []

theorem datagram_length : datagram.length = 40 := by decide +kernel

theorem wit_SessionsOpenCloseAndAuthenticate_opened :
    gcmOpen (List.replicate 32 0) (udpNonce 15 0 5) (datagram.take 24)
      ((datagram.drop 24).take (datagram.length - 40)) (datagram.drop (datagram.length - 16)) = some [] := by
  have hd : datagram.drop 24 = gcmTag (List.replicate 32 0) (udpNonce 15 0 5) datagramHead [] := rfl
  have ht : datagram.take 24 = datagramHead := rfl
  have hc : ∀ k iv, gcmCtr k iv [] = [] := fun _ _ => rfl
  rw [datagram_length, hd, ht]
  simp [gcmOpen, hc]

theorem wit_SessionsOpenCloseAndAuthenticate_datagram :
    let peer : List Byte := List.replicate 18 1
    let s := running [(O.SESSION_STATE 15, 2), (O.SESSION_TENANT 15, 0), (O.SESSION_PORTS 15, 2), (O.UDP_ENABLE, 2),
      (O.SESSION_RX_COUNTER 15, 4)]
    let x : Session := { key := List.replicate 32 0, window := [4], kept := [] }
    let t := { s with dict := kvPut (O.SESSION_PEER 15) (.b peer) s.dict, sessions := s.sessions.set 15 x }
    let r := { t with sessions := s.sessions.set 15 { x with window := [5] } }
    t.sized = true ∧ t.alive = true ∧ (t.rd O.UDP_ENABLE).testBit (1 : Fin 2) = true ∧
    t.ready (0x21 + (1 : Fin 2)) = true ∧ t.datagramBound (1 : Fin 2) (field datagram 3 1) peer datagram = true ∧
    (t.sess 15).key = List.replicate 32 0 ∧ field datagram 0x10 8 = 5 ∧ t.replayed 15 5 = false ∧
    t.admitted (t.rd (O.SESSION_TENANT 15)) = true ∧ r.replayed 15 5 = true ∧
    ((t.acceptCounter 15 5).sess 15).keptFor (Req.parse (datagram.take 16)) = none := by decide +kernel

theorem wit_TimeoutsEndWhatStandsStill :
    (up []).alive = true ∧ rowKey (0x2200 : Fin 65536) (1 : Fin 256) (0 : Fin 32) = some O.POWER_STATE := by
  decide +kernel

theorem wit_SidebandServesOneFrameAtATime :
    let s := up [(O.SPI_AUTHORITY, 1)]
    let b := s.modSpi fun x => { x with busy := true, response := some [1, 2] }
    let safe := up [(O.DEVICE_SAFE, 1)]
    let e : EvInfo := { time := 0, code := 0x2200, unit := 0x2B, flags := 0, value := [3] }
    let m := s.modEp 48 fun x => { x with queue := [{ key := O.POWER_STATE, seq := 0, info := e }] }
    let f := Req.bytes (Req.ofHdr 9 (hdr 0 0 0) [])
    (s.sized = true ∧ s.spiUp = true ∧ s.spi.busy = false ∧ s.spi.response = none ∧ (s.ep 48).queue = [] ∧
      s.released = true ∧ s.on O.DEVICE_SAFE = false) ∧
    (b.spiUp = true ∧ b.spi.busy = true ∧ b.spi.response = some [1, 2] ∧ (b.ep 48).queue = []) ∧
    (m.spiUp = true ∧ (m.ep 48).queue.length = 1 ∧ m.spi.response = none) ∧
    (safe.released = true ∧ safe.on O.DEVICE_SAFE = true) ∧
    (4 ≤ (withCrc f).length ∧ crc32 ((withCrc f).take 16) = field (withCrc f) 16 4) ∧
    ((0 : Fin 256) = 0 ∧ 4 ≤ (4 : Fin 256).val) := by decide +kernel

theorem wit_MailboxHoldsOneResponseAndOneEvent :
    let s := running []
    let v := { s with host := { s.host with vfEnable := true } }
    let w := v.modFunc 31 fun x => { x with respReady := true }
    let e : EvInfo := { time := 0, code := 0x2200, unit := 0x2B, flags := 0, value := [3] }
    let m := v.modEp 31 fun x => { x with queue := [{ key := O.POWER_STATE, seq := 0, info := e }] }
    (s.sized = true ∧ s.alive = true ∧ s.ready 0x20 = true ∧ s.fnOpen (0 : Fin 32) = true ∧
      (s.func (0 : Fin 32)).respReady = false ∧ (s.ep (0 : Fin 32)).queue = []) ∧
    (w.fnOpen (31 : Fin 32) = true ∧ (w.func (31 : Fin 32)).respReady = true ∧ w.sized = true ∧ w.alive = true ∧
      w.host.vfEnable = true) ∧ (m.sized = true ∧ (m.ep (31 : Fin 32)).queue.length = 1) := by decide +kernel


/-! ### Accesses of one object -/

/-- The object's write is one that no check refuses. DEBUG_TOKEN and CERT_CHAIN have no state here: their check is a
signature, and the chain's an opaque one (log entry 70). -/
def taken (s : State) (ep : Endpoint) (idx sub ten : Nat) (bs : List Byte) : Bool :=
  s.sized && s.accepts ep idx sub ten bs && (objInfo idx sub).isSome

theorem wit_PlainRowsTakeTheirValue :
    let s := running [(O.FREQ_MIN_MHZ 3, 200), (O.EXP_MIN 15, 1), (O.THRESH_MAX, 0), (O.REFRESH_MIN, 0), (O.LC_PERMITTED 31, 0)]
    taken s (.mailbox 0) 0x1102 1 0 (leBytes 1 1) = true ∧ taken s (.mailbox 0) 0x2210 8 0 (leBytes 1 4) = true ∧
    taken s (.mailbox 0) 0x2231 4 0 (leBytes 2 1200) = true ∧ taken s (.mailbox 0) 0x7008 2 0 (leBytes 1 3) = true ∧
    taken s (.mailbox 0) 0x6002 16 0 (leBytes 1 1) = true ∧ taken s (.mailbox 0) 0x6202 1 31 (leBytes 1 0) = true ∧
    taken s (.mailbox 0) 0x4003 8 0 (leBytes 4 1) = true ∧ taken s (.mailbox 0) 0x4004 8 0 (leBytes 2 1) = true ∧
    taken s (.mailbox 0) 0x5002 3 0 (leBytes 1 1) = true ∧ taken s (.mailbox 0) 0x501F 0x11 0 (leBytes 1 1) = true := by
  decide +kernel

theorem wit_ConfigurationIsDeclaredAndSessionsProvisioned :
    let s := running [(O.CONFIG_GENERATION, 7), (O.SESSION_STATE 15, 0), (O.SESSION_PORTS 15, 3), (O.SESSION_PEER 15, 1)]
    taken s (.mailbox 0) 0x1018 3 0 (leBytes 4 7) = true ∧
    taken s (.mailbox 0) 0x111F 5 0 (List.replicate 32 1) = true ∧
    taken s (.mailbox 0) 0x111F 8 0 (leBytes 1 1) = true := by decide +kernel

/-- The Base engine of tenant 31, not armed. -/
def unarmed : State :=
  running (each 32 O.BASE_PROGRAM 0xFFFFFFFF ++ [(O.BASE_TENANT, 31), (O.BASE_LOAD_OFFSET 31, 0xEFFF0), (O.MID_RINK, 3), (O.MID_CORE, 3),
    (O.MID_TENANT, 31)])

theorem wit_PowerAndLiftRowsAct :
    let s := unarmed
    let b := { s with everReady := 2 ^ 54 - 1 }.bput 0x10000 (barrierProg 1 65536)
    let m := s.cput 15 0x40000 (barrierProg 0 0x40000)
    taken s (.mailbox 0) 0x2110 3 0 (leBytes 1 0x35) = true ∧ taken s (.mailbox 0) 0x2200 2 0 (leBytes 1 4) = true ∧
    taken s (.mailbox 0) 0x2205 1 0 (leBytes 1 31) = true ∧ taken s (.mailbox 0) 0x2205 1 0 (leBytes 1 0) = true ∧
    taken b (.mailbox 0) 0x2205 2 31 (leBytes 4 0x10000) = true ∧ (b.liftProg false 0x10000).isSome = true ∧
    taken s (.mailbox 0) 0x2205 2 31 (leBytes 4 0xFFFFFFFF) = true ∧
    taken s (.mailbox 0) 0x2205 4 31 (List.replicate 8 1) = true ∧
    taken m (.mailbox 0) 0x2206 1 31 (leBytes 4 0x40000) = true := by decide +kernel

theorem wit_GrantRowsGrant_ways :
    let s := running (each 32 (O.WAY_GRANT 3) 0 ++ [(O.CORE_GRANT 3 31, 0), (O.WINDOW_WAYS 3 31, 0), (O.HELD_WAYS 3, 0)])
    let g := { s with dict := kvPut (O.WAY_GRANT 3 31) (.n 0x8000) s.dict }
    taken s (.mailbox 0) 0x6203 4 31 (leBytes 2 0x8000) = true ∧ taken g (.mailbox 0) 0x6203 4 31 (leBytes 2 0) = true ∧
    taken g (.mailbox 0) 0x6201 4 31 (leBytes 1 0) = true ∧ (s.rink 3).ctx.contains none = true := by decide +kernel

theorem wit_GrantRowsGrant_channels :
    let s := running (each 32 O.CHANNEL_GRANT 0 ++ [(O.SAVE_BASE 31, 0), (O.SAVE_SIZE 31, 0), (O.TABLE_BASE 31, 0),
      (O.TABLE_SIZE 31, 0)] ++ each 96 (fun k => O.STR_ENABLE k 31) 0)
    taken s (.mailbox 0) 0x6204 1 31 (leBytes 2 0x8000) = true ∧ taken s (.mailbox 0) 0x6204 1 31 (leBytes 2 0) = true := by
  decide +kernel

theorem wit_GrantRowsGrant_segments :
    let s := running [(O.HELD_SEGMENTS, 0), (O.LODGE_SEG_OWNER 31, 0xFF)]
    taken s (.mailbox 0) 0x7003 32 0 (leBytes 1 31) = true ∧ taken s (.mailbox 0) 0x7003 32 0 (leBytes 1 0xFF) = true := by
  decide +kernel

theorem wit_GrantRowsGrant_cores :
    let s := running [(O.WAY_GRANT 3 31, 0x8000), (O.SAVE_SIZE 31, 0x10000000), (O.LC_PERMITTED 31, 0)]
    let z := { s with dict := ((List.range 31).map fun i => 30 - i).foldl (fun d u => kvPut (O.CORE_GRANT 3 u) (.n 0) d) s.dict }
    taken z (.mailbox 0) 0x6201 4 31 (leBytes 1 1) = true := by decide +kernel

theorem wit_GrantRowsGrant_shares :
    let s := running ([(O.LC_LIMIT 12 31, 1024), (O.LC_RESERVE 12 31, 0)] ++ each 32 (O.LC_RESERVE 12) 0)
    taken s (.mailbox 0) 0x6310 13 31 (leBytes 2 1024) = true ∧ taken s (.mailbox 0) 0x6311 13 31 (leBytes 2 1024) = true ∧
    taken s (.mailbox 0) 0x6312 13 31 (leBytes 2 1024) = true := by decide +kernel

/-- A latched wake that tenant 0 may take over by stream context 95. -/
def latched : State :=
  let w : WakeRec := { time := 0, source := 1, early := false, frame := 0 }
  let s := running [(O.RING_CONSUMER_CLAIM, 0), (O.HANDOVER_STREAM 0, 95), (O.STR_SOURCE 95 0, 0x6000), (O.STREAM_CLAIM 95, 0),
    (O.STR_BLOCK_SEQ 95 0, 0)]
  { s with audio := { s.audio with ring := { s.audio.ring with latch := some w } } }

theorem wit_RingRowsConfigureAndHandOver :
    let s := running []
    let h : Handover := { tenant := 0, stream := 95, seq := 1, next := 0, live := false, lastEnd := 0 }
    let o := { latched with audio := { latched.audio with ring := { latched.audio.ring with handover := some h } } }
    taken s (.mailbox 0) 0x4020 1 0 (leBytes 1 0xFF) = true ∧ taken s (.mailbox 0) 0x4020 2 0 (leBytes 1 20) = true ∧
    taken latched (.mailbox 0) 0x4021 2 0 [1] = true ∧ taken o (.mailbox 0) 0x4021 2 0 [2] = true ∧
    taken (o.modRing fun r => { r with latch := none, handover := none }) (.mailbox 0) 0x4020 1 0 (leBytes 1 0xFF) = true ∧
    o.audio.ring.latch.isSome = true ∧ o.audio.ring.handover.isSome = true ∧ s.ready 0x29 = true ∧
    2 ≤ s.rd O.POWER_STATE ∧ s.rd O.RING_BITS ≤ 24 := by decide +kernel

/-- Camera input 15 of tenant 31, enabled or not, with an output set in force. -/
def camera (on : Nat) : State :=
  let s := running [(O.CAM_OWNER 15, 31), (O.CAM_ENABLE 15 31, on), (O.ISP 15, 0), (O.DATA_TYPE 15, 0x2A), (O.WIDTH 15, 4),
    (O.HEIGHT 15, 2), (O.FRAME_BASE 15 31, 0), (O.BUFFERS 15 31, 2), (O.BUF_STRIDE 15 31, 4096), (O.LINE_STRIDE 15 31, 64),
    (O.OUT_FORMAT 15 31, 3), (O.SCALE 15 31, 1), (O.STATS_BASE 15 31, 0), (O.RAW_BASE 15 31, 0), (O.RAW_BUFFERS 15 31, 2),
    (O.CHANNEL_GRANT 31, 1), (O.MAX_MPIXS 15, 1), (O.INLINE_INPUT, 255), (O.SENSOR_ADDR 15, 0x10), (O.WINDOW_US 15, 65535),
    (O.AE_ENABLE 15, 1), (O.PRIVACY, 0), (O.FRAME_COUNT 15, 0), (O.GEN_IN_FORCE 15, 0)]
  s.modCam 15 fun c => { c with active := some (s.shadowSet 15 31) }

theorem wit_CameraRowsConfigure :
    let off := camera 0
    let on := camera 1
    let quiet := { off with dict := kvPut (O.AE_ENABLE 15) (.n 0) off.dict }
    let e := leBytes 4 5 ++ leBytes 4 1 ++ [0, 1, 0, 0, 0x10, 0, 1, 0, 1, 7]
    taken off (.mailbox 31) 0x502F 1 31 (leBytes 1 1) = true ∧ off.camOn 15 = false ∧ off.on (O.AE_ENABLE 15) = true ∧
    taken on (.mailbox 31) 0x502F 1 31 (leBytes 1 1) = true ∧ on.camOn 15 = true ∧
    taken on (.mailbox 31) 0x502F 1 31 (leBytes 1 0) = true ∧ taken on (.mailbox 31) 0x502F 0x0B 31 (leBytes 1 1) = true ∧
    taken off (.mailbox 31) 0x502F 0x0B 31 (leBytes 1 1) = true ∧
    taken quiet (.mailbox 31) 0x502F 0x0E 31 e = true ∧ (quiet.cam 15).window = none ∧ quiet.camOn 15 = false := by
  decide +kernel

theorem wit_TimeRowsSetTimeAndTriggers :
    let s := running [(O.SYNC_SOURCE, 0), (O.TIME_IO_CLAIM 3, 31), (O.TRIG_CLAIM 7, 31), (O.PULSE_WIDTH 3 31, 100),
      (O.PULSE_PERIOD 3 31, 0), (O.TRIG_TARGET 7 31, 0), (O.TRIG_PERIOD 7 31, 0), (O.TRIG_ACTIONS 7 31, 1), (O.TRIG_STATE 7 31, 1)]
    let r := { s with everReady := 2 ^ 54 - 1 }
    taken s (.mailbox 0) 0x3000 3 0 (time96Bytes 65536) = true ∧ taken s (.mailbox 0) 0x3000 4 0 (leBytes 8 1) = true ∧
    taken s (.mailbox 0) 0x3000 5 0 (leBytes 4 1) = true ∧ taken s (.mailbox 0) 0x3010 9 0 (leBytes 4 0x80000000) = true ∧
    s.readable (.mailbox 0) 0x3010 0x0A 0 = true ∧ s.readable (.mailbox 0) 0x3020 0x14 0 = true ∧
    (s.net.txts1.headD []).length ≤ 1024 ∧ taken s (.mailbox 31) 0x3103 1 31 (leBytes 1 2) = true ∧
    taken s (.mailbox 31) 0x3103 1 31 (leBytes 1 0) = true ∧ s.readable (.mailbox 31) 0x3103 8 31 = true ∧
    s.tioOwner 3 = 31 ∧ ((nth s.net.captures 3 []).headD []).length ≤ 1024 ∧
    taken s (.mailbox 31) 0x3117 1 31 (leBytes 1 1) = true ∧ s.timeRuns = false ∧
    taken r (.mailbox 31) 0x3117 1 31 (leBytes 1 1) = true ∧ r.timeRuns = true ∧ r.ahead (r.rd (O.TRIG_TARGET 7 31)) ≤ 0 ∧
    taken r (.mailbox 31) 0x3117 2 31 (leBytes 8 0) = true ∧ r.armed 7 = some 31 ∧ r.ahead 0 ≤ 0 ∧
    taken s (.mailbox 31) 0x3117 3 31 (leBytes 8 0) = true := by decide +kernel

theorem wit_HostRowsEnableQueuesAndStreams :
    let s := running [(O.Q_ENABLE 7 31, 0), (O.Q_CLASS 7 31, 0), (O.Q_STATE 7 31, 0), (O.STREAM_CLAIM 95, 31),
      (O.STR_ENABLE 95 31, 0), (O.STR_SOURCE 95 31, 0x2000), (O.STR_SINK 95 31, 0x1000), (O.STR_SRC_RING_BASE 95 31, 0),
      (O.STR_SRC_RING_ENTRIES 95 31, 4), (O.STR_SNK_RING_BASE 95 31, 0), (O.STR_SNK_RING_ENTRIES 95 31, 4), (O.STR_CLASS 95 31, 0),
      (O.CHANNEL_GRANT 31, 1)]
    let on := { s with dict := kvPut (O.STR_ENABLE 95 31) (.n 1) (kvPut (O.Q_ENABLE 7 31) (.n 1) s.dict) }
    taken s (.mailbox 31) 0x7117 1 31 (leBytes 1 1) = true ∧ taken on (.mailbox 31) 0x7117 1 31 (leBytes 1 0) = true ∧
    taken s (.mailbox 31) 0xA05F 1 31 (leBytes 1 1) = true ∧ taken on (.mailbox 31) 0xA05F 1 31 (leBytes 1 0) = true ∧
    taken on (.mailbox 31) 0x7120 1 31 (leBytes 1 1) = true ∧ on.strEnabled 95 = true := by decide +kernel

theorem wit_SecurityRowsAct :
    let s := running [(O.SLOT_STATE 31, 0), (O.ENTROPY_STATE, 1), (O.CHANNEL_GRANT 5, 1), (O.MEASURE_STATE 5, 0)]
    let busy := { s with security := { s.security with tasks := [.measure 5 0 64] } }
    taken s (.mailbox 0) 0xB01F 2 0 [1] = true ∧ s.security.tasks = [] ∧ s.rd O.ENTROPY_STATE = 1 ∧
    taken busy (.mailbox 0) 0xB01F 2 0 [1] = true ∧ busy.security.tasks ≠ [] ∧ taken s (.mailbox 0) 0xB001 2 0 [2] = true ∧
    taken busy (.mailbox 0) 0xB001 2 0 [2] = true ∧ busy.security.tasks.head? = some (.measure 5 0 64) ∧
    taken s (.mailbox 5) 0x8021 1 5 (leBytes 8 0 ++ leBytes 8 64) = true ∧
    taken s (.mailbox 5) 0x8020 1 5 (leBytes 1 1) = true ∧ taken s (.mailbox 5) 0x8020 2 5 (leBytes 1 0) = true ∧
    taken s (.mailbox 0) 0x9013 1 0 (List.replicate 8 0) = true ∧ taken s (.mailbox 0) 0x9030 7 0 (leBytes 1 1) = true := by
  decide +kernel


/-! ### Compute -/

/-- An instruction without a fabric image (Table 8.2): opcode, MODE, output, operand A and the first bytes of PARAM. -/
def macroWord (op mode out a : Nat) (params : List Byte) : List Byte :=
  leBytes 1 op ++ [0] ++ leBytes 1 mode ++ [0] ++ leBytes 2 out ++ leBytes 2 a ++ List.replicate 6 0xFF ++ [0, 0] ++
    List.replicate 8 0xFF ++ (params ++ List.replicate (40 - params.length) 0)

/-- A matrix of bytes, 64 by 257 (Table 8.6). -/
def matrix (base : Nat) : List Byte :=
  leBytes 5 base ++ [0x21, 0, 0] ++ leBytes 2 0 ++ leBytes 2 64 ++ leBytes 2 257 ++ leBytes 2 1 ++ leBytes 2 1 ++
    leBytes 2 1 ++ List.replicate 12 0

def copyWord : List Byte := macroWord 0x10 0 1 0 []
def fenceWord : List Byte := macroWord 0x14 0 0xFFFF 0xFFFF []
def pauseWord : List Byte := macroWord 0x15 0 0xFFFF 0xFFFF [7, 0, 0, 0, 1]
def groupWords : List (List Byte) := [macroWord 0x11 0 0xFFFF 0xFFFF [1], copyWord, macroWord 0x12 0 0xFFFF 0xFFFF []]

/-- The plan of that COPY: two tiles. -/
def copyPlan : Plan := { cls := .stream, dims := [2], p0 := 16384, p1 := 0 }

/-- An activity of tenant 5 on Rinks 0 and 3, at the first of `n` instructions. -/
def working (n : Nat) : Activity :=
  { prog := { target := .core, image := 0x1000, size := 64 + 64 * n, instrCount := n, descCount := 2, instrOff := 64,
              descOff := 0, budget := 0x40000, scratchBase := 0, scratchSize := 0 },
    fn := 5, q := 7, set := [0, 3], rinks := List.replicate 4 RinkPos.reset, paused := false, fflags := 0, opstat := 0,
    perInstr := [], failed := none, completed := 0, reached := 0 }

/-- Tenant 5 with the activity `x` of the instructions `ws`, which cores 0 and 15 serve, and 64 bytes at 0x104000. -/
def tenant5 (x : Activity) (ws : List (List Byte)) : State :=
  let s := up ([(O.POWER_STATE, 4), (O.DOMAIN_POWER 0, 2), (O.DOMAIN_POWER 10, 2), (O.DOMAIN_POWER 36, 2), (O.DOMAIN_POWER 43, 2),
    (O.CORE_SERVICE 0, 1), (O.CORE_SERVICE 1, 0), (O.CORE_SERVICE 2, 0), (O.CORE_SERVICE 3, 0), (O.CORE_SERVICE 12, 0),
    (O.CORE_SERVICE 13, 0), (O.CORE_SERVICE 14, 0), (O.CORE_SERVICE 15, 1), (O.TEN_RINKS 5, 9), (O.TABLE_BASE 5, 0x400000),
    (O.TABLE_SIZE 5, 4096), (O.CHANNEL_GRANT 5, 1)] ++ each 13 (fun n => O.PASS_BE n 5) 1000000 ++ [(O.WINDOW_WAYS 0 5, 0)])
  let serves : CoreSt := { CoreSt.reset with act := some 5, holds := some 5 }
  let t := { s with compute := { s.compute with acts := [(5, x)], cores := (s.compute.cores.set 0 serves).set 15 serves } }
  (t.tput 5 0x1000 (matrix 0x100000 ++ matrix 0x200000 ++ ws.flatten)).tput 5 0x104000 (List.replicate 64 7)

theorem wit_comesUp : ∀ p ∈ [(Opc.copy, copyWord), (.barrier, barrierBytes), (.fence, fenceWord), (.checkpoint, pauseWord),
      (.fuseBegin, macroWord 0x11 0 0xFFFF 0xFFFF [1])], ∀ r ∈ [0, 3],
    let s := tenant5 (working 2) [p.2, barrierBytes]
    let x := working 2
    s.sized = true ∧ s.alive = true ∧ s.rinkOn r = true ∧ s.activity 5 = some x ∧ x.set = s.rinkList (actTenant 5) ∧
    s.mayStart 5 r x = true ∧ x.rinks.length = 4 ∧ (x.fn < 32 ∧ x.q < 8) ∧
    ((s.progCtx x.prog 5 (s.viewCore 5 r)).instr (x.pos r).pc).opc = some p.1 := by decide +kernel

theorem wit_InstructionsStartWithTheirShare :
    let s := tenant5 (working 2) [copyWord, barrierBytes]
    let cx := s.progCtx (working 2).prog 5 (s.viewCore 5 0)
    let m := cx.instr 0
    actNo 5 false = 5 ∧ ((working 2).pos 0).inGroup = false ∧ cx.planOf 0 = some copyPlan ∧ cx.check 0 = none ∧
    s.coresOf 5 0 ≠ [] ∧ cx.share m copyPlan m.split 2 0 ≠ [] ∧ cx.share m copyPlan m.split 2 1 = [] ∧
    copyPlan.total ≠ 0 ∧ 0 + 1 < (working 2).prog.instrCount ∧ (cx.instr 1).opc ≠ none := by decide +kernel

theorem wit_InstructionsStartWithTheirShare_rejected :
    let s := tenant5 (working 2) [macroWord 0x10 0x80 1 0 [], barrierBytes]
    let cx := s.progCtx (working 2).prog 5 (s.viewCore 5 0)
    cx.check 0 = some (.instr 2, 0) ∧ s.coresOf 5 0 ≠ [] ∧ cx.planOf 0 = some copyPlan ∧
    cx.share (cx.instr 0) copyPlan (cx.instr 0).split 2 0 ≠ [] ∧ (working 2).claims = [] := by decide +kernel

theorem wit_ControlInstructionsSynchronise_group :
    let g := { working 4 with rinks := List.replicate 4 { RinkPos.reset with inGroup := true } }
    let s := tenant5 g (groupWords ++ [barrierBytes])
    let cx := s.progCtx g.prog 5 (s.viewCore 5 0)
    s.sized = true ∧ s.alive = true ∧ s.rinkOn 0 = true ∧ g.set = s.rinkList 5 ∧ s.mayStart 5 0 g = true ∧
    (g.pos 0).inGroup = true ∧ (cx.layers 0).length = 1 ∧ (cx.instr 2).opc = some .fuseEnd ∧
    2 + 1 < g.prog.instrCount ∧ (cx.instr 3).opc ≠ none := by decide +kernel

theorem wit_ControlInstructionsSynchronise_arrive :
    ∀ w ∈ [barrierBytes, pauseWord, fenceWord],
      let s := tenant5 (working 2) [w, barrierBytes]
      let cx := s.progCtx (working 2).prog 5 (s.viewCore 5 0)
      cx.check 0 = none ∧ 0 + 1 < (working 2).prog.instrCount ∧ (cx.instr 1).opc ≠ none := by decide +kernel

/-- Nothing is dirty on that Rink, so a FENCE leaves the image as it was. -/
theorem wit_ControlInstructionsSynchronise_fence :
    let s := tenant5 (working 2) [fenceWord, barrierBytes]
    ∀ k < 64, (s.commit 0 5).rbyte 0 5 (0x1000 + (64 + 64 * 1 + k)) = s.rbyte 0 5 (0x1000 + (64 + 64 * 1 + k)) := by
  decide +kernel

theorem wit_ControlInstructionsSynchronise_release :
    ∀ w ∈ [barrierBytes, pauseWord],
      let x := { working 2 with rinks := List.replicate 4 { RinkPos.reset with arrived := true } }
      let s := tenant5 x [w, barrierBytes]
      let cx := s.progCtx x.prog 5 (s.viewCore 5 0)
      s.sized = true ∧ s.alive = true ∧ s.activity 5 = some x ∧ x.set ≠ [] ∧ x.paused = false ∧ x.failed = none ∧
      (∀ r ∈ [0, 3], (x.pos r).arrived = true ∧ (x.pos r).pc = 0) ∧ 0 + 1 < x.prog.instrCount ∧
      (w = barrierBytes → (cx.instr 0).is .checkpoint = false ∧ (cx.instr 1).opc ≠ none) ∧
      (w = pauseWord → (cx.instr 0).is .checkpoint = true ∧ (cx.instr 0).p 0x1C 1 = 1) := by decide +kernel

/-- Tenants 5 and 6 with work on Rink 0, of which core 0 is free or serves tenant 5. -/
def contended (c : CoreSt) (acts : List (Nat × Activity)) : State :=
  let s := up ([(O.POWER_STATE, 4), (O.DOMAIN_POWER 0, 2), (O.DOMAIN_POWER 10, 2), (O.CORE_SERVICE 0, 1)] ++
    each 32 (O.CORE_GRANT 0) 1 ++ [(O.BE_QUANTUM_US, 100)] ++ each 32 (O.PASS_LC 0) 9 ++ each 32 (O.PASS_BE 0) 9)
  { s with clock := 100000, compute := { s.compute with acts, cores := s.compute.cores.set 0 c } }

theorem wit_SchedulerChoosesAndCoresSwitch :
    let s := contended CoreSt.reset [(5, working 2)]
    let lc := contended CoreSt.reset [(5, working 2), (37, working 2)]
    let none_ := contended { CoreSt.reset with act := some 5 } []
    (s.sized = true ∧ s.alive = true ∧ s.rinkOn (0 : Fin 4) = true ∧ s.ready (0x10 + (0 : Fin 4)) = true ∧
      s.coreServes 0 = true ∧ s.coreOn 0 = true ∧ s.claimsStopped = false ∧ (s.core 0).target = none) ∧
    (∀ a, a < 64 → (s.eligible a 0 = true ↔ a = 5)) ∧
    ((List.range 32).find? fun n => lc.eligible (n + 32) 0) = some 5 ∧ (∀ a, a < 64 → none_.eligible a 0 = false) ∧
    (3 ≤ s.rd O.POWER_STATE ∧ s.power.bringup = false) := by decide +kernel

theorem wit_SchedulerChoosesAndCoresSwitch_quantum :
    let c : CoreSt := { CoreSt.reset with act := some 5 }
    let s := contended c [(5, working 2), (6, working 2)]
    let early := contended { c with since := 1 } [(5, working 2)]
    s.sized = true ∧ s.alive = true ∧ (s.core (0 : Fin 16)).act = some 5 ∧
    (s.core (0 : Fin 16)).since + s.rd O.BE_QUANTUM_US * 1000 ≤ s.clock ∧ s.eligible 6 (0 : Fin 16) = true ∧
    early.clock < (early.core (0 : Fin 16)).since + early.rd O.BE_QUANTUM_US * 1000 := by decide +kernel

theorem wit_SchedulerChoosesAndCoresSwitch_switch :
    let c : CoreSt := { CoreSt.reset with act := some 5, target := some (some 37), holds := some 5 }
    let s := contended c []
    let n := contended { c with target := some (some 6) } []
    let off := contended { c with target := some none } []
    s.sized = true ∧ s.alive = true ∧ s.coreOn (0 : Fin 16) = true ∧ (s.core (0 : Fin 16)).target = some (some 37) ∧
    s.claimsOf (0 : Fin 16) = [] ∧ (s.core (0 : Fin 16)).holds = some (actTenant 37) ∧
    (n.core (0 : Fin 16)).holds ≠ some 6 ∧ kvGet 6 (n.core (0 : Fin 16)).saved = none ∧ n.claimsOf (0 : Fin 16) = [] ∧
    (∀ d, d < 16 → d ≠ 0 → ((n.core d).act.map actTenant) ≠ some 6) ∧
    (off.core (0 : Fin 16)).target = some none ∧ off.claimsOf (0 : Fin 16) = [] := by decide +kernel

/-- The COPY in progress on Rink 0, with tiles to claim and claimed. -/
def copyRun (todo : List Nat) (claimed : List (Nat × Nat)) : Running :=
  { idx := 0, pos := 0, k := 2, todo, claimed, left := 2, staged := [], images := [], partials := [], chains := [],
    preempted := [], fflags := 0, opstat := 0, passThrough := false }
def copying (u : Running) : Activity :=
  { working 2 with rinks := (working 2).rinks.set 0 { RinkPos.reset with run := some u } }

theorem wit_TilesAreClaimedAndCompleted_claim :
    let u := copyRun [0, 1] []
    let e := copyRun [] [(15, 1)]
    let x := copying u
    let s := tenant5 x [copyWord, barrierBytes]
    let cx := s.progCtx x.prog 5 0
    (s.sized = true ∧ s.alive = true ∧ s.coreOn 0 = true ∧ (s.core 0).act = some 5 ∧ s.activity 5 = some x ∧
      x.rinks.length = 4 ∧ x.failed = none ∧ (x.pos (0 / 4)).run = some u ∧ cx.planOf 0 = some copyPlan ∧
      s.coreServes (0 : Fin 16) = true ∧ (s.core (0 : Fin 16)).target = none ∧ s.claimsStopped = false ∧
      s.spent 5 0 = false) ∧
    ((u.claimed.filter fun q => q.1 == 0).length < 2 ∧ s.ticketFor 5 0 copyPlan u = some 0 ∧
      (s.loadImages 0 5 (cx.rawImages 0)).2 = none) ∧ s.ticketFor 5 0 copyPlan e = none := by decide +kernel

theorem wit_TilesAreClaimedAndCompleted_complete :
    let u := copyRun [0] [(0, 1)]
    let x := copying u
    let s := tenant5 x [copyWord, barrierBytes]
    let cx := s.progCtx x.prog 5 0
    s.sized = true ∧ s.activity 5 = some x ∧ cx.planOf 0 = some copyPlan ∧
    (u.claimed.find? fun q => q.1 == 0) = some (0, 1) ∧ s.streamReady 5 0 u cx copyPlan 1 = true ∧
    u.slotTaken copyPlan 1 = false ∧ s.readsPoison 0 5 cx 0 = false ∧
    (cx.evalTile u [] copyPlan 1).toOption.isSome = true ∧ 1 < u.left := by decide +kernel

theorem wit_StreamsAndFillsArrive :
    let x := copying (copyRun [0, 1] [])
    let s := tenant5 x [copyWord, barrierBytes]
    let cx := s.progCtx x.prog 5 (s.viewCore 5 0)
    s.sized = true ∧ s.alive = true ∧ s.rinkOn (0 : Fin 4) = true ∧ s.activity 5 = some x ∧
    (x.pos 0).run = some (copyRun [0, 1] []) ∧ s.allocOk (5 : Fin 32) 0x100000 1 = true ∧ x.fn < 32 ∧ x.q < 8 ∧
    cx.ertAt 0 0x100000 = none ∧ 0x100000 < lodgeBase ∧ LinkRead.retried ≠ .failed := by decide +kernel

theorem wit_RefreshFollowsTemperature :
    let s := running [(O.REFRESH_MAX, 2), (O.REFRESH_MIN, 0), (O.CHANNEL_GRANT 5, 0x8000)]
    s.alive = true ∧ s.ready (0x19 + 3) = true ∧ s.channelActive 15 = true ∧ 2 ≤ s.rd O.REFRESH_MAX := by decide +kernel


/-! ### Jobs, doorbells and streams -/

/-- A submission entry (Table 17.3). -/
def entry (op sflags cid host dev len a0 a1 : Nat) : List Byte :=
  leBytes 1 op ++ leBytes 1 sflags ++ leBytes 2 cid ++ leBytes 4 0 ++ leBytes 8 host ++ leBytes 8 dev ++ leBytes 4 len ++
    leBytes 4 a0 ++ leBytes 4 a1 ++ List.replicate 28 0

/-- A queue whose head entry is `e`, at the last place of its ring. -/
def heading (e : List Byte) : Queue :=
  { Queue.reset with sq := Queue.reset.sq.set 63 e, sqHead := 63, stamps := [4] }

/-- Tenant `f` with queue pair 7 as `x` and `Q_STATE` at `st`, and tenant 0 with the work that `acts` lists. -/
def serving (f st : Nat) (x : Queue) (acts : List (Nat × Activity)) (extra : List (Nat × Nat)) : State :=
  let s := up (extra ++ [(O.DEVICE_SAFE, 0), (O.POWER_STATE, 4), (O.LINK_STATE, 2), (O.DOMAIN_POWER 0, 2), (O.DOMAIN_POWER 10, 2),
    (O.BASE_TENANT, f), (O.Q_ENABLE 7 f, 1), (O.Q_STATE 7 f, st)] ++ (List.range 8).map (fun q => (O.Q_CLASS q f, 0)) ++
    [(O.TEN_RINKS f, 1), (O.CHANNEL_GRANT f, 0x8000), (O.SLOT_STATE f, 2), (O.TDI_STATE f, 0), (O.BASE_PROGRAM f, 0xFFFFFFFF),
     (O.TABLE_BASE f, 0x400000), (O.TABLE_SIZE f, 4096)] ++ each 13 (fun n => O.PASS_BE n f) 1000000)
  let s := { s with host := { s.host with vfEnable := true },
                    compute := { s.compute with acts },
                    security := { s.security with images := List.replicate 3 (some ⟨[], []⟩), everReady := true } }
  s.modQueue f 7 fun _ => x

/-- What an entry that comes up needs (`State.entryStarts`). -/
abbrev Starts (s : State) (f : Fin 32) (op : Nat) : Prop :=
  s.sized = true ∧ s.alive = true ∧ s.ready 0x20 = true ∧ (s.queue f 7).fits = true ∧ s.nextStarts f 7 = true ∧
  s.claimsStopped = false ∧ (s.queue f 7).headOp = op ∧ (s.rd (O.Q_STATE 7 f) = 1 ∨ op = 6 ∨ op = 7) ∧
  s.jobWaits f (Job.ofEntry (s.queue f 7).head) = false ∧ (op = 1 → s.runTurn f 7 = true)

theorem Starts.starts {s : State} {f : Fin 32} {op : Nat} (h : Starts s f op) : s.entryStarts f 7 op :=
  ⟨h.1, h.2.1, h.2.2.1, h.2.2.2.1, h.2.2.2.2.1, h.2.2.2.2.2.1, h.2.2.2.2.2.2.1, h.2.2.2.2.2.2.2.1, h.2.2.2.2.2.2.2.2.1,
    h.2.2.2.2.2.2.2.2.2⟩

/-- Reserved bytes that are not zero, and an entry whose checks pass. -/
theorem wit_JobsStartInQueueOrder :
    let s := serving 31 1 (heading (entry 8 0 0xFFFF 0 0 0 0 0)) [] []
    let bad := serving 31 1 (heading (entry 8 4 0xFFFF 0 0 0 0 0)) [] []
    Starts s 31 8 ∧ firstAbort (s.jobAborts 31 (s.queue 31 7).head) = none ∧
    (s.queue 31 7).pop.sqHead = (s.queue 31 7).pop.sqTail ∧ Starts bad 31 8 ∧
    firstAbort (bad.jobAborts 31 (bad.queue 31 7).head) = some .badMessage := by decide +kernel

theorem wit_JobsStartInQueueOrder_transfers :
    ∀ op ∈ [2, 3, 9], ∀ link ∈ [2, 0],
      let s := serving 0 1 (heading (entry op 0 1 0x40 0x1000 64 0 0)) [] [(O.LINK_STATE, link)]
      Starts s 0 op ∧ firstAbort (s.jobAborts 0 (s.queue 0 7).head) = none ∧ (s.linkUp = true ↔ link = 2) := by
  decide +kernel

/-- Stream context 95 of tenant `n`: from a ring of four descriptors in device memory to one in host memory. -/
def ringed (n : Nat) (s : State) : State :=
  s.modStream 95 fun x => { x with
    active := { sink := 0x1000, smooth := false, srcBase := 0x2000, srcEntries := 4, snkBase := 0x3000, snkEntries := 2 },
    srcTail := n }

/-- Its objects for tenant `f`. -/
def ringKeys (f : Nat) : List (Nat × Nat) :=
  [(O.STREAM_CLAIM 95, f), (O.STR_ENABLE 95 f, 1), (O.STR_SOURCE 95 f, 0x2000), (O.STR_STATE 95 f, 1)]

/-- The source tail at 3, the sink tail at 1, and a context that is not the tenant's. -/
theorem wit_JobsStartInQueueOrder_post :
    ∀ v ∈ [0x3005F, 0x5E],
      let s := ringed 0 (serving 31 1 (heading (entry 4 2 1 0 0 0 v 0)) [] (ringKeys 31 ++ [(O.STREAM_CLAIM 94, 0xFF)]))
      Starts s 31 4 ∧ firstAbort (s.jobAborts 31 (s.queue 31 7).head) = none ∧
      doorbellOf (Job.ofEntry (s.queue 31 7).head).arg0 = some (v % 128, false, v / 65536) ∧
      (v = 0x3005F → s.strEnabled 95 = true ∧ s.streamOwner 95 = 31 ∧ epKind (s.rd (O.STR_SOURCE 95 31)) = 2 ∧
        3 < (s.stream 95).active.srcEntries) ∧ (v = 0x5E → s.strEnabled 94 = false) := by decide +kernel

theorem wit_JobsStartInQueueOrder_firmware :
    let s := serving 0 1 (heading (entry 5 0 1 0x40 0 64 1 0)) [] []
    Starts s 0 5 ∧ firstAbort (s.jobAborts 0 (s.queue 0 7).head) = none ∧ s.security.everReady = true ∧
    s.linkUp = true := by decide +kernel

/-- Tenant 31's program paused at its CHECKPOINT, the only queue the RESUME or ABANDON entry can act on. -/
theorem wit_JobsStartInQueueOrder_resume :
    ∀ op ∈ [6, 7],
      let y := { working 2 with fn := 31, set := [0], paused := true }
      let j : Job := { Job.ofEntry (entry 1 0 2 0 0x1000 192 0 0) with waitsHost := false }
      let s := (serving 31 2 { heading (entry op 0 1 0 0 0 0 0) with job := some j } [(31, y)] []).tput 31 0x1000
        (matrix 0 ++ matrix 0 ++ pauseWord ++ barrierBytes)
      let running := serving 31 1 (heading (entry op 0 1 0 0 0 0 0)) [] []
      Starts s 31 op ∧ firstAbort (s.jobAborts 31 (s.queue 31 7).head) = none ∧ s.queueAct 31 7 = 31 ∧
      s.activity 31 = some y ∧ y.failed = none ∧ y.rinks.length = 4 ∧ (y.pos 0).pc + 1 < y.prog.instrCount ∧
      ((s.progCtx y.prog 31 (s.viewCore 31 0)).instr 1).opc ≠ none ∧ Starts running 31 op ∧
      firstAbort (running.jobAborts 31 (running.queue 31 7).head) = none := by decide +kernel

/-- A program of one BARRIER, and an image whose MAGIC is 0. -/
theorem wit_JobsStartInQueueOrder_run :
    let e := entry 1 0 2 0 0x1000 192 0 0
    let s := (serving 31 1 (heading e) [] []).tput 31 0x1000 (barrierProg 0 0x40000)
    let none_ := (serving 31 1 (heading e) [] []).tput 31 0x1000 (List.replicate 192 0)
    let check := fun (s : State) =>
      Prog.check .core 0x1000 192 (fun i => s.tbyte (31 : Fin 32) (0x1000 + i)) (s.allocOk (31 : Fin 32))
    Starts s 31 1 ∧ firstAbort (s.jobAborts 31 (s.queue 31 7).head) = none ∧ s.rinkList 31 = [0] ∧
    (check s).isSome = true ∧ (∀ g ∈ check s, ((s.progCtx g 31 (s.viewCore 31 0)).instr 0).opc ≠ none) ∧
    Starts none_ 31 1 ∧ firstAbort (none_.jobAborts 31 (none_.queue 31 7).head) = none ∧ check none_ = none := by
  decide +kernel

/-- One byte past nothing: a COPY_IN of no tile and of one, a COPY_OUT with and without a poisoned word, and a LOAD_BASE. -/
theorem wit_HostTransfersEndTheirJobs :
    ∀ e ∈ [entry 2 0 1 0x40 0x1000 64 0 0, entry 3 0 1 0x40 0x1000 64 0 0, entry 9 0 1 0x40 0xEFFC0 0 0 0],
      let j : Job := { Job.ofEntry e with waitsHost := true }
      let s := serving 0 1 { Queue.reset with job := some j } [] []
      let x := { s with integrity := { s.integrity with poisoned := [poisonTen 0 0x103F] } }
      s.sized = true ∧ s.alive = true ∧ (s.queue 0 7).fits = true ∧ (s.queue 0 7).waiting = [] ∧
      (s.queue 0 7).sqHead = (s.queue 0 7).sqTail ∧ (s.queue 0 7).job = some j ∧ s.security.tasks = [] ∧
      copyBad (List.replicate 64 7) j.arg0 j.arg1 = false ∧ s.poisonDev 0 j.devAddr j.length = false ∧
      (j.opcode = 3 → x.poisonDev 0 j.devAddr j.length = true) := by decide +kernel

/-- One tile: its payload and header fill 16,448 bytes. -/
theorem wit_HostTransfersEndTheirJobs_tile :
    let j := Job.ofEntry (entry 2 0 1 0x40 0x1000 16448 1 0)
    let data : List Byte := List.replicate 16448 0
    j.length = data.length ∧ j.arg0 * 16448 ≤ j.length ∧ copyBad data j.arg0 j.arg1 = false := by decide +kernel

/-- A tail of 63 with the ring empty at 0 and the queue at work; one at 64; and one beyond the 60 free places. -/
theorem wit_DoorbellsMoveRings :
    let j := Job.ofEntry (entry 1 0 2 0 0x1000 192 0 0)
    let s := serving 31 1 { Queue.reset with job := some j } [] []
    let x := { Queue.reset with sqHead := 61 }
    s.sized = true ∧ s.alive = true ∧ s.ready 0x20 = true ∧ s.fnOpen (31 : Fin 32) = true ∧ s.queueRuns 31 7 = true ∧
    (s.queue 31 7).fits = true ∧ (s.queue 31 7).job.isSome = true ∧
    (63 + 64 - (s.queue 31 7).sqTail) % 64 ≤ 63 - ((s.queue 31 7).sqTail + 64 - (s.queue 31 7).sqHead) % 64 ∧
    x.fits = true ∧ 63 - (x.sqTail + 64 - x.sqHead) % 64 < (61 + 64 - x.sqTail) % 64 := by decide +kernel

/-- A completion queue with all of its 127 entries in use and one waiting: a head that frees one, and one beyond. -/
theorem wit_DoorbellsMoveRings_heads :
    let x := { Queue.reset with cqTail := 127, waiting := [completionBytes 1 0 0 0 0 0 0] }
    let y := { Queue.reset with cqTail := 127 }
    let s := serving 31 1 x [] []
    let t := serving 31 1 y [] []
    s.sized = true ∧ s.alive = true ∧ s.ready 0x20 = true ∧ s.fnOpen (31 : Fin 32) = true ∧ (s.queue 31 7).fits = true ∧
    (s.queue 31 7).sqHead = (s.queue 31 7).sqTail ∧ (1 + 128 - (s.queue 31 7).cqHead) % 128 ≤ (s.queue 31 7).cqCount ∧
    ((s.queue 31 7).cqTail + 128 - 1) % 128 < 127 ∧ (t.queue 31 7).waiting = [] ∧
    (127 + 128 - (t.queue 31 7).cqHead) % 128 ≤ (t.queue 31 7).cqCount ∧
    (s.queue 31 7).cqCount < 127 + 1 := by decide +kernel

theorem wit_DoorbellsMoveRings_streams :
    let s := ringed 0 (serving 31 1 Queue.reset [] (ringKeys 31))
    s.sized = true ∧ s.alive = true ∧ s.ready 0x20 = true ∧ s.fnOpen (31 : Fin 32) = true ∧
    doorbellOf 0x3005F = some (95, false, 3) ∧ doorbellOf 0x100DF = some (95, true, 1) ∧
    doorbellOf 0x4005F = some (95, false, 4) ∧ s.strEnabled 95 = true ∧ s.streamOwner 95 = (31 : Fin 32) ∧
    isRing (s.rd (O.STR_SOURCE 95 31)) = true ∧ isRing (s.stream 95).active.sink = true ∧
    3 < (s.stream 95).active.srcEntries ∧ 1 < (s.stream 95).active.snkEntries ∧ (s.stream 95).active.srcEntries ≤ 4 := by
  decide +kernel

/-- A stream descriptor (Table 17.6). -/
def descriptor (addr size used : Nat) : List Byte :=
  leBytes 8 addr ++ leBytes 4 size ++ leBytes 4 used ++ List.replicate 16 0

theorem wit_StreamsMoveBlocks :
    let keys := ringKeys 31 ++ each 13 (fun n => O.PASS_LC n 31) 1000000
    let idle := ringed 0 (serving 31 1 Queue.reset [] keys)
    let s := (ringed 1 (serving 31 1 Queue.reset [] keys)).tput 31 0x2000 (descriptor 0x4000 64 0)
    (∀ v ∈ [idle, s], v.sized = true ∧ v.alive = true ∧ v.strEnabled (95 : Fin 96) = true ∧ v.ready 0x2F = true ∧
      v.rd (O.STR_STATE 95 31) ≠ 3 ∧ v.admitted 31 = true ∧ v.rd (O.TDI_STATE 31) ≠ 3 ∧ (v.stream 95).pending = none) ∧
    (idle.stream 95).srcHead = (idle.stream 95).srcTail ∧ (s.stream 95).srcHead ≠ (s.stream 95).srcTail ∧
    epKind (s.rd (O.STR_SOURCE 95 31)) = 2 ∧ epKind (s.stream 95).active.sink = 1 ∧ s.spent (s.strAct 95 31) 12 = false ∧
    (s.stream 95).snkHead = (s.stream 95).snkTail ∧ ((s.modStream 95 fun x => { x with snkTail := 1 }).stream 95).snkHead ≠ 1 ∧
    s.descFault (s.rd (O.STR_SOURCE 95 31)) 31 (s.tbytes 31 0x2000 32) = 0 ∧
    s.descFault (s.stream 95).active.sink 31 (slice (descriptor 0x5000 128 0) 0 32) = 0 := by decide +kernel

/-- A frame of type 0x88B5, which context 95 takes, and an ARP frame, which none does. -/
theorem wit_StreamsMoveBlocks_frames :
    let frame (ty : List Byte) : List Byte := List.replicate 12 1 ++ ty ++ List.replicate 46 0
    let b := running []
    let s := running [(O.STREAM_CLAIM 95, 31), (O.STR_ENABLE 95 31, 1), (O.STR_SOURCE 95 31, 0x8000), (O.STR_STATE 95 31, 1)]
    let s := { s with dict := kvPut (O.STR_NET_FILTER 95 31) (.b [0x88, 0xB5, 0, 0]) s.dict }
    s.sized = true ∧ s.alive = true ∧ s.ready (0x21 + (1 : Fin 2)) = true ∧ s.domOn (57 + (1 : Fin 2)) = true ∧
    s.ownTraffic (frame [0x88, 0xB5]) = false ∧ s.strEnabled 95 = true ∧ s.streamOwner 95 = 31 ∧ s.admitted 31 = true ∧
    matchesFilter (s.rdB (O.STR_NET_FILTER 95 31)) (frame [0x88, 0xB5]) = true ∧
    b.ownTraffic (frame [0x08, 0x06]) = true := by decide +kernel

/-! ### Audio and cameras -/

/-- Nothing listens, or channel 7 and channel 3 convert in full power at the ring's bounds. -/
def listening (kvs : List (Nat × Nat)) : State :=
  up (kvs ++ [(O.DEVICE_SAFE, 0), (O.READY, 2 ^ 54 - 1), (O.POWER_STATE, 4), (O.RING_BITS, 20), (O.RING_CHANNELS, 0x88),
    (O.DOMAIN_POWER 66, 2), (O.DOMAIN_POWER 67, 2)] ++ each 3 O.CH_MODE 0 ++ [(O.CH_MODE 3, 1)] ++
    each 3 (fun i => O.CH_MODE (i + 4)) 0 ++ [(O.CH_MODE 7, 1), (O.COMP_ENABLE, 8)])

theorem wit_AudioRunsInBlocks :
    let s := listening []
    let off := listening [(O.RING_CHANNELS, 0)]
    (s.sized = true ∧ s.alive = true ∧ s.ready 0x29 = true ∧ 2 ≤ s.rd O.POWER_STATE ∧ s.audio.ring.handover = none ∧
      s.rd O.RING_BITS ≤ 24 ∧ s.converting 7 = true ∧ s.rd O.RING_CHANNELS ≠ 0 ∧ off.rd O.RING_CHANNELS = 0) ∧
    s.converting (3 : Fin 4) = true ∧
    (let t := { s with audio := { s.audio with input := List.replicate 192 [0, 0, 0, -3] } }
     ((t.audio.input.take 192).map fun f => (nth f 3 0).natAbs ^ 2).foldl (· + ·) 0 = 1728) := by decide +kernel

theorem wit_AudioRunsInBlocks_thresholds :
    let s := listening [(O.CH_MODE 3, 2), (O.DOMAIN_POWER 79, 2), (O.THRESH_MIN, 0xFF60), (O.THRESH_MAX, 0xFF60), (O.COMP_MARGIN, 6),
      (O.NOISE_FLOOR 3, 0xFF38), (O.COMP_FIXED, 0xFF60)]
    let t := s.modCh 3 fun x => { x with blocks := List.replicate 125 1 }
    s.alive = true ∧ s.compOn 3 = true ∧ s.compOn 2 = false ∧ s.rdI 16 O.THRESH_MIN ≤ s.rdI 16 O.THRESH_MAX ∧
    s.rdI 16 O.COMP_FIXED = s.rdI 16 O.THRESH_MIN ∧ (s.ch 3).blocks = [] ∧ (t.ch 3).blocks.length = 125 := by
  decide +kernel

theorem wit_AudioRunsInBlocks_handover :
    let h : Handover := { tenant := 31, stream := 95, seq := 2 ^ 32 - 1, next := 0, live := false, lastEnd := 0 }
    let w : WakeRec := { time := 0, source := 0, early := false, frame := 0 }
    let s := listening [(O.STREAM_CLAIM 95, 31), (O.STR_BLOCK_SEQ 95 31, 5)]
    let live := { s with audio := { s.audio with ring := { Ring.reset with handover := some h } } }
    let latched := { s with audio := { s.audio with ring := { Ring.reset with latch := some w, markers := [w] } } }
    (live.sized = true ∧ live.alive = true ∧ live.audio.ring.handover = some h ∧ h.next = live.audio.ring.nextFrame) ∧
    (latched.alive = true ∧ latched.audio.ring.latch.isSome = true ∧ latched.audio.ring.handover = none) := by
  decide +kernel

theorem wit_AudioRunsInBlocks_faults :
    let s := listening [(O.MICBIAS_STATE, 3)]
    let x := listening [(O.MICBIAS_STATE, 0x0C)]
    (∀ b : Fin 2, (s.rd O.MICBIAS_STATE).testBit b = true ∧ (s.rd O.MICBIAS_STATE).testBit (2 + b) = false ∧
      (x.rd O.MICBIAS_STATE).testBit (2 + b) = true) ∧ s.alive = true ∧ x.alive = true := by decide +kernel

theorem wit_AudioRunsInBlocks_ports :
    ∀ p : Fin 2,
      let s := listening [(O.TDM_LOCKED p, 1), (slotClaim p 7, 31), (O.TDM_TX_SLOTS p 31, 0x80), (O.STR_ENABLE 0 31, 1),
        (O.STREAM_CLAIM 0, 31)]
      let s := s.modStream 0 fun x => { x with active := { Route.reset with sink := tdmEndpoint p 7 } }
      let lost := listening [(O.TDM_LOCKED p, 0), (O.TDM_ROLE p, 1), (O.DOMAIN_POWER 61, 2)]
      s.alive = true ∧ s.rd (O.TDM_LOCKED p) = 1 ∧ s.slotOut p (7 : Fin 8) = true ∧
      s.feeder (tdmEndpoint p (7 : Fin 8)) = some 0 ∧ lost.alive = true ∧ lost.rd (O.TDM_LOCKED p) = 0 ∧
      lost.ready 0x28 = true ∧ lost.domOn 61 = true ∧ lost.rd (O.TDM_ROLE p) = 1 := by decide +kernel

/-- The output set of a camera input: one buffer of 4 lines of 16 bytes, and no statistics. -/
def outSet : OutSet :=
  { frameBase := 0x1000, buffers := 1, bufStride := 64, lineStride := 16, format := 0, scale := 0, statsBase := 0,
    rawBase := 0, rawBuffers := 0 }

/-- A frame of 4 codes by 4 lines of RAW8 with `n` lines received. -/
def received (n : Nat) : Frame :=
  { n := 0xFFFFFFFF, time := 0, sensorFrame := 1, out := outSet, params := [], isp := 0, dataType := 0x2A, width := 4, height := 4,
    black := 16, sat := 255, fate := .kept, lines := List.replicate n [1, 2, 3, 4], rawBuf := 0, held := 0, flags := 0,
    generation := 0, appliedFrame := 0, exposure := 0, gain := 0, linesPadded := 0, linesDropped := 0, shortLines := 0,
    longLines := 0, crcLines := 0 }

/-- Input 15 (port 1, virtual channel 7), which tenant 31 has enabled, beside its objects as `c` says. -/
def camera15 (c : CamIn) (kvs : List (Nat × Nat)) : State :=
  let s := up (kvs ++ [(O.DEVICE_SAFE, 0), (O.READY, 2 ^ 54 - 1), (O.POWER_STATE, 4), (O.PRIVACY, 0), (O.CAM_OWNER 15, 31),
    (O.CAM_ENABLE 15 31, 1), (O.ISP 15, 0), (O.CHANNEL_GRANT 31, 0x8000), (O.FRAME_COUNT 15, 0xFFFFFFFF)])
  { s with camera := { s.camera with ins := s.camera.ins.set 15 c } }

theorem wit_CamerasDeliverFrames :
    let s := camera15 { CamIn.reset with pending := some outSet } []
    packetInput 1 7 .corrected = some 15 ∧ packetInput 1 8 .ok = none ∧ packetInput 1 7 .failed = none ∧ s.sized = true ∧
    s.alive = true ∧ s.receives (1 : Fin 2) = true ∧ s.camOn 15 = true ∧ (s.cam 15).frame = none ∧
    (s.cam 15).pending.or (s.cam 15).active = some outSet ∧ s.rd (O.ISP 15) = 0 ∧ s.rd O.POWER_STATE ≠ 3 ∧
    s.setInAlloc 15 (s.rd (O.CAM_OWNER 15)) outSet = true := by decide +kernel

/-- A frame one line short and one that is full; lines that are short, long, of another type, and beyond the height. -/
theorem wit_CamerasDeliverFrames_lines :
    ∀ n ∈ [3, 4],
      let f := received n
      let s := camera15 { CamIn.reset with frame := some f } []
      s.sized = true ∧ s.alive = true ∧ s.receives (1 : Fin 2) = true ∧ (s.cam (15 : Fin 16)).frame = some f ∧
      f.fate = .kept ∧ f.isp ≠ 2 ∧ (0x2A : Fin 64).val = f.dataType ∧ (0x2B : Fin 64).val ≠ f.dataType ∧
      (n = 3 → f.lines.length < f.height) ∧ (n = 4 → f.height ≤ f.lines.length) := by decide +kernel

theorem wit_CamerasDeliverFrames_raws :
    let f := { received 4 with isp := 2 }
    let g := received 4
    let s := camera15 { CamIn.reset with raws := [(6, f)] } []
    let d := camera15 { CamIn.reset with done := [g] } []
    (s.sized = true ∧ s.alive = true ∧ s.ready 0x26 = true ∧ (∀ c ∈ s.camera.ins, c.done = []) ∧
      s.nextRaw = some (6, 15) ∧ (s.cam 15).raws = [(6, f)]) ∧
    (d.sized = true ∧ d.alive = true ∧ (d.cam (15 : Fin 16)).done = [g] ∧ g.fate = .kept ∧ g.flags.testBit 5 = false ∧
      g.isp ≠ 2 ∧ g.out.statsBase = 0 ∧ ∀ l ∈ (ispOutput g g.lines).1, l.length ≤ g.out.lineStride) := by decide +kernel

theorem wit_CamerasDeliverFrames_bus :
    ∀ g ∈ [some 7, none],
      let x : Issue := { generation := g, ae := if g = none then some (1, 2) else none, frame := 4, prevGen := 6,
                         prevAe := (1, 1), sentAt := 0 }
      let s := camera15 { CamIn.reset with issued := [x], window := some { frame := 3, start := 0, free := 0 } } []
      let idle := camera15 CamIn.reset []
      s.sized = true ∧ s.alive = true ∧ s.ready 0x35 = true ∧ s.rd (O.CAM_OWNER (15 : Fin 16)) < 32 ∧
      (s.cam 15).issued = [x] ∧ ((s.cam 15).window.map Window.frame).getD 0 < x.frame ∧ (idle.cam 15).issued = [] := by
  decide +kernel

/-! ### Time and the field network -/

def withBytes (k : Nat) (b : List Byte) (s : State) : State := { s with dict := kvPut k (.b b) s.dict }

/-- A message of domain `d` from the clock that `n` names. -/
def message (d : Fin 256) (n : Byte) : PtpMsg :=
  { domain := d, clockId := [n, 0, 0, 0, 0, 0, 0, 0], portNum := 1, sequenceId := 0xFFFF, logInterval := 0, correction := 0,
    timestamp := 65536, rxTime := 262144, malformed := false }

def masterOf (n : Byte) : Master :=
  { clockId := [n, 0, 0, 0, 0, 0, 0, 0], gmId := [], priority1 := 1, clockClass := 6, clockAccuracy := 0x21, variance := 0, priority2 := 1,
    stepsRemoved := 0, timeSource := 0x20 }

/-- Both ports' domains On with their MAC addresses, the time base running, port 0 asCapable and port 1 in a role. -/
def networked (role : Nat) (kvs : List (Nat × Nat)) : State :=
  let s := up (kvs ++ [(O.DEVICE_SAFE, 0), (O.READY, 2 ^ 54 - 1), (O.POWER_STATE, 4), (O.NET0_PTP, 1), (O.NET1_ENABLE, 1),
    (O.NET1_PTP_ROLE, role), (O.AS_CAPABLE, 1), (O.GPTP_DOMAIN, 0), (O.NET1_PTP_DOMAIN, 0), (O.SYNC_SOURCE, 1),
    (O.STEP_THRESHOLD_NS, 2), (O.NET0_RX_LATENCY, 0), (O.NET1_PHY_RX_LATENCY, 0)] ++
    each 7 (fun i => O.DOMAIN_POWER (i + 57)) 2)
  withBytes O.NET1_MAC [2, 0, 0, 0, 0, 2] (withBytes O.NET0_MAC [2, 0, 0, 0, 0, 1] { s with everReady := 2 ^ 54 - 1 })

theorem wit_PtpKeepsTime :
    ∀ p : Fin 2,
      let s := networked 1 []
      let m := message 0 7
      let s := s.setPtp p fun x => { x with master := some (masterOf 7), pendingSync := some (0xFFFF, 9, 0, m.clockId) }
      let bad := { m with malformed := true }
      let none_ := s.setPtp p fun x => { x with pendingSync := none }
      bad.malformed = true ∧ m.malformed = false ∧ s.alive = true ∧ s.ptpOn p = true ∧ s.isSlave1 = true ∧
      s.acceptsSync p m = true ∧ s.acceptsSync p (message 1 7) = false ∧ s.acceptsSync p (message 0 8) = false ∧
      (s.selected p = true ↔ p = 0) ∧ s.timeRuns = true ∧ (s.ptp p).pendingSync = some (m.sequenceId.val, 9, 0, m.clockId) ∧
      (none_.ptp p).pendingSync = none := by decide +kernel

/-- The offset is 2 ns beyond the timestamp, at the step threshold; and a master one timestamp unit earlier, beyond it. -/
theorem wit_PtpKeepsTime_steps :
    let s := networked 1 []
    let s := s.setPtp 0 fun x => { x with master := some (masterOf 7) }
    let m := { message 0 7 with rxTime := 3 * 65536 }
    let n := { m with timestamp := 65535 }
    let off (m : PtpMsg) := s.rxStamp 0 m - ((m.timestamp : Int) + m.correction + (s.ptp 0).delay)
    s.acceptsSync 0 m = true ∧ s.acceptsSync 0 n = true ∧ (off m).natAbs ≤ s.rd O.STEP_THRESHOLD_NS * 65536 ∧
    (s.rd O.STEP_THRESHOLD_NS * 65536 : Nat) < off n := by decide +kernel

theorem wit_PtpKeepsTime_announce :
    let s := networked 1 [(O.PRIORITY1, 255)]
    let heard := s.setPtp 1 fun x => { x with master := some (masterOf 7) }
    let master := networked 2 []
    let m := message 0 8
    s.alive = true ∧ s.ptpOn 0 = true ∧ s.ptpOn 1 = true ∧ s.ptpDomain 0 ≠ (message 1 8).domain.val ∧
    s.ptpDomain 1 = m.domain.val ∧ s.isSlave1 = true ∧ (s.ptp 1).master = none ∧
    (heard.ptp 1).master = some (masterOf 7) ∧ (masterOf 7).clockId ≠ m.clockId ∧ master.ptpOn 1 = true ∧
    master.isSlave1 = false ∧ s.ptpDomain 0 = m.domain.val ∧ s.on O.AS_CAPABLE = true ∧ m.clockId ≠ s.clockId 0 ∧
    s.rd O.PRIORITY1 = 255 := by decide +kernel

/-- Peer delay on port 0, and Delay_Req on port 1 in both roles. -/
theorem wit_PtpKeepsTime_delays :
    let m := message 0 7
    let s := networked 1 []
    let s := s.setPtp 0 fun x => { x with reqTime := some 5, reqSeq := 0xFFFF, respT2 := some (6, 9) }
    let s := s.setPtp 1 fun x =>
      { x with reqTime := some 5, reqSeq := 0xFFFF, syncT1 := some (1, 2), master := some (masterOf 7) }
    let idle := networked 2 []
    s.alive = true ∧ s.ptpOn 0 = true ∧ s.netSends 0 = true ∧ s.net.ptp0.reqTime = some 5 ∧
    s.net.ptp0.respT2 = some (6, 9) ∧ s.net.ptp0.prevPair = none ∧ s.net.ptp0.reqSeq = m.sequenceId.val ∧
    idle.net.ptp0.reqTime.isNone = true ∧ s.ptpOn 1 = true ∧ s.ptpDomain 1 = m.domain.val ∧ idle.isMaster1 = true ∧
    idle.ptpOn 1 = true ∧ idle.netSends 1 = true ∧ s.isSlave1 = true ∧ s.net.ptp1.reqTime = some 5 ∧
    s.net.ptp1.syncT1 = some (1, 2) ∧ s.net.ptp1.reqSeq = m.sequenceId.val ∧
    s.net.ptp1.master.map Master.clockId = some m.clockId := by decide +kernel

theorem wit_PtpKeepsTime_intervals :
    let s := (networked 2 [(O.TIME_QUALITY, 3)]).setPtp 0 fun x => { x with isMaster := true }
    let slave := networked 1 []
    s.alive = true ∧ s.rd O.TIME_QUALITY = 3 ∧ s.timeRuns = true ∧
    (∀ p : Fin 2, s.sendsSync p = true ∧ s.netSends p = true ∧ s.ptpOn p = true) ∧ slave.alive = true ∧
    slave.ptpOn 1 = true ∧ slave.isSlave1 = true ∧ slave.netSends 1 = true := by decide +kernel

theorem wit_PortsTriggersAndEdgesAct :
    let ip6 : List Byte := List.replicate 16 5
    let s := networked 1 [(O.NET0_IPV4, 0xFFFFFFFF), (O.NET1_IPV4, 0xFFFFFFFF), (O.NET0_MODE, 2)]
    let s := withBytes O.NET0_IPV6 ip6 (withBytes O.NET1_IPV6 ip6 s)
    let x := networked 1 [(O.NET0_MODE, 1)]
    (∀ p : Fin 2, s.alive = true ∧ s.netSends p = true ∧ s.rd (if p = 0 then O.NET0_IPV4 else O.NET1_IPV4) = 0xFFFFFFFF ∧
      s.rdB (if p = 0 then O.NET0_IPV6 else O.NET1_IPV6) = ip6) ∧ ip6.any (· != 0) = true ∧
    s.ready 0x21 = true ∧ s.rd O.NET0_MODE = 2 ∧ x.alive = true ∧ x.ready 0x21 = true ∧ x.rd O.NET0_MODE = 1 ∧
    ({ s with net := { s.net with mdio := some (2 ^ 30) } } : State).net.mdio = some (2 ^ 30) := by decide +kernel

theorem wit_PortsTriggersAndEdgesAct_wakes :
    ∀ st ∈ [1, 2],
      let s := networked 1 [(O.PLCA_ENABLE, 1), (O.PLCA_NODE_ID, 1), (O.PLCA_STATUS, st), (O.DOMAIN_POWER 58, 1),
        (O.NET1_WAKE_ENABLE, 1), (O.WAKE_ETHERTYPE, 0x88B5)]
      let s := withBytes O.WAKE_PATTERN (List.replicate 8 9) s
      s.alive = true ∧ s.ready 0x22 = true ∧ s.plcaFollows = true ∧ s.rd O.PLCA_STATUS = st ∧ s.domOn 58 = false ∧
      s.on O.NET1_WAKE_ENABLE = true ∧ s.mac 1 = [2, 0, 0, 0, 0, 2] ∧ s.rd O.WAKE_ETHERTYPE = (0x88B5 : Fin 65536).val ∧
      (List.replicate 8 (9 : Byte)).take 8 = s.rdB O.WAKE_PATTERN := by decide +kernel

/-- TIME_IO 3 captures or wakes, with its queue empty or full. -/
theorem wit_PortsTriggersAndEdgesAct_edges :
    ∀ mode ∈ [1, 3], ∀ n ∈ [0, 16],
      let s := networked 1 [(O.TIME_IO_CLAIM 3, 31), (O.TIO_MODE 3 31, mode), (O.TIO_EDGE 3 31, 3)]
      let s := { s with net := { s.net with captures := s.net.captures.set 3 (List.replicate n []) } }
      s.sized = true ∧ s.alive = true ∧ s.tioOwner (3 : Fin 4) = 31 ∧ s.rd (O.TIO_MODE 3 31) = mode ∧ s.domOn 63 = true ∧
      s.rd (O.TIO_EDGE 3 31) = 3 ∧ (nth s.net.captures 3 []).length = n := by decide +kernel

/-- The pulse train of a single pulse from `start`, of 1 ns. -/
def pulse (start : Nat) (inPulse : Bool) : Train :=
  { start, period := 0, width := 65536, count := 0, idleHigh := false, k := 0, inPulse, waiting := false }

/-- A pulse due now, one due beyond the cycle, and one whose end is due within half a cycle. -/
theorem wit_PortsTriggersAndEdgesAct_pulses :
    ∀ x ∈ [(pulse 0 false, (0 : Int)), (pulse 131073 false, 131073), (pulse 0 true, 65536)],
      let s := (networked 1 [(O.TIME_IO_CLAIM 3, 31)]).setTrain 3 (some x.1)
      s.train (3 : Fin 4) = some x.1 ∧ s.sized = true ∧ s.alive = true ∧ s.timeRuns = true ∧ s.tioOwner (3 : Fin 4) = 31 ∧
      s.ahead ((x.1.start + x.1.k * x.1.period + if x.1.inPulse then x.1.width else 0) % 2 ^ 64) = x.2 := by
  decide +kernel

theorem wit_PortsTriggersAndEdgesAct_triggers :
    ∀ p ∈ [0, 655360000],
      let keys := each 7 O.TRIG_CLAIM 0xFF ++ [(O.TRIG_CLAIM 7, 31), (O.TRIG_STATE 7 31, 1), (O.TRIG_TARGET 7 31, 0),
        (O.TRIG_PERIOD 7 31, p), (O.TRIG_ACTIONS 7 31, 2)]
      let s := networked 1 keys
      let off := networked 1 (keys ++ [(O.DOMAIN_POWER 63, 1)])
      s.alive = true ∧ s.timeRuns = true ∧ s.timeComing = false ∧ s.dueTriggers = [(7, 0)] ∧ s.armed 7 = some 31 ∧
      (s.rd (O.TRIG_ACTIONS 7 31)).testBit 2 = false ∧ (s.rd (O.TRIG_ACTIONS 7 31)).testBit 3 = false ∧
      s.rd (O.TRIG_PERIOD 7 31) = p ∧ off.alive = true ∧ off.domOn 63 = false ∧ (7, 0) ∈ off.dueTriggers ∧
      (off.rd (O.TRIG_ACTIONS 7 (off.trigOwner 7))).testBit 1 = true := by decide +kernel

/-! ### Security -/

/-- The security state changed by `g`, with the objects named at the values given. -/
def secured (g : Security → Security) (kvs : List (Nat × Nat)) : State :=
  let s := up (kvs ++ [(O.DEVICE_SAFE, 0), (O.READY, 2 ^ 54 - 1), (O.LINK_STATE, 2), (O.POWER_STATE, 4), (O.SLOT_STATE 0, 2)])
  { s with security := g s.security }

theorem wit_KeysComeWithEntropy :
    let s := secured (fun x => x) [(O.ENTROPY_STATE, 0), (O.SLOT_STATE 0, 0)]
    let later := secured (fun x => { x with everReady := true, nonceDue := false, tasks := [.admission 31] }) [(O.ENTROPY_STATE, 2)]
    let ok := secured (fun x => x) [(O.ENTROPY_STATE, 1)]
    s.sized = true ∧ s.alive = true ∧ s.rd O.ENTROPY_STATE ≠ 1 ∧ s.security.tasks = [] ∧ s.security.everReady = false ∧
    s.rd (O.SLOT_STATE 0) = 0 ∧ (∀ q, q < 8 → (s.queue 0 q).sqHead = (s.queue 0 q).sqTail) ∧
    s.security.nonceDue = true ∧ later.sized = true ∧ later.alive = true ∧ later.rd O.ENTROPY_STATE ≠ 1 ∧
    later.security.everReady = true ∧ later.rd (O.SLOT_STATE 0) = 2 ∧ later.security.tasks = [.admission 31] ∧
    later.security.nonceDue = false ∧ (∀ q, q < 8 → (later.queue 31 q).sqHead = (later.queue 31 q).sqTail) ∧
    ok.alive = true ∧ ok.rd O.ENTROPY_STATE = 1 := by decide +kernel

theorem wit_KeysComeWithEntropy_tasks :
    let s := secured (fun x => { x with tasks := [.measure 31 0x1000 64], nonceDue := false }) [(O.ENTROPY_STATE, 0)]
    let e := secured (fun x => { x with tasks := [.exchange [7]], nonceDue := false }) [(O.ENTROPY_STATE, 0)]
    s.alive = true ∧ s.ready 0x2C = true ∧ s.security.tasks = [.measure (31 : Fin 32) 0x1000 64] ∧ e.alive = true ∧
    e.rd O.ENTROPY_STATE ≠ 1 ∧ e.security.nonceDue = false ∧ e.security.tasks = [.exchange [7]] := by decide +kernel

/-- A request of DSP0274's version 1.2 with `code` and the octets that follow. -/
def spdmReq (code : Byte) (rest : List Byte) : List Byte := [0x12, code] ++ rest

/-- One message for each row of Table 18.9. -/
def spdmRows : List (Instr × Nat × Nat × List Byte) :=
  [(.getVersion (spdmReq 0x84 [0, 0]), 0x84, 0, spdmReq 0x84 [0, 0]),
   (.getCapabilities (spdmReq 0xE1 [0, 0]), 0xE1, 1, spdmReq 0xE1 [0, 0]),
   (.negotiateAlgorithms (spdmReq 0xE3 [0, 0]), 0xE3, 2, spdmReq 0xE3 [0, 0]),
   (.getDigests (spdmReq 0x81 [0, 0]), 0x81, 3, spdmReq 0x81 [0, 0]),
   (.getCertificate (spdmReq 0x82 [0, 0, 0, 0, 64, 0]), 0x82, 3, spdmReq 0x82 [0, 0, 0, 0, 64, 0]),
   (.challenge (spdmReq 0x83 [0, 0xFF]), 0x83, 3, spdmReq 0x83 [0, 0xFF]),
   (.getMeasurements 0 (spdmReq 0xE0 [1, 0x2F]), 0xE0, 3, spdmReq 0xE0 [1, 0x2F]),
   (.keyExchange (spdmReq 0xE4 [0, 0]), 0xE4, 3, spdmReq 0xE4 [0, 0]), (.finish 9 (spdmReq 0xE5 [0, 0]), 0xE5, 3, spdmReq 0xE5 [0, 0]),
   (.endSession 9 (spdmReq 0xEC [0, 0]), 0xEC, 3, spdmReq 0xEC [0, 0]),
   (.spdmHeartbeat 9 (spdmReq 0xE8 [0, 0]), 0xE8, 3, spdmReq 0xE8 [0, 0]),
   (.keyUpdate 9 (spdmReq 0xE9 [3, 0]), 0xE9, 3, spdmReq 0xE9 [3, 0])]

/-- An opened SPDM session 9, and one that KEY_EXCHANGE has begun. -/
def opened : SpdmSession := { id := 9, established := true, draw := 0, updates := 0 }
def begun : SpdmSession := { opened with established := false }

theorem wit_SpdmAnswers :
    let s := secured (fun x => { x with spdmPhase := 3, sessions := [opened] }) []
    let busy := secured (fun x => { x with tasks := [.measure 0 0 64] }) []
    (s.alive = true ∧ s.linkUp = true ∧ s.ready 0x2C = true ∧ s.security.tasks = [] ∧ busy.security.tasks ≠ []) ∧
    ∀ p ∈ spdmRows, spdmRow p.1 = some p.2 ∧ field p.2.2.2 1 1 = p.2.1 ∧ field p.2.2.2 0 1 = 0x12 ∧
      p.2.2.1 ≤ s.security.spdmPhase ∧ (p.2.2.1 = 0 ∨ State.reset.security.spdmPhase < p.2.2.1) := by decide +kernel

/-- What `State.responds` asks. -/
theorem wit_SpdmAnswers_responds (p : Instr × Nat × Nat × List Byte) (h : p ∈ spdmRows) :
    (secured (fun x => { x with spdmPhase := 3, sessions := [opened] }) []).responds p.1 p.2.2.2 := by
  obtain ⟨⟨a, l, r, t, -⟩, h'⟩ := wit_SpdmAnswers
  obtain ⟨row, code, version, phase, -⟩ := h' p h
  exact ⟨a, l, r, t, ⟨p.2.1, p.2.2.1, row, code, phase⟩, .inl version⟩

/-- A certificate chain, the generator of P-384 as the requester's share, and the limit of four sessions. The verify data
of FINISH are opaque, so which of its two outcomes a message has is open. -/
theorem wit_SpdmAnswers_sessions :
    let chain := withBytes O.CERT_CHAIN [1, 2, 3, 4]
    let s := chain (secured (fun x => { x with sessions := [begun] }) [(O.ENTROPY_STATE, 1)])
    let full := chain (secured (fun x => { x with sessions := List.replicate 4 opened }) [])
    let m := spdmReq 0xE4 ([0, 0, 9, 0] ++ List.replicate 34 0 ++ beBytes 48 p384G.1 ++ beBytes 48 p384G.2)
    s.provisioned = true ∧ (secured (fun x => x) []).provisioned = false ∧ s.rd O.ENTROPY_STATE = 1 ∧
    s.exchangeError m = none ∧ full.exchangeError m = some spdmSessions ∧ 4 ≤ full.security.sessions.length ∧
    (s.security.sessions.find? fun x => x.id == (9 : Fin 4294967296).val && x.established == false) = some begun ∧
    full.inSession (9 : Fin 4294967296) = true ∧ s.inSession (9 : Fin 4294967296) = false ∧
    (s.security.sessions.any fun x => x.id == (9 : Fin 4294967296).val && x.established) = false ∧
    field (spdmReq 0xE0 [1, 0xFF]) 2 1 % 2 = 1 ∧ s.measurements ≠ [] := by decide +kernel

/-- The requests that need a secured session. -/
def securedRows : List Instr :=
  [.query 9 0, .keyProg 9 4 1 2 true (List.replicate 40 1), .kSetGo 9 4 1 2 true, .kSetStop 9 4 1 2 true, .getTdispVersion 9 31,
   .getTdispCapabilities 9 31, .lockInterfaceRequest 9 31 4, .getDeviceInterfaceReport 9 31 0 64, .getDeviceInterfaceState 9 31,
   .startInterfaceRequest 9 31 [], .stopInterfaceRequest 9 31]

/-- Stream 4 is Secure, with all six places of key set 1 active. -/
def secureStream : IdeStream := { state := 2, programmed := 0x3F0000, active := 0x3F0000, keys := [] }

theorem wit_IdeKeysAndStreams :
    let s := secured (fun x => { x with sessions := [opened], ide := x.ide.set 4 secureStream,
                                        tdiStream := x.tdiStream.set 31 4 }) [(O.TDI_STATE 31, 2)]
    let none_ := secured (fun x => x) []
    (∀ c ∈ securedRows, securedRow c = some 9) ∧ s.sized = true ∧ s.alive = true ∧ s.linkUp = true ∧ s.ready 0x2C = true ∧
    s.security.tasks = [] ∧ (s.security.sessions.any fun x => x.id == (9 : Fin 4294967296).val && x.established) = true ∧
    none_.security.sessions = [] ∧ s.ready 0x2D = true ∧ s.keyProgStatus 5 2 (List.replicate 40 1) ≠ 0 ∧
    (s.ideStream 4).programmed.testBit (ideSlot 1 2 true) = true ∧ ideSlot 1 2 true = 21 ∧ (s.ideStream 4).state = 2 ∧
    (s.ideStream 3).state ≠ 2 ∧ (s.ideStream 4).programmed.testBit (ideSlot 0 2 true) = false ∧
    nth s.security.tdiStream 31 0 = 4 ∧ s.tdiLocked 31 = true := by decide +kernel

theorem wit_InterfacesLockStartAndStop :
    ∀ st ∈ [0, 1, 2],
      let s := secured (fun x => { x with sessions := [opened], ide := x.ide.set 4 secureStream,
                                          tdiNonce := x.tdiNonce.set 31 [5] })
        [(O.TDI_STATE 31, st), (O.SLOT_STATE 31, 2), (O.ENTROPY_STATE, 1)]
      let v := { s with host := { s.host with vfEnable := true } }
      (∀ c ∈ securedRows.drop 4, tdispRow c = some 31) ∧ s.host.vfEnable = false ∧ v.sized = true ∧ v.alive = true ∧
      v.linkUp = true ∧ v.ready 0x2C = true ∧ v.security.tasks = [] ∧ v.host.vfEnable = true ∧
      v.rd (O.TDI_STATE (31 : Fin 32)) = st ∧ v.admitted (31 : Fin 32) = true ∧ (v.ideStream (4 : Fin 8)).state = 2 ∧
      (v.ideStream (3 : Fin 8)).state ≠ 2 ∧ v.rd O.ENTROPY_STATE = 1 ∧ (v.tdiLocked (31 : Fin 32) = true ↔ st ≠ 0) ∧
      nth v.security.tdiNonce (31 : Fin 32) [] = [5] ∧ v.ready 0x20 = true := by decide +kernel

/-! ### Integrity and recovery -/

/-- Every domain On, in normal operation, with the objects named at the values given. -/
def serviced (kvs : List (Nat × Nat)) : State :=
  let s := up (kvs ++ [(O.DEVICE_SAFE, 0), (O.READY, 2 ^ 54 - 1), (O.POWER_STATE, 4)] ++ each 80 O.DOMAIN_POWER 2 ++
    [(O.HELD, 0)])
  { s with power := { s.power with bringup := false } }

theorem wit_RoundsTestEveryUnit :
    let s := serviced []
    let worked := { s with integrity := { s.integrity with claims := s.integrity.claims.set 15 [(63, 9)] } }
    let again := { s with integrity := { s.integrity with tested := 2 ^ 54 - 1 } }
    s.sized = true ∧ s.alive = true ∧ s.roundsRun = true ∧ s.security.tasks = [] ∧
    (∀ u : Fin 54, u ∈ [(0 : Fin 54), 15, 16, 19, 0x2A, 0x2D] → katUnit u = true ∧ s.ready u = true ∧
      s.unitPowered u = true ∧ s.integrity.tested.testBit u = false ∧ again.integrity.tested.testBit u = true) ∧
    nth s.integrity.claims 15 [] = [] ∧ nth worked.integrity.claims 15 [] = [(63, 9)] := by decide +kernel

/-- One place of each kind: a core's memory with and without a tenant, a tenant's segment, Patrol's stores. -/
theorem wit_ScrubFindsErrors :
    let s := serviced ([(O.LODGE_SEG_OWNER 31, 31)] ++ each 31 O.LODGE_SEG_OWNER 0xFF)
    let held := s.modCore 15 fun x => { x with holds := some 31 }
    let image := { s with security := { s.security with images := s.security.images.set 2 (some ⟨[], [1]⟩) } }
    let recent := { s with integrity := { s.integrity with eccRecAt := [(0, 0)] } }
    (∀ p ∈ [EccPlace.coreMem 15 0x1FFFFF, .lodge 31 0xFFFFF, .lodge 0 0x80400, .lodge 1 0xC0000, .rinkLine 3 31 0 true,
      .rinkControl 3 0, .historyRing 0, .baseMem 0, .ioBuffer 0x25 0, .aonControl 0, .patrolStore 0, .traceBuffer 4095 0],
      s.unitPowered (eccUnit p) = true) ∧ s.sized = true ∧ s.alive = true ∧ (s.core 15).holds = none ∧
    (held.core 15).holds = some 31 ∧ s.rd (O.LODGE_SEG_OWNER 31) = 31 ∧ (s.segmentAddr 31 0xFFFFF).isSome = true ∧
    image.imageAt 0xC0000 = some 2 ∧ (kvGet 0 recent.integrity.eccRecAt).any (fun c => decide (recent.clock < c + 1000000000)) = true ∧
    (kvGet 0 s.integrity.eccRecAt).any (fun c => decide (s.clock < c + 1000000000)) = false := by decide +kernel

/-- Die 1 in service with one recent cause and with two, waiting to cool or not, in its restart, and ready after it. -/
theorem wit_DiesRestart :
    let s := serviced (each 2 O.DIE_STATE 1)
    let third := { s with integrity := { s.integrity with causes := s.integrity.causes.set 1 [0, 0] } }
    let off := up [(O.DOMAIN_POWER 8, 1), (O.DOMAIN_POWER 9, 1), (O.DOMAIN_POWER 10, 1), (O.DOMAIN_POWER 11, 1),
      (O.DOMAIN_POWER 12, 1), (O.DOMAIN_POWER 13, 1)]
    let unready := serviced [(O.READY, 0)]
    s.sized = true ∧ s.alive = true ∧ s.ready (0x10 + (3 : Fin 4)) = true ∧ s.dieOn (1 : Fin 2) = true ∧
    s.power.bringup = false ∧ s.rd (O.DIE_STATE 1) < 2 ∧
    ((nth third.integrity.causes 1 []).filter fun c => decide (third.clock < c + 10000000000)).length = 2 ∧
    off.sized = true ∧ off.alive = true ∧ off.dieOn (1 : Fin 2) = false ∧ unready.alive = true ∧
    unready.ready (0x10 + (3 : Fin 4)) = false ∧ s.unitPowered 0x2C = true := by decide +kernel

theorem wit_DiesRestart_resets :
    ∀ st ∈ [2, 3], ∀ cool ∈ [false, true],
      let s := serviced (each 2 O.DIE_STATE st)
      let s := s.modLim 1 fun x => { x with waitCool := cool }
      s.sized = true ∧ s.alive = true ∧ s.rd (O.DIE_STATE (1 : Fin 2)) = st ∧ (s.lim (1 : Fin 2)).waitCool = cool ∧
      (∀ u ∈ dieUnits (1 : Fin 2), s.ready u = true) := by decide +kernel

/-! ### The whole block -/

/-- A die is still safe after a command that only the sideband answers, and after one that has no effect. -/
theorem wit_SafeStateHoldsUntilReset :
    let s := up [(O.DEVICE_SAFE, 1), (O.SAFE_CAUSE, 7)]
    let c := { s with pending := [.spiUnknownCommand 0, .latchExpiry] }
    s.released = true ∧ s.on O.DEVICE_SAFE = true ∧ (∃ t, step s = .next t) ∧ c.released = true ∧ c.on O.DEVICE_SAFE = true ∧
    (∀ x, c.pending.head? = some x → resetRow x = false) ∧ ∃ t, step c = .next t := by
  refine ⟨by decide +kernel, by decide +kernel, ⟨_, rfl⟩, by decide +kernel, by decide +kernel, ?_, ⟨_, rfl⟩⟩
  intro x h; cases h; rfl

theorem wit_StepsKeepForm : State.reset.memsWf = true ∧ State.reset.sized = true ∧ ∃ t, step State.reset = .next t :=
  ⟨by decide +kernel, by decide +kernel, _, rfl⟩

/-! ### Ill-formed commands -/

/-- A PTP message whose clockIdentity is one byte short. -/
def shortId : PtpMsg := { message 0 7 with clockId := List.replicate 7 0 }

/-- One ill-formed command for each check of `Instr.wf`: a unit that does not exist, a phase the I/O die's regulator lacks,
a fixed load above the load, lengths of addresses, messages and entries, an SPI command that has a meaning of its own, a
link rate of none and a width of three lanes, taps of seven channels, and an I/O buffer of no unit. -/
theorem test_ill_formed_commands_are_refused :
    ∀ c ∈ [Instr.unitReady 0x14 true [], .readyTimeout 0x17, .drainTimeout 0x1D, .katRun 0x1F false false 0 false,
      .phaseFailOpen 2 4 ⟨1, 1⟩, .phaseSenseDisagreement 0 7 ⟨1, 2⟩, .phaseOvercurrent 2 7 ⟨1, 1⟩, .burstEnd 0 false false 1 ⟨1, 2⟩,
      .housekeepingTick false false false ⟨1, 2⟩, .nypDatagramRx 0 (List.replicate 6 0) [], .mbDoorbell 0 (List.replicate 1041 0),
      .spiUnknownCommand 1, .spiUnknownCommand 3, .tileComplete 0 0 0 ⟨0, 0, []⟩, .sqTail 0 0 (List.replicate 63 0) 1,
      .linkL0 0 8, .linkL0 5 3, .ringBlockBoundary (List.replicate 7 (List.replicate 64 0)),
      .ringBlockBoundary (List.replicate 8 (List.replicate 64 8388608)), .sync 0 shortId true, .followUp 0 shortId,
      .signaling shortId 0 0 0, .delayReq shortId, .delayResp shortId, .pdelayReq shortId, .pdelayResp shortId,
      .pdelayRespFollowUp shortId, .announce 0 shortId ⟨List.replicate 8 0, 0, 0, 0, 0, 0, 0, 0⟩,
      .announce 0 (message 0 7) ⟨[], 0, 0, 0, 0, 0, 0, 0⟩, .arpRequest 0 (List.replicate 5 0) 0 0,
      .neighborSolicitation 0 (List.replicate 6 0) (List.replicate 16 0) [], .wakeFrame [] 0 [],
      .scrubStep (some (.ioBuffer 0x1D 0)) true 0 false], c.wf = false := by decide +kernel

/-- And commands at the edge of each check that are well-formed. -/
theorem test_well_formed_commands :
    ∀ c ∈ [Instr.unitReady 0x13 true [], .readyTimeout 0x1C, .drainTimeout 0x20, .katRun 0x35 false false 0 false,
      .phaseFailOpen 2 3 ⟨1, 1⟩, .phaseSenseDisagreement 0 7 ⟨1, 1⟩, .nypDatagramRx 0 (List.replicate 18 0) [],
      .mbDoorbell 0 (List.replicate 1040 0), .spiUnknownCommand 0, .spiUnknownCommand 4, .sqTail 0 0 (List.replicate 64 0) 1,
      .linkL0 1 1, .linkL0 5 8, .ringBlockBoundary (List.replicate 8 (List.replicate 64 (-8388608))), .sync 0 (message 0 7) true,
      .scrubStep (some (.ioBuffer 0x20 0)) true 0 false], c.wf = true := by decide +kernel

/-! ### The spec's worked examples -/

/-- The state that a command gives, where it gives one. -/
def after (c : Instr) (s : State) : State :=
  match exec c s with
  | .next t => t
  | _ => State.reset

/-- The example after R51: tenant 0 owns TIME_IO2, and tenant 3's CLAIM is answered OWNED_BY. -/
theorem test_example_refused_claim :
    let s := running [(O.TIME_IO_CLAIM 2, 0), (O.GRANT_TIME_IO, 9)]
    let t := after (.mbDoorbell 3 [0x17, 0, 3, 0, 0x2A, 0, 0, 0x12, 3, 1, 0, 0, 0, 0, 0, 0]) s
    (t.func 3).mbResponse.take 16 = [0x17, 3, 3, 0, 0x2A, 0, 0, 0x12, 3, 1, 0, 0, 0, 1, 0, 4] := by decide +kernel

/-- Its continuation in chapter 16: tenant 3 writes PULSE to its instance of 3102.01 and is answered NOT_OWNED. -/
theorem test_example_refused_pulse :
    let s := running [(O.TIME_IO_CLAIM 2, 0)]
    let t := after (.mbDoorbell 3 [0x11, 0, 3, 0, 0x2B, 0, 2, 0x31, 1, 1, 1, 0, 0, 0, 0, 0, 2]) s
    (t.func 3).mbResponse.take 16 = [0x11, 3, 3, 0, 0x2B, 0, 2, 0x31, 1, 1, 0, 0, 1, 0, 0, 4] := by decide +kernel

/-- The example after R94: two phase failures on die A at 1.2 GHz. -/
theorem test_example_phase_failures :
    let s := running [(O.REG_PHASE_MAP 0, 255), (O.REG_STATE 0, 1), (O.RINK_FREQ 0, 1200), (O.RINK_FREQ 1, 1200)]
    let t := after (.phaseFailOpen 0 3 ⟨25000, 2000⟩) s
    let u := after (.phaseSenseDisagreement 0 6 ⟨25000, 2000⟩) t
    t.rd (O.REG_PHASE_MAP 0) = 0xF7 ∧ t.rd (O.REG_ILIMIT_MA 0) = 26000 ∧ u.rd (O.REG_ILIMIT_MA 0) = 24000 ∧
    u.rd (O.REG_FREQ_CEILING 0) = 1125 ∧ u.rd (O.REG_STATE 0) = 2 := by decide +kernel

/-- The example after R151: RECIP of 3, and EXP2 of -1.5. -/
theorem test_example_recip_exp2 : recipFix 3 = (1431655765, 30) ∧ exp2Fix (-98304) = 759250125 := by decide +kernel

/-- The example after R179: block-float rounding and alignment. -/
theorem test_example_block_float :
    blockMantissas 9 [(192, -6), (205, -11), (-128, -14), (179, -7)] = (-6, [192, 6, 0, 90]) ∧
    alignAcc 123458 (-14) (-12) = 30864 ∧ alignAcc (-123458) (-14) (-12) = -30864 := by decide +kernel

/-- The example after R185: 10,880 rescaled to code 44. -/
theorem test_example_rescale :
    ({ bias := 819, m := 49152, shift := 24, reserved := 0, zOut := 10, cMin := 10, cMax := 255 } : Rescale).apply 10880 = 44 := by
  decide +kernel

/-- The example after R237: v of the patch d, and the kernel operand g[1][1] recovered from u. -/
theorem test_example_winograd :
    let rows (m : List (List Int)) (i j : Nat) : Int := nth (nth m i []) j 0
    let d := rows [[3, 1, 0, 2], [-1, 4, 2, 0], [0, 2, -3, 1], [5, 0, 1, 2]]
    let u := rows [[4, 6, -2, 0], [6, 6, 2, 2], [6, 2, -6, -10], [8, 2, -2, -8]]
    (∀ i < 4, ∀ j < 4, sandwich winoBt d i j =
      rows [[0, 2, 4, -2], [0, 5, -7, 5], [6, -7, -3, -3], [-7, 5, -3, 6]] i j) ∧
    (∀ i < 2, ∀ j < 2, sandwich winoAt (fun a b => u a b * sandwich winoBt d a b) i j = rows [[60, -8], [16, 44]] i j) ∧
    sandwich winoH u 1 1 / 4 = -1 := by decide +kernel

/-- The example after R265: the row through two key blocks, at its end. -/
theorem test_example_attention :
    exp2Fix (-65536) = 1073741824 ∧ shrRhe (exp2Fix (-131072)) 16 = 8192 ∧ recipFix 57344 = (1227133513, 16) ∧
    shrRhe (688128 * 1227133513) 30 = 786432 := by decide +kernel

/-- The example after R280: 2^(-1/128) in EXP2's scale. -/
theorem test_example_decay : exp2Fix (-512) = 2135885998 ∧ shrRhe (32591 * 1000000) 15 = 994598 := by decide +kernel

/-- The example after R340: half a step of delay at unity gain. -/
theorem test_example_half_step : calibrate [4000, 3000, 2000, 1000] (2 ^ 22) 128 = 2500 := by decide +kernel

/-- The example after R388: a target across the wrap lies 2^41 units ahead. -/
theorem test_example_wrap :
    let s := { up [] with time := { TimeBase.reset with now := 0xFFFFFF0000000000 } }
    s.ahead 0x0000010000000000 = 2 ^ 41 := by decide +kernel

/-- The example after R240: one sample of a crop. -/
theorem test_example_crop :
    sampleAt 1 0 200 51 (fun x _ => if x = 101 then 40 else if x = 102 then -24 else 0) 26052 12800 = -589824 ∧
    divRhe (-589824) 65536 + 128 = 119 := by decide +kernel

/-- The catalogued check value of the CRC-32 of R40, and FIPS 180-4's digest of "abc". -/
theorem test_check_values :
    crc32 [0x31, 0x32, 0x33, 0x34, 0x35, 0x36, 0x37, 0x38, 0x39] = 0xCBF43926 ∧
    beNat (sha384 [0x61, 0x62, 0x63]) =
      0xcb00753f45a35e8bb5a03d699ac65007272c32ab0eded1631a8b605a43ff5bed8086072ba1e7cc2358baeca134c825a7 := by decide +kernel

/-! ### Steps -/

/-- An idle step is 4 ns, and a command's effect leaves the commands behind it waiting. -/
theorem test_steps :
    (match step State.reset with | .next t => t.clock | _ => 0) = 4 ∧
    (match step { up [] with pending := [.wakeHoldExpiry, .l1Exit] } with | .next t => t.pending | _ => []) = [.l1Exit] := by
  decide +kernel

/-- R63: a POR_N pulse between 2 and 10 µs stops the machine; every word of the table spells no command. -/
theorem test_stop_and_words :
    exec (.porNAssert 2000) (up []) = .fault .forbiddenPulse ∧ (State.reset.withFetchWord 32 0).pending = [] ∧
    decodeTableWord 8 0 = none := by
  refine ⟨rfl, rfl, rfl⟩

end Sys2Proof.Tests
end

/-!
Requests that read (R22, R23, R29, R33): what an endpoint does with a request that it hears, what READ and READ_BLOCK of
one subindex answer and may change, and the release of snapshots.
-/

namespace Sys2Proof.Machine

/-! ### The order of aborts -/

/-- A check that refuses leaves an abort, whichever of R30's order it is. -/
theorem firstAbort_concat_ne_none (xs : List Abort) (a : Abort) : firstAbort (xs ++ [a]) ≠ none := by
  simp only [firstAbort, List.foldl_append, List.foldl_cons, List.foldl_nil]
  split
  · simp
  · split <;> simp

/-- Nothing aborts exactly where no check refuses. -/
theorem firstAbort_eq_none {xs : List Abort} : firstAbort xs = none ↔ xs = [] := by
  refine ⟨fun h => ?_, fun h => by subst h; rfl⟩
  rcases List.eq_nil_or_concat xs with rfl | ⟨ys, a, rfl⟩
  · rfl
  · exact absurd h (by simpa using firstAbort_concat_ne_none ys a)

@[simp] theorem firstAbort_singleton (a : Abort) : firstAbort [a] = some a := rfl

/-! ### The request and its endpoint -/

@[simp] theorem Req.via_via (q : Req) (ep : Endpoint) : (q.via ep).via ep = q.via ep := by cases ep <;> rfl

@[simp] theorem Req.via_op (q : Req) (ep : Endpoint) : (q.via ep).op = q.op := by cases ep <;> rfl

@[simp] theorem Req.via_payload (q : Req) (ep : Endpoint) : (q.via ep).payload = q.payload := by cases ep <;> rfl

/-- A mailbox that holds a request has changed in nothing else. -/
theorem State.posted_frame (s : State) (ep : Endpoint) (q : Req) : s.Frame [.delivery] [] (s.posted ep q) := by
  cases ep with
  | mailbox f => exact s.modFunc_frame f _ fun _ => rfl
  | session n => exact State.Frame.self s
  | spi => exact State.Frame.self s

@[simp] theorem State.posted_on (s : State) (ep : Endpoint) (q : Req) : (s.posted ep q).on = s.on := by
  cases ep <;> rfl

@[simp] theorem State.posted_epTenant (s : State) (ep : Endpoint) (q : Req) : (s.posted ep q).epTenant = s.epTenant := by
  cases ep <;> rfl

@[simp] theorem State.posted_snaps (s : State) (ep : Endpoint) (q : Req) : (s.posted ep q).snaps = s.snaps := by
  cases ep <;> rfl

@[simp] theorem State.posted_mismatch (s : State) (ep : Endpoint) (q : Req) : (s.posted ep q).mismatch = s.mismatch := by
  cases ep <;> rfl

/-! ### The response held -/

/-- The number of functions and of session slots: what an endpoint needs to hold a response. -/
def State.holdsResponses (s : State) : Prop := s.host.funcs.length = 32 ∧ s.sessions.length = 16

theorem State.sized_holdsResponses {s : State} (h : s.sized = true) : s.holdsResponses := by
  simp only [State.sized, Bool.and_eq_true, beq_iff_eq, and_assoc] at h
  obtain ⟨-, hsess, -, -, hfuncs, -⟩ := h
  exact ⟨hfuncs, hsess⟩

/-- Neither number changes while the mailboxes and the sessions are as they were. -/
theorem State.Frame.holdsResponses {s t : State} {ps : List Part} {ks : List Nat} (h : s.Frame ps ks t)
    (hd : Part.delivery ∉ ps) (hn : Part.sessions ∉ ps) (hs : s.holdsResponses) : t.holdsResponses := by
  obtain ⟨-, -, -, hfuncs⟩ := h.1 .delivery hd
  have hsess : t.sessions = s.sessions := h.1 .sessions hn
  have hlen := congrArg List.length hfuncs
  simp only [List.length_map] at hlen
  exact ⟨hlen.trans hs.1, by rw [hsess]; exact hs.2⟩

theorem State.posted_holdsResponses {s : State} (ep : Endpoint) (q : Req) (h : s.holdsResponses) :
    (s.posted ep q).holdsResponses := by
  cases ep with
  | mailbox f => simpa [State.holdsResponses, State.posted, State.modFunc, modNth] using h
  | session n => exact h
  | spi => exact h

/-- The state in which an endpoint holds the response `msg` to `q`; a session sends it on `port` as well. -/
def State.holdResponse (s : State) (ep : Endpoint) (port : Option Nat) (q : Req) (msg : List Byte) : State :=
  match ep with
  | .mailbox f => (s.modFunc f fun x => { x with mbResponse := msg, respReady := true }).msix f 0
  | .session n =>
    (s.modSession n fun x =>
      { x with kept := ({ seq := q.seq, op := q.op, index := q.idx, sub := q.sub, resp := msg } :: x.kept).take 8 }).sendResp
        n port msg
  | .spi => { s with spi := { s.spi with response := some msg, ahead := (s.ep 48).queue.length, busy := true } }

theorem State.sendResp_carries (s : State) {n : Nat} (h : n < 16) (port : Option Nat) (msg : List Byte) :
    s.Carries (s.sendResp n port msg) := by
  cases port with
  | none => exact State.Frame.self s
  | some p => exact s.sendUdp_carries h p msg

theorem State.holdResponse_frame (s : State) (ep : Endpoint) (port : Option Nat) (q : Req) (msg : List Byte) :
    s.Frame answerParts [] (s.holdResponse ep port q msg) := by
  cases ep with
  | mailbox f =>
    have h : s.Carries (s.modFunc f fun x => { x with mbResponse := msg, respReady := true }) :=
      s.modFunc_frame f _ fun _ => rfl
    exact State.Frame.event (h.comp (State.msix_carries _ _ _)) (by simp [answerParts])
  | session n =>
    exact ((s.modSession_frame n _).mono (by simp [answerParts]) (by simp)).comp
      (State.Frame.event (State.sendResp_carries _ n.isLt _ _) (by simp [answerParts]))
  | spi =>
    exact (s.modSpi_frame fun x => { x with response := some msg, ahead := (s.ep 48).queue.length, busy := true }).mono
      (by simp [answerParts]) (by simp)

/-- Signalling a vector leaves the mailbox's response. -/
theorem State.msix_mailbox (s : State) (f v : Nat) (hf : f < s.host.funcs.length) :
    ((s.msix f v).func f).respReady = (s.func f).respReady ∧ ((s.msix f v).func f).mbResponse = (s.func f).mbResponse := by
  unfold State.msix
  split
  · exact ⟨rfl, rfl⟩
  · simp [State.func, State.modFunc, nth, modNth, hf]

@[simp] theorem State.sendResp_sessions (s : State) (n : Nat) (port : Option Nat) (msg : List Byte) :
    (s.sendResp n port msg).sessions = s.sessions := by
  cases port <;> rfl

/-- The response that stands at an endpoint is the one it was given. -/
theorem State.holdResponse_response {s : State} (hs : s.holdsResponses) (ep : Endpoint) (port : Option Nat) (q : Req)
    (msg : List Byte) : (s.holdResponse ep port q msg).response ep = some msg := by
  obtain ⟨hfuncs, hsess⟩ := hs
  cases ep with
  | mailbox f =>
    have hf : f.val < s.host.funcs.length := by omega
    obtain ⟨hready, hresp⟩ := State.msix_mailbox
      (s.modFunc f fun x => { x with mbResponse := msg, respReady := true }) f 0 (by simpa [State.modFunc, modNth] using hf)
    simp only [State.response, State.holdResponse, hready, hresp]
    simp [State.func, State.modFunc, nth, modNth, hf]
  | session n =>
    have hn : n.val < s.sessions.length := by omega
    simp [State.response, State.holdResponse, State.sess, State.modSession, nth, modNth, hn]
  | spi => rfl

/-- The port over which an endpoint's session sends. -/
def State.respPort (s : State) (ep : Endpoint) : Option Nat :=
  match ep with
  | .session n => s.sessionPort n
  | _ => none

/-- A request executed as its endpoint posts it: the answer, and the state before the response is held. -/
def State.executed (s : State) (ep : Endpoint) (q : Req) : Answer × State := (s.posted ep q).execReq (epIdx ep) q

/-- An endpoint that hears a request executes it and holds the response (R28, R34). -/
theorem State.request_of_hears {s : State} {ep : Endpoint} {q : Req} (h : s.hears ep (q.via ep) = true) :
    s.request ep q =
      (s.executed ep (q.via ep)).2.holdResponse ep (s.respPort ep) (q.via ep)
        ((q.via ep).reply (s.executed ep (q.via ep)).1) := by
  simp only [State.hears, Req.via_via, Bool.and_eq_true] at h
  obtain ⟨htakes, hnew⟩ := h
  cases ep with
  | mailbox f =>
    simp only [State.takes, Bool.and_eq_true, Bool.not_eq_true'] at htakes
    obtain ⟨hup, hfree⟩ := htakes
    simp only [State.request, State.mailboxReq]
    rw [if_neg (by simp [hup]), if_neg (by simp [hfree])]
    rfl
  | session n =>
    simp only [Bool.and_eq_true, Option.isNone_iff_eq_none] at hnew
    obtain ⟨hadm, hfresh⟩ := hnew
    have hopen : (s.alive && s.rd (O.SESSION_STATE n) != 0 && (s.sessionPort n).isSome) = true := htakes
    have hfresh' : (s.sess n).keptFor { q with session := n + 1 } = none := hfresh
    simp only [State.request, State.sessionReq]
    rw [if_pos hopen, if_neg (by simp [hadm]), hfresh']
    rfl
  | spi =>
    simp only [State.takes, State.spiUp, Bool.and_eq_true, Bool.not_eq_true'] at htakes
    obtain ⟨hup, hidle⟩ := htakes
    simp only [State.request, State.spiReq]
    rw [if_neg (by simp [hup, hidle])]
    rfl

/-- What stands after a request that is heard: its response, and else what its execution left. -/
theorem State.request_answers {s : State} {ep : Endpoint} {q : Req} (hears : s.hears ep (q.via ep) = true)
    (hold : (s.executed ep (q.via ep)).2.holdsResponses) :
    (s.request ep q).response ep = some ((q.via ep).reply (s.executed ep (q.via ep)).1) ∧
      (s.executed ep (q.via ep)).2.Frame answerParts [] (s.request ep q) := by
  rw [State.request_of_hears hears]
  exact ⟨State.holdResponse_response hold _ _ _ _, State.holdResponse_frame _ _ _ _ _⟩

/-- The same for a request whose execution neither carries events nor touches a session. -/
theorem State.request_answers_quiet {s : State} {ep : Endpoint} {q : Req} {ps : List Part} (hs : s.sized = true)
    (hears : s.hears ep (q.via ep) = true) (hd : Part.delivery ∉ ps) (hn : Part.sessions ∉ ps)
    (hx : (s.posted ep (q.via ep)).Frame ps [] (s.executed ep (q.via ep)).2) :
    (s.request ep q).response ep = some ((q.via ep).reply (s.executed ep (q.via ep)).1) ∧
      s.Frame (answerParts ++ ps) [] (s.request ep q) ∧ (s.request ep q).snaps = (s.executed ep (q.via ep)).2.snaps := by
  have hposted : s.Frame (answerParts ++ ps) [] (s.posted ep (q.via ep)) :=
    State.Frame.event (s.posted_frame ep _) (by simp [answerParts])
  have hold := hx.holdsResponses hd hn (State.posted_holdsResponses ep _ (State.sized_holdsResponses hs))
  obtain ⟨hresp, hheld⟩ := State.request_answers hears hold
  refine ⟨hresp, ?_, (hheld.1 .transfers (by simp [answerParts])).2⟩
  exact (hposted.comp (hx.mono (by simp) (by simp))).comp (hheld.mono (by simp) (by simp))

/-- Past the form of the message and the safe state, a READ is `doRead`. -/
theorem State.execReq_read {s : State} {e : Nat} {q : Req} (hop : q.op = 0)
    (hb : q.bad (decide (32 ≤ e ∧ e < 48)) = false) (hsafe : s.on O.DEVICE_SAFE = true → safeAnswers q = true) :
    s.execReq e q = s.doRead (s.epTenant e) q (s.epAborts e q) := by
  have hok : (s.on O.DEVICE_SAFE && !safeAnswers q) = false := by
    cases h : s.on O.DEVICE_SAFE with
    | false => rfl
    | true => simp [hsafe h]
  simp only [State.execReq, hb, hok, hop, Bool.false_eq_true, if_false]

/-- Past the form of the message and the safe state, a READ_BLOCK is `doReadBlock`. -/
theorem State.execReq_readBlock {s : State} {e : Nat} {q : Req} (hop : q.op = 2)
    (hb : q.bad (decide (32 ≤ e ∧ e < 48)) = false) (hsafe : s.on O.DEVICE_SAFE = false) :
    s.execReq e q = s.doReadBlock e (s.epTenant e) q (s.epAborts e q) := by
  simp only [State.execReq, hb, hsafe, hop, Bool.false_and, Bool.false_eq_true, if_false]

section

variable {s : State} {ep : Endpoint} {q : Req} (hb : (q.via ep).bad (isNetEp ep) = false)
include hb

/-- A READ that an endpoint executes. -/
theorem State.executed_read (hop : q.op = 0) (hsafe : s.on O.DEVICE_SAFE = true → safeAnswers (q.via ep) = true) :
    s.executed ep (q.via ep) = (s.posted ep (q.via ep)).doRead (s.epTenant (epIdx ep)) (q.via ep)
      ((s.posted ep (q.via ep)).epAborts (epIdx ep) (q.via ep)) := by
  rw [← State.posted_epTenant s ep (q.via ep)]
  exact State.execReq_read (by rwa [Req.via_op]) hb (by rwa [State.posted_on])

/-- A READ_BLOCK that an endpoint executes. -/
theorem State.executed_readBlock (hop : q.op = 2) (hsafe : s.on O.DEVICE_SAFE = false) :
    s.executed ep (q.via ep) = (s.posted ep (q.via ep)).doReadBlock (epIdx ep) (s.epTenant (epIdx ep)) (q.via ep)
      ((s.posted ep (q.via ep)).epAborts (epIdx ep) (q.via ep)) := by
  rw [← State.posted_epTenant s ep (q.via ep)]
  exact State.execReq_readBlock (by rwa [Req.via_op]) hb (by rwa [State.posted_on])

end

/-! ### Reading a value -/

/-- Reading a value marks error records as read and may draw a free value (R22, R55). -/
theorem State.readVal_frame (s : State) (w k : Nat) : s.Frame [.marks, .integrity, .draws] [] (s.readVal w k).2 := by
  unfold State.readVal
  simp only
  split
  · exact State.Frame.self s
  · split
    · split
      · exact (s.freeVal_frame (keyBits k)).mono (by simp) (by simp)
      · exact State.Frame.self s
    · split
      · split
        · exact (State.Frame.self s).errRead (by simp) _
        · exact State.Frame.self s
      · split
        · exact (s.modInt_frame fun x => { x with failRead := setBit x.failRead (keySub k - 1) }).mono (by simp) (by simp)
        · exact State.Frame.self s

/-- A change of the network's state alone. -/
theorem State.net_frame (s : State) (n : Net) : s.Frame [.net] [] { s with net := n } := by
  refine ⟨fun p hp => ?_, fun j _ _ => rfl⟩
  cases p <;> first | (simp at hp; done) | simp [Part.same]

/-- A destructive read takes from the queues of the network alone (R401, R410). -/
theorem State.popQueue_frame (s : State) (k : Nat) : s.Frame [.net] [] (s.popQueue k) := by
  unfold State.popQueue
  simp only
  exact State.Frame.ite (fun _ => s.net_frame _) fun _ =>
    State.Frame.ite (fun _ => s.net_frame _) fun _ =>
      State.Frame.ite (fun _ => s.net_frame _) fun _ => State.Frame.self s

/-- The parts that a read may change. -/
def readParts : List Part := [.marks, .net, .integrity, .draws]

/-- A value read and what its read removes. -/
theorem State.readTaken_frame (s : State) (w k : Nat) : s.Frame readParts [] ((s.readVal w k).2.popQueue k) :=
  ((s.readVal_frame w k).mono (by simp [readParts]) (by simp)).comp
    ((State.popQueue_frame _ k).mono (by simp [readParts]) (by simp))

/-! ### READ -/

theorem Req.subs_of_count_one {q : Req} (h : q.count = 1) : q.subs = [q.sub] := by simp [Req.subs, h]

theorem Req.manyBlobs_of_count_one {q : Req} (h : q.count = 1) : q.manyBlobs = false := by simp [Req.manyBlobs, h]

/-- The answer to a READ of one subindex that holds `body` (R23, R29). -/
def readAnswer (q : Req) (mismatch : Bool) (body : List Byte) : Answer :=
  if 1024 < body.length then Answer.abort .badMessage q.sub
  else { flags := 1 + (if mismatch then 8 else 0), status := 0, sub := q.sub, body }

/-- A READ of one subindex that no check refuses: its answer, and what it may change. -/
theorem State.doRead_one {s : State} {w : Nat} {q : Req} {r : ObjRow} {extra : List Abort} (hc : q.count = 1)
    (hr : objInfo q.idx q.sub = some r) (ha : firstAbort (extra ++ readAborts w q q.sub) = none) :
    (s.doRead w q extra).1 = readAnswer q (s.mismatch.contains (instKey r q.idx q.sub q.tenant))
        (encodeVal r.ty (s.readVal w (instKey r q.idx q.sub q.tenant)).1) ∧
      s.Frame readParts [] (s.doRead w q extra).2 := by
  have hsubs := Req.subs_of_count_one hc
  have hone : State.readOne w q ([], s) q.sub =
      (encodeVal r.ty (s.readVal w (instKey r q.idx q.sub q.tenant)).1,
        (s.readVal w (instKey r q.idx q.sub q.tenant)).2.popQueue (instKey r q.idx q.sub q.tenant)) := by
    simp [State.readOne, hr]
  have hmis : s.reqMismatch q = s.mismatch.contains (instKey r q.idx q.sub q.tenant) := by
    simp [State.reqMismatch, hsubs, hr]
  simp only [State.doRead, Req.manyBlobs_of_count_one hc, hsubs, List.flatMap_cons, List.flatMap_nil, List.append_nil, ha,
    List.foldl_cons, List.foldl_nil, hone, hmis, Bool.false_eq_true, if_false]
  unfold readAnswer
  split
  · exact ⟨rfl, State.Frame.self s⟩
  · exact ⟨rfl, s.readTaken_frame w _⟩

/-! ### READ_BLOCK -/

/-- The data that a segment of `bytes` at `off` carries, at most `most` of it (R33). -/
def segLen (off most : Nat) (bytes : List Byte) : Nat := min (min most 1016) (bytes.length - off)

/-- The answer that carries a segment (R33). -/
def segAnswer (q : Req) (off most : Nat) (bytes : List Byte) : Answer :=
  { flags := 1 + (if off + segLen off most bytes < bytes.length then 4 else 0), status := 0, sub := q.sub,
    body := leBytes 4 off ++ leBytes 4 bytes.length ++ slice bytes off (segLen off most bytes) }

theorem State.snaps_frame (s : State) (xs : List Snapshot) : s.Frame [.transfers] [] { s with snaps := xs } := by
  refine ⟨fun p hp => ?_, fun j _ _ => rfl⟩
  cases p <;> first | (simp at hp; done) | simp [Part.same]

theorem State.segment_answer (s : State) (q : Req) (e k off most : Nat) (bytes : List Byte) :
    (s.segment q e k off most bytes).1 = segAnswer q off most bytes := by
  simp [State.segment, segAnswer, segLen, Answer.ok, segMax, fResponse, fMore]

theorem State.segment_frame (s : State) (q : Req) (e k off most : Nat) (bytes : List Byte) :
    s.Frame [.transfers] [] (s.segment q e k off most bytes).2 := s.snaps_frame _

/-- The snapshot an endpoint holds of an object. -/
def State.snapOf (s : State) (e k : Nat) : Option Snapshot := s.snaps.find? fun x => x.key == k && x.ep == e

/-- After a segment its snapshot is held where data remain, and released where none do (R33). -/
theorem State.segment_snapOf (s : State) (q : Req) (e k off most : Nat) (bytes : List Byte) :
    (s.segment q e k off most bytes).2.snapOf e k =
      if off + segLen off most bytes < bytes.length then some { key := k, ep := e, bytes } else none := by
  have hrest : (s.snaps.filter fun x => !(x.key == k && x.ep == e)).find? (fun x => x.key == k && x.ep == e) = none := by
    simp only [List.find?_eq_none, List.mem_filter]
    intro x hx
    simpa only [Bool.not_eq_true', Bool.not_eq_true] using hx.2
  simp only [State.segment, State.snapOf, segLen, segMax]
  by_cases hmore : off + min (min most 1016) (bytes.length - off) < bytes.length
  · simp only [hmore, decide_true, if_true, List.find?_append, hrest, Option.none_or]
    simp
  · simp only [hmore, decide_false, Bool.false_eq_true, if_false, hrest]

/-- The bytes that a READ_BLOCK at `off` reads from: the value at offset 0, and else the snapshot held (R33). -/
def State.blockBytes (s : State) (e w : Nat) (r : ObjRow) (k off : Nat) : List Byte :=
  if off = 0 then encodeVal r.ty (s.readVal w k).1 else ((s.snapOf e k).map Snapshot.bytes).getD []

/-- A READ_BLOCK that no check refuses: its segment, the snapshot left, and what it may change. -/
theorem State.doReadBlock_segment {s : State} {e w : Nat} {q : Req} {r : ObjRow} {extra : List Abort}
    (hr : objInfo q.idx q.sub = some r) (ha : firstAbort (extra ++ readAborts w q q.sub) = none)
    (hoff : field q.payload 0 4 ≠ 0 →
      ∃ x, s.snapOf e (instKey r q.idx q.sub q.tenant) = some x ∧ field q.payload 0 4 ≤ x.bytes.length) :
    let k := instKey r q.idx q.sub q.tenant
    let off := field q.payload 0 4
    let most := field q.payload 4 4
    let bytes := s.blockBytes e w r k off
    (s.doReadBlock e w q extra).1 = segAnswer q off most bytes ∧
      (s.doReadBlock e w q extra).2.snapOf e k =
        (if off + segLen off most bytes < bytes.length then some { key := k, ep := e, bytes } else none) ∧
      s.Frame (.transfers :: readParts) [] (s.doReadBlock e w q extra).2 := by
  rw [firstAbort_eq_none] at ha
  by_cases h0 : field q.payload 0 4 = 0
  · simp only [State.doReadBlock, State.blockBytes, hr, ha, h0, if_true, denyIf, firstAbort_eq_none.mpr, List.nil_append,
      bne_self_eq_false, Bool.false_and, Bool.false_eq_true, if_false]
    refine ⟨State.segment_answer _ _ _ _ _ _ _, State.segment_snapOf _ _ _ _ _ _ _, ?_⟩
    exact ((s.readTaken_frame w _).mono (by simp) (by simp)).comp
      ((State.segment_frame _ _ _ _ _ _ _).mono (by simp) (by simp))
  · obtain ⟨x, hx, hle⟩ := hoff h0
    have hx' : (s.snaps.find? fun x => x.key == instKey r q.idx q.sub q.tenant && x.ep == e) = some x := hx
    simp only [State.doReadBlock, State.blockBytes, hr, ha, h0, hx, hx', hle, denyIf, firstAbort_eq_none.mpr,
      List.nil_append, Option.map_some, Option.getD_some, decide_true, Bool.not_true, Bool.and_false, Bool.false_eq_true,
      if_false]
    exact ⟨State.segment_answer _ _ _ _ _ _ _, State.segment_snapOf _ _ _ _ _ _ _,
      (State.segment_frame _ _ _ _ _ _ _).mono (by simp) (by simp)⟩

/-- A READ_BLOCK at a nonzero offset with no snapshot held is refused (R33). -/
theorem State.doReadBlock_noSnapshot {s : State} {e w : Nat} {q : Req} {r : ObjRow} {extra : List Abort}
    (hr : objInfo q.idx q.sub = some r) (ha : firstAbort (extra ++ readAborts w q q.sub) = none)
    (hoff : field q.payload 0 4 ≠ 0) (hnone : s.snapOf e (instKey r q.idx q.sub q.tenant) = none) :
    s.doReadBlock e w q extra = (Answer.abort .outOfRange q.sub, s) := by
  have hnone' : (s.snaps.find? fun x => x.key == instKey r q.idx q.sub q.tenant && x.ep == e) = none := hnone
  rw [firstAbort_eq_none] at ha
  simp [State.doReadBlock, hr, ha, hnone', hoff, denyIf, State.refuse]

/-! ### Requests that read, over an endpoint -/

/-- A request as its endpoint posts it leaves the endpoint's snapshots. -/
@[simp] theorem State.posted_snapOf (s : State) (ep : Endpoint) (q : Req) (e k : Nat) :
    (s.posted ep q).snapOf e k = s.snapOf e k := by simp [State.snapOf]

section

/- `q` is the request `q₀` as the endpoint executes it: heard, well formed, of an object, and refused by no check of R30
that reading shares. -/
variable {s : State} {ep : Endpoint} {q₀ q : Req} {r : ObjRow} (hq : q₀.via ep = q) (hs : s.sized = true)
  (hears : s.hears ep q = true) (hb : q.bad (isNetEp ep) = false) (hr : objInfo q.idx q.sub = some r)
  (ha : firstAbort ((s.posted ep q).epAborts (epIdx ep) q ++ readAborts (s.epTenant (epIdx ep)) q q.sub) = none)

include hq hs hears hb hr ha

/-- A READ of one subindex (R22, R23, R29). -/
theorem State.request_read (hop : q₀.op = 0) (hsafe : s.on O.DEVICE_SAFE = true → safeAnswers q = true)
    (hc : q.count = 1) :
    let k := instKey r q.idx q.sub q.tenant
    (s.request ep q₀).response ep = some (q.reply (readAnswer q (s.mismatch.contains k)
        (encodeVal r.ty ((s.posted ep q).readVal (s.epTenant (epIdx ep)) k).1))) ∧
      s.Frame (answerParts ++ readParts) [] (s.request ep q₀) := by
  subst hq
  have hexec := State.executed_read (s := s) hb hop hsafe
  obtain ⟨hanswer, hframe⟩ := State.doRead_one hc hr ha
  rw [← hexec] at hanswer hframe
  obtain ⟨hresp, hwhole, -⟩ := State.request_answers_quiet hs hears (by simp [readParts]) (by simp [readParts]) hframe
  rw [hanswer, State.posted_mismatch] at hresp
  exact ⟨hresp, hwhole⟩

/-- A READ_BLOCK at offset 0, or within a snapshot held (R33). -/
theorem State.request_readBlock {p : List Byte} (hop : q₀.op = 2) (hp : q₀.payload = p)
    (hsafe : s.on O.DEVICE_SAFE = false)
    (hoff : field p 0 4 ≠ 0 →
      ∃ x, s.snapOf (epIdx ep) (instKey r q.idx q.sub q.tenant) = some x ∧ field p 0 4 ≤ x.bytes.length) :
    let k := instKey r q.idx q.sub q.tenant
    let bytes := (s.posted ep q).blockBytes (epIdx ep) (s.epTenant (epIdx ep)) r k (field p 0 4)
    (s.request ep q₀).response ep = some (q.reply (segAnswer q (field p 0 4) (field p 4 4) bytes)) ∧
      (s.request ep q₀).snapOf (epIdx ep) k =
        (if field p 0 4 + segLen (field p 0 4) (field p 4 4) bytes < bytes.length then
          some { key := k, ep := epIdx ep, bytes } else none) ∧
      s.Frame (answerParts ++ .transfers :: readParts) [] (s.request ep q₀) := by
  subst hq hp
  obtain ⟨hanswer, hsnap, hframe⟩ := State.doReadBlock_segment (s := s.posted ep _) (e := epIdx ep) hr ha
    (by simpa only [Req.via_payload, State.posted_snapOf] using hoff)
  rw [← State.executed_readBlock hb hop hsafe] at hanswer hsnap hframe
  obtain ⟨hresp, hwhole, hsnaps⟩ := State.request_answers_quiet hs hears (by simp [readParts]) (by simp [readParts]) hframe
  rw [hanswer] at hresp
  simp only [Req.via_payload] at hresp hsnap
  exact ⟨hresp, by rw [← hsnap, State.snapOf, hsnaps, State.snapOf], hwhole⟩

/-- A READ_BLOCK at a nonzero offset where the endpoint holds no snapshot of the object (R33). -/
theorem State.request_readBlock_noSnapshot (hop : q₀.op = 2) (hsafe : s.on O.DEVICE_SAFE = false)
    (hoff : field q₀.payload 0 4 ≠ 0)
    (hnone : s.snapOf (epIdx ep) (instKey r q.idx q.sub q.tenant) = none) :
    (s.request ep q₀).response ep = some (q.reply (Answer.abort .outOfRange q.sub)) ∧
      (s.request ep q₀).snaps = s.snaps ∧ s.Frame answerParts [] (s.request ep q₀) := by
  subst hq
  have hexec : s.executed ep (q₀.via ep) = (Answer.abort .outOfRange (q₀.via ep).sub, s.posted ep (q₀.via ep)) := by
    rw [State.executed_readBlock hb hop hsafe]
    exact State.doReadBlock_noSnapshot hr ha (by simpa using hoff) (by rwa [State.posted_snapOf])
  have hframe : (s.posted ep (q₀.via ep)).Frame [] [] (s.executed ep (q₀.via ep)).2 := by
    rw [hexec]; exact State.Frame.self _
  obtain ⟨hresp, hwhole, hsnaps⟩ := State.request_answers_quiet hs hears (by simp) (by simp) hframe
  rw [hexec] at hresp hsnaps
  exact ⟨hresp, by rw [hsnaps, State.posted_snaps], by simpa using hwhole⟩

end

/-! ### The rows that read -/

theorem exec_read (ep : Endpoint) (h : NypHdr) (p : List Byte) (s : State) :
    exec (.read ep h p) s = .next (s.request ep (Req.ofHdr 0 h p)) := rfl

theorem exec_readBlock (ep : Endpoint) (h : NypHdr) (p : List Byte) (s : State) :
    exec (.readBlock ep h p) s = .next (s.request ep (Req.ofHdr 2 h p)) := rfl

/-- SNAPSHOT_TIMEOUT releases the snapshots of its endpoint and no others (R33). -/
theorem exec_snapshotTimeout {s : State} (h : s.alive = true) (ep : Endpoint) :
    exec (.snapshotTimeout ep) s = .next { s with snaps := s.snaps.filter fun x => x.ep != epIdx ep } :=
  whenAlive_of h fun s => { s with snaps := s.snaps.filter fun x => x.ep != epIdx ep }

/-- Settles O21: the checks passed leave `doRead` and `doReadBlock` one branch each, and the endpoint holds its answer. -/
theorem readsReturnTheValue : Obligations.ReadsReturnTheValue := by
  unfold Obligations.ReadsReturnTheValue
  refine ⟨?read, ?segment, ?refused, ?timeout⟩
  case read =>
    intro s ep h r hs q s0 w k body hears hb hsafe hc hr ha
    exact ⟨_, exec_read ep h [] s, State.request_read rfl hs hears hb hr ha rfl hsafe hc⟩
  case segment =>
    intro s ep h p r hs hsafe q s0 w k off snap bytes n hears hb hr ha hoff
    have hanswer := State.request_readBlock rfl hs hears hb hr ha rfl rfl hsafe hoff
    simp only [State.blockBytes, State.posted_snapOf, segAnswer, segLen] at hanswer
    exact ⟨_, exec_readBlock ep h p s, hanswer⟩
  case refused =>
    intro s ep h p r hs hsafe q k hears hb hr ha hoff hnone
    exact ⟨_, exec_readBlock ep h p s, State.request_readBlock_noSnapshot rfl hs hears hb hr ha rfl hsafe hoff hnone⟩
  case timeout =>
    intro s ep halive
    exact ⟨_, exec_snapshotTimeout halive ep, by simp, rfl, s.snaps_frame _⟩

end Sys2Proof.Machine

/-!
The removal of a phase (R87-R91, R102): what it leaves in the objects of its regulator, and that neither a die held nor
the device's safe state, which may follow from it, touches those objects, Base engine memory, the cameras, the time base
or the network.
-/

namespace Sys2Proof.Machine

/-! ### What the removal of a phase leaves alone -/

/-- The objects of a regulator that tell of its phases: 2010-2012.01-08 (Table 3.8). -/
def phaseObj (k : Nat) : Prop := 0x2010 ≤ keyIdx k ∧ keyIdx k ≤ 0x2012 ∧ keySub k ≤ 8

/-- The parts of the state that nothing which follows from the removal of a phase reaches. -/
def partsApart : List Part := [.baseMem, .camera, .time, .net]

/-- The phases of every regulator and the parts apart are the same in two states. Where a job ends, the counters of its
queue change whatever their numbers, so that no list of keys, as in `State.Frame`, says this. -/
def State.KeepsPhases (s t : State) : Prop :=
  (∀ p ∈ partsApart, p.same s t) ∧ ∀ k, phaseObj k → t.val k = s.val k

theorem not_phaseObj_above {i : Nat} (h : 0x2013 ≤ i) (sub t : Nat) : ¬ phaseObj (okey i sub t) := by
  simp only [phaseObj, keyIdx, okey]; omega

theorem not_phaseObj_status {g sub : Nat} (h : 9 ≤ sub) (h' : sub < 256) : ¬ phaseObj (okey (0x2010 + g) sub 0) := by
  simp only [phaseObj, keyIdx, keySub, okey]; omega

theorem phaseObj.not_carrier {k : Nat} (h : phaseObj k) : ¬ carrier k := by
  simp only [phaseObj] at h
  exact Machine.not_carrier (by omega) (by omega)

theorem errKeys_not_phaseObj : ∀ k ∈ errKeys, ¬ phaseObj k := by
  unfold phaseObj; decide

namespace State.KeepsPhases

variable {s t u : State} {ps : List Part} {ks : List Nat}

theorem self (s : State) : State.KeepsPhases s s :=
  ⟨fun p _ => (State.Frame.self (ps := []) (ks := []) s).1 p (by simp), fun _ _ => rfl⟩

theorem comp (h : s.KeepsPhases t) (h' : t.KeepsPhases u) : s.KeepsPhases u :=
  ⟨fun p hp => State.Frame.same_trans (h.1 p hp) (h'.1 p hp), fun k hk => (h'.2 k hk).trans (h.2 k hk)⟩

theorem ite {c : Prop} [Decidable c] (h : c → s.KeepsPhases t) (h' : ¬ c → s.KeepsPhases u) :
    s.KeepsPhases (if c then t else u) := by split <;> simp_all

theorem fold {α : Type} (f : State → α → State) (h : ∀ (s : State) (x : α), s.KeepsPhases (f s x)) (xs : List α)
    (s : State) : State.KeepsPhases s (xs.foldl f s) := by
  induction xs generalizing s with
  | nil => exact self s
  | cons x xs ih => exact (h s x).comp (ih _)

/-- Whatever changes other parts and objects alone. -/
theorem ofFrame (h : s.Frame ps ks t) (hk : ∀ k ∈ ks, ¬ phaseObj k)
    (hp : ∀ p ∈ partsApart, p ∉ ps := by decide) : s.KeepsPhases t :=
  ⟨fun p hm => h.1 p (hp p hm), fun k ho => h.2 k (fun hm => hk k hm ho) fun _ => ho.not_carrier⟩

/-- Whatever changes no object. -/
theorem ofParts (h : s.Frame ps [] t) (hp : ∀ p ∈ partsApart, p ∉ ps := by decide) :
    s.KeepsPhases t := ofFrame h (by simp) hp

theorem rd (h : s.KeepsPhases t) {k : Nat} (hk : phaseObj k) : t.rd k = s.rd k := State.rd_congr (h.2 k hk)

end State.KeepsPhases

open State.KeepsPhases

section
variable (s : State) {k : Nat} (hk : ¬ phaseObj k)
include hk

theorem State.put_keepsPhases (v : Val) : s.KeepsPhases (s.put k v) := ofFrame (s.put_frame k v) (by simpa using hk)
theorem State.setEv_keepsPhases (v code unit flags : Nat) : s.KeepsPhases (s.setEv k v code unit flags) :=
  ofFrame (s.setEv_frame k v code unit flags) (by simpa using hk)
theorem State.wr_keepsPhases (v : Nat) : s.KeepsPhases (s.wr k v) := s.setEv_keepsPhases hk _ _ _ _
theorem State.addTo_keepsPhases (n : Nat) : s.KeepsPhases (s.addTo k n) := s.wr_keepsPhases hk _
theorem State.inc_keepsPhases : s.KeepsPhases (s.inc k) := s.addTo_keepsPhases hk 1

end

theorem State.err_keepsPhases (s : State) (code sev unit tenant d0 d1 : Nat) :
    s.KeepsPhases (s.err code sev unit tenant d0 d1) := ofFrame (s.err_frame _ _ _ _ _ _) errKeys_not_phaseObj

theorem State.checkPicture_keepsPhases (s : State) : s.KeepsPhases s.checkPicture :=
  ofFrame s.checkPicture_frame (by simp [O.PICTURE_STATE, O.PICTURE_DROPS, O.PICTURE_LAST_CAUSE, not_phaseObj_above])

theorem State.hold_keepsPhases (s : State) (u code : Nat) : s.KeepsPhases (s.hold u code) := by
  refine ofFrame (s.hold_frame u code) ?_
  unfold phaseObj; decide

theorem State.outputInvalid_keepsPhases (s : State) (t : Nat) : s.KeepsPhases (s.outputInvalid t) :=
  ofFrame (s.outputInvalid_frame t)
    (by simp [O.OUTPUT_INVALID, O.PICTURE_STATE, O.PICTURE_DROPS, O.PICTURE_LAST_CAUSE, not_phaseObj_above])

/-! ### Dirty lines -/

theorem State.traffic_keepsPhases (s : State) (act a n : Nat) (write : Bool) :
    s.KeepsPhases (s.traffic act a n write) := by
  unfold State.traffic
  refine .ite (fun _ => ?_) fun _ => ofParts (s.charge_frame _ _ _)
  refine comp (s.addTo_keepsPhases ?_ n) (ofParts (State.charge_frame _ _ _ _))
  split <;> exact not_phaseObj_above (by omega) _ _

theorem State.commit_keepsPhases (s : State) (r t : Nat) : s.KeepsPhases (s.commit r t) := by
  unfold State.commit
  refine comp ?_ (ofParts (State.modRink_frame _ _ _))
  refine comp ?_ (fold _ (fun s p => ofParts (s.tput_frame _ _ _)) _ _)
  exact fold _ (fun s p => s.traffic_keepsPhases _ _ _ _) _ _

theorem State.commitAll_keepsPhases (s : State) (t : Nat) : s.KeepsPhases (s.commitAll t) :=
  fold _ (fun s r => s.commit_keepsPhases r t) _ _

/-! ### Ends of jobs -/

theorem State.cqWrite_keepsPhases (s : State) (f q : Nat) (e : List Byte) : s.KeepsPhases (s.cqWrite f q e) := by
  unfold State.cqWrite
  refine .ite (fun _ => ?_) fun _ => ofParts (s.modQueue_frame _ _ _)
  exact comp (comp (ofParts (s.modQueue_frame _ _ _)) (ofParts (State.modQueue_frame _ _ _ _)))
    (ofParts (State.msix_carries _ _ _))

theorem State.complete_keepsPhases (s : State) (f q : Nat) (e : List Byte) : s.KeepsPhases (s.complete f q e) := by
  unfold State.complete
  exact .ite (fun _ => s.cqWrite_keepsPhases f q e) fun _ => ofParts (s.modQueue_frame _ _ _)

theorem State.endEntry_keepsPhases (s : State) (f q cid kind fflags cflags w0 w1 : Nat) :
    s.KeepsPhases (s.endEntry f q cid kind fflags cflags w0 w1) := by
  unfold State.endEntry
  exact ((s.complete_keepsPhases _ _ _).comp (ofParts (State.modQueue_frame _ _ _ _))).comp
    (State.inc_keepsPhases _ (not_phaseObj_above (by omega) _ _))

theorem State.takeReserved_keepsPhases (s : State) (f q n : Nat) : s.KeepsPhases (s.takeReserved f q n) := by
  induction n generalizing s with
  | zero => exact .self s
  | succ n ih =>
    unfold State.takeReserved
    refine .ite (fun _ => comp ?_ (ih _)) fun _ => .self s
    exact comp (ofParts (s.modQueue_frame _ _ _)) (State.endEntry_keepsPhases _ _ _ _ _ _ _ _ _)

theorem State.finishJob_keepsPhases (s : State) (f q kind fflags cflags w0 w1 : Nat) :
    s.KeepsPhases (s.finishJob f q kind fflags cflags w0 w1) := by
  unfold State.finishJob
  exact ((ofParts (s.modQueue_frame _ _ _)).comp (State.endEntry_keepsPhases _ _ _ _ _ _ _ _ _)).comp
    (State.takeReserved_keepsPhases _ _ _ _)

theorem State.dropSpec_keepsPhases (s : State) (a : Nat) : s.KeepsPhases (s.dropSpec a) := by
  unfold State.dropSpec
  split
  · exact .self s
  · exact comp (s.addTo_keepsPhases (not_phaseObj_above (by omega) _ _) _) (ofParts (State.setActivity_frame _ _ _))

theorem State.endRun_keepsPhases (s : State) (a kind cflags w0 w1 : Nat) :
    s.KeepsPhases (s.endRun a kind cflags w0 w1) := by
  unfold State.endRun
  split
  · exact .self s
  · refine comp ?_ (State.finishJob_keepsPhases _ _ _ _ _ _ _ _)
    have hcommitted := (s.dropSpec_keepsPhases a).comp (State.commitAll_keepsPhases _ (actTenant a))
    have hended := hcommitted.comp (ofParts (State.setActivity_frame _ a none))
    exact .ite (fun _ => hended.comp (State.wr_keepsPhases _ (not_phaseObj_above (by omega) _ _) _)) fun _ => hended

theorem State.killRun_keepsPhases (s : State) (a : Nat) (ab : Abort) : s.KeepsPhases (s.killRun a ab) := by
  unfold State.killRun
  split
  · exact s.endRun_keepsPhases _ _ _ _ _
  · exact .self s

/-! ### A die held -/

theorem State.refreshAllRinks_keepsPhases (s : State) : s.KeepsPhases s.refreshAllRinks := by
  refine fold _ (fun s t => ?_) _ _
  have htaken : s.KeepsPhases (s.wr (O.TEN_RINKS t) (s.rinkSet t)) :=
    s.wr_keepsPhases (not_phaseObj_above (by omega) _ _) _
  exact .ite (fun _ => htaken.comp (State.checkPicture_keepsPhases _)) fun _ => htaken

theorem State.dieStop_keepsPhases (s : State) (d : Nat) : s.KeepsPhases (s.dieStop d) := by
  unfold State.dieStop
  refine comp (fold _ (fun s a => ?_) _ _) (fold _ State.outputInvalid_keepsPhases _ _)
  split
  · exact .ite (fun _ => s.killRun_keepsPhases _ _) fun _ => .self s
  · exact .self s

theorem State.dieLose_keepsPhases (s : State) (d : Nat) : s.KeepsPhases (s.dieLose d) := by
  unfold State.dieLose
  refine comp (fold _ (fun s i => ?_) _ _) (fold _ (fun s i => ofParts (s.modRink_frame _ _)) _ _)
  exact comp (ofParts (s.cclear_frame _ _ _)) (ofParts (State.modCore_frame _ _ _))

theorem State.holdDie_keepsPhases (s : State) (d cause unit : Nat) : s.KeepsPhases (s.holdDie d cause unit) := by
  unfold State.holdDie
  refine .ite (fun _ => .self s) fun _ => ?_
  have hcause := (s.err_keepsPhases 0x020A 3 unit 0xFF d cause).comp
    (State.wr_keepsPhases _ (k := O.DIE_LAST_CAUSE d) (not_phaseObj_above (by omega) _ _) cause)
  have hstopped := (hcause.comp (State.dieStop_keepsPhases _ d)).comp
    (State.setEv_keepsPhases _ (k := O.DIE_STATE d) (not_phaseObj_above (by omega) _ _) 4 0x020A unit 0)
  have hlost := hstopped.comp
    (ofParts (State.modInt_frame _ fun x => { x with lost := (dieUnits d).foldl setBit x.lost }))
  have hheld := hlost.comp (fold _ (fun s u => s.hold_keepsPhases u 0x020A) (dieUnits d) _)
  exact ((hheld.comp (State.dieLose_keepsPhases _ d)).comp (State.refreshAllRinks_keepsPhases _)).comp
    (State.checkPicture_keepsPhases _)

/-! ### Limits of a die -/

theorem State.showCeiling_keepsPhases (s : State) (d : Nat) : s.KeepsPhases (s.showCeiling d) :=
  s.put_keepsPhases (not_phaseObj_status (by omega) (by omega)) _

theorem State.applyDie_keepsPhases (s : State) (d : Nat) : s.KeepsPhases (s.applyDie d) := by
  unfold State.applyDie
  extract_lets looped f
  have hloop : s.KeepsPhases looped := by
    refine fold _ (fun s r => ?_) _ _
    exact (s.put_keepsPhases (not_phaseObj_above (by omega) _ _) _).comp
      (State.setEv_keepsPhases _ (k := O.BREACH_CAUSE r) (not_phaseObj_above (by omega) _ _) _ _ _ _)
  exact .ite (fun _ => hloop) fun _ => hloop.comp (ofParts (State.modLim_frame _ _ _))

theorem State.regSafe_keepsPhases (s : State) (g : Nat) (cannot : Bool) : s.KeepsPhases (s.regSafe g cannot) := by
  unfold State.regSafe
  have hstate :=
    s.setEv_keepsPhases (k := O.REG_STATE g) (not_phaseObj_status (by omega) (by omega)) 4 0x0102 (0x30 + g) 0
  refine comp (hstate.comp (.ite (fun _ => ?_) fun _ => .self _)) (State.holdDie_keepsPhases _ _ _ _)
  exact comp (ofParts (State.modLim_frame _ _ _)) (State.showCeiling_keepsPhases _ g)

/-! ### The device safe state -/

/-- The outputs at rest, and neither an activity nor a transition of power states in progress (R489). -/
def State.atRest (s : State) : State :=
  { s with
    pins := { s.pins with wakeDriven := false, clkreqAsserted := false, tioLevel := [false, false, false, false] },
    compute := { s.compute with acts := [] },
    power := { s.power with trans := none, bringup := false, prewake := false } }

/-- What follows DEVICE_SAFE in the device's entry into its safe state (R489). -/
def State.shutDown (s : State) (cause : Nat) : State :=
  let s := s.checkPicture
  let s := if cause = 1 ∨ cause = 2 then s else s.sendHeartbeats false
  let s := (allUnits.filter (· != 0x34)).foldl (fun s u => s.hold u 0x0701) s
  ((s.put O.TRANSITION_STEP (.n 0)).put O.TRANSITION_ORIGIN (.n 0)).atRest

/-- The device shows its safe state and the cause (R488), FAULT asserted and ALIVE still. -/
def State.showSafe (s : State) (cause unit : Nat) : State :=
  ((({ s with pins := { s.pins with faultAsserted := true, alive := false } }).err 0x0701 4 unit 0xFF cause 0).wr
    O.SAFE_CAUSE cause).setEv O.DEVICE_SAFE 1 0x0701 unit 0

theorem State.safeState_of {s : State} (h : s.on O.DEVICE_SAFE = false) (cause unit : Nat) :
    s.safeState cause unit = (s.showSafe cause unit).shutDown cause := by
  simp only [State.safeState, h, Bool.false_eq_true, if_false, State.shutDown, State.showSafe, State.atRest]

theorem State.atRest_frame (s : State) : s.Frame [.pins, .compute, .power] [] s.atRest := by
  refine ⟨fun p hp => ?_, fun j _ _ => rfl⟩
  cases p <;> first | (simp at hp; done) | simp [Part.same, State.atRest]

/-- The objects that `State.shutDown` may change. -/
def shutDownKeys : List Nat :=
  [O.PICTURE_STATE, O.PICTURE_DROPS, O.PICTURE_LAST_CAUSE, O.READY, O.HELD, O.READY_CHANGED, O.TRANSITION_STEP,
    O.TRANSITION_ORIGIN] ++ (List.range 4).map O.RCC_STATE

theorem State.shutDown_frame (s : State) (cause : Nat) :
    s.Frame [.delivery, .integrity, .marks, .pins, .compute, .power] shutDownKeys (s.shutDown cause) := by
  have hpicture : s.Frame [.delivery, .integrity, .marks, .pins, .compute, .power] shutDownKeys s.checkPicture :=
    s.checkPicture_frame.mono (by simp) (by simp [shutDownKeys])
  have hbeats := hpicture.comp (State.Frame.ite (c := cause = 1 ∨ cause = 2) (fun _ => State.Frame.self _) fun _ =>
    State.Frame.event (State.sendHeartbeats_carries s.checkPicture false) (by simp))
  have hkeys : [O.READY, O.HELD, O.READY_CHANGED] ++ (List.range 4).map O.RCC_STATE ⊆ shutDownKeys := by decide
  have hheld := hbeats.comp (State.Frame.fold (fun s u => s.hold u 0x0701) (allUnits.filter (· != 0x34)) _
    fun s u _ => (s.hold_frame u _).mono (by simp) hkeys)
  have hidle := (hheld.comp ((State.put_frame _ O.TRANSITION_STEP (.n 0)).mono (by simp) (by simp [shutDownKeys]))).comp
    ((State.put_frame _ O.TRANSITION_ORIGIN (.n 0)).mono (by simp) (by simp [shutDownKeys]))
  exact hidle.comp ((State.atRest_frame _).mono (by simp) (by simp))

/-- Setting an object leaves the others, but for the carriers. -/
theorem State.rd_setEv_ne (s : State) {j k : Nat} (h : j ≠ k) (hc : ¬ carrier j) (v code unit flags : Nat) :
    (s.setEv k v code unit flags).rd j = s.rd j := (s.setEv_frame k v code unit flags).rd (by simpa using h) hc

theorem keyTy_DEVICE_SAFE : keyTy O.DEVICE_SAFE = .bool := by decide +kernel
theorem keyTy_SAFE_CAUSE : keyTy O.SAFE_CAUSE = .u8 := by decide +kernel
theorem keyTy_REG_PHASE_MAP (g : Fin 3) : keyTy (O.REG_PHASE_MAP g) = .u16 := by revert g; decide +kernel

/-- DEVICE_SAFE and its cause once the device has entered its safe state (R488). -/
theorem State.safeState_shows {s : State} (h : s.on O.DEVICE_SAFE = false) {cause : Nat} (hcause : cause < 256)
    (unit : Nat) :
    (s.safeState cause unit).rd O.DEVICE_SAFE = 1 ∧ (s.safeState cause unit).rd O.SAFE_CAUSE = cause := by
  have hsafe : ¬ carrier O.DEVICE_SAFE := not_carrier (by decide) (by decide)
  have hwhy : ¬ carrier O.SAFE_CAUSE := not_carrier (by decide) (by decide)
  have hdown := (s.showSafe cause unit).shutDown_frame cause
  rw [State.safeState_of h, hdown.rd (by decide) hsafe, hdown.rd (by decide) hwhy]
  constructor
  · simp [State.showSafe, State.rd_setEv _ hsafe, keyTy_DEVICE_SAFE, keyBits, Ty.width]
  · rw [State.showSafe, State.rd_setEv_ne _ (by decide) hwhy, State.rd_wr _ hwhy]
    simpa [keyTy_SAFE_CAUSE, keyBits, Ty.width] using hcause

theorem State.safeState_keepsPhases (s : State) (cause unit : Nat) : s.KeepsPhases (s.safeState cause unit) := by
  by_cases h : s.on O.DEVICE_SAFE = true
  · simpa [State.safeState, h] using State.KeepsPhases.self s
  · rw [State.safeState_of (by simpa using h)]
    have hpins : s.KeepsPhases { s with pins := { s.pins with faultAsserted := true, alive := false } } :=
      ⟨by simp [partsApart, Part.same], fun _ _ => rfl⟩
    have hcause := (hpins.comp (State.err_keepsPhases _ 0x0701 4 unit 0xFF cause 0)).comp
      (State.wr_keepsPhases _ (k := O.SAFE_CAUSE) (not_phaseObj_above (by omega) _ _) cause)
    have hshown := hcause.comp
      (State.setEv_keepsPhases _ (k := O.DEVICE_SAFE) (not_phaseObj_above (by omega) _ _) 1 0x0701 unit 0)
    refine hshown.comp (ofFrame (State.shutDown_frame _ cause) ?_)
    unfold phaseObj; decide

/-! ### The removal of a phase -/

/-- The phases left in rotation without phase `p`. -/
def State.phasesLeft (s : State) (g p : Nat) : Nat := popCount 8 (clrBit (s.rd (O.REG_PHASE_MAP g)) p)

/-- The current limit of `left` phases (R88). -/
def phaseLimit (g left : Nat) : Nat := min (railRating g) (left * phaseMa g)

/-- The phases that a regulator needs (R91). -/
def phasesNeeded (g : Nat) : Nat := if g = 2 then 3 else 6

/-- The objects of a regulator as a phase leaves its rotation (R87, R88), before anything follows from it. -/
def State.rotateOut (s : State) (g p cause : Nat) (load : RailLoad) : State :=
  let u := (s.put (O.REG_PHASES_ACTIVE g) (.n (s.phasesLeft g p))).put (O.REG_IOUT_MA g) (.n (load.totalMa % 2 ^ 32))
  let u := u.put (O.REG_PHASE_CAUSE g) (.n (u.rd (O.REG_PHASE_CAUSE g) + cause * 4 ^ p))
  let u := u.put (O.REG_ILIMIT_MA g) (.n (phaseLimit g (s.phasesLeft g p)))
  u.setEv (O.REG_PHASE_MAP g) (clrBit (s.rd (O.REG_PHASE_MAP g)) p) 0x0102 (0x30 + g) 0

/-- The record of a removed phase (R90). -/
def State.recordPhase (s : State) (g p cause left sev : Nat) : State :=
  s.err 0x0102 sev (0x30 + g) 0xFF p (left + cause * 256)

/-- The objects that `State.rotateOut` writes. -/
def phaseKeys (g : Nat) : List Nat :=
  [O.REG_PHASE_MAP g, O.REG_PHASES_ACTIVE g, O.REG_IOUT_MA g, O.REG_PHASE_CAUSE g, O.REG_ILIMIT_MA g]

theorem State.rotateOut_frame (s : State) (g p cause : Nat) (load : RailLoad) :
    s.Frame [.delivery] (phaseKeys g) (s.rotateOut g p cause load) := by
  refine State.Frame.comp ?_ ((State.setEv_frame _ (O.REG_PHASE_MAP g) _ _ _ _).mono (by simp) (by simp [phaseKeys]))
  refine State.Frame.comp ?_ ((State.put_frame _ (O.REG_ILIMIT_MA g) _).mono (by simp) (by simp [phaseKeys]))
  refine State.Frame.comp ?_ ((State.put_frame _ (O.REG_PHASE_CAUSE g) _).mono (by simp) (by simp [phaseKeys]))
  refine State.Frame.comp ?_ ((State.put_frame _ (O.REG_IOUT_MA g) _).mono (by simp) (by simp [phaseKeys]))
  exact (s.put_frame (O.REG_PHASES_ACTIVE g) _).mono (by simp) (by simp [phaseKeys])

theorem State.recordPhase_frame (s : State) (g p cause left sev : Nat) (load : RailLoad) :
    s.Frame [.delivery, .marks] (phaseKeys g ++ errKeys)
      ((s.rotateOut g p cause load).recordPhase g p cause left sev) :=
  ((s.rotateOut_frame g p cause load).andThen (State.err_frame _ _ _ _ _ _ _)).mono (by simp) fun _ hk => hk

theorem DEVICE_SAFE_notMem_phaseKeys (g : Fin 3) : O.DEVICE_SAFE ∉ phaseKeys g ++ errKeys := by
  revert g; decide

theorem okey_eq_iff_sub (i a b : Nat) : okey i a 0 = okey i b 0 ↔ a = b := by
  simp only [okey]; omega

theorem phaseObj_of_sub (g : Fin 3) {sub : Nat} (h : sub ≤ 8) : phaseObj (okey (0x2010 + g) sub 0) := by
  simp only [phaseObj, keyIdx, keySub, okey]; omega

/-- What the regulator shows as a phase leaves its rotation (R87, R88). -/
theorem State.rotateOut_shows (s : State) (g : Fin 3) (p cause : Nat) (load : RailLoad) :
    let u := s.rotateOut g p cause load
    u.rd (O.REG_PHASE_MAP g) = clrBit (s.rd (O.REG_PHASE_MAP g)) p % 65536 ∧
      u.rd (O.REG_PHASES_ACTIVE g) = s.phasesLeft g p ∧
      u.rd (O.REG_ILIMIT_MA g) = phaseLimit g (s.phasesLeft g p) ∧
      u.rd (O.REG_PHASE_CAUSE g) = s.rd (O.REG_PHASE_CAUSE g) + cause * 4 ^ p := by
  have hcarrier : ∀ {sub : Nat}, sub ≤ 8 → ¬ carrier (okey (0x2010 + g) sub 0) := fun h =>
    (phaseObj_of_sub g h).not_carrier
  refine ⟨?map, ?active, ?limit, ?cause⟩
  case map =>
    rw [State.rotateOut, State.rd_setEv _ (k := O.REG_PHASE_MAP g) (hcarrier (by omega)), keyTy_REG_PHASE_MAP, keyBits,
      keyTy_REG_PHASE_MAP]
    rfl
  all_goals
    simp [State.rotateOut, O.REG_PHASES_ACTIVE, O.REG_IOUT_MA, O.REG_PHASE_CAUSE, O.REG_ILIMIT_MA, O.REG_PHASE_MAP,
      State.rd_setEv_ne, State.rd_put_ne, okey_eq_iff_sub, hcarrier]

/-- The limits of a die whose regulator can carry its load only below a frequency `f` (R89). -/
def State.derate (s : State) (g f : Nat) : State :=
  let s := (s.modLim g fun x => { x with regCeiling := min x.regCeiling f }).showCeiling g
  let s := s.inc (O.REG_DERATE_COUNT g)
  let s := if s.rd (O.REG_STATE g) = 3 then s else s.setEv (O.REG_STATE g) 2 0 (0x30 + g) 0
  s.applyDie g

theorem State.derate_keepsPhases (s : State) (g f : Nat) : s.KeepsPhases (s.derate g f) := by
  have hlim : s.KeepsPhases (s.modLim g fun x => { x with regCeiling := min x.regCeiling f }) :=
    ofParts (s.modLim_frame g _)
  have hcounted := (hlim.comp (State.showCeiling_keepsPhases _ g)).comp
    (State.inc_keepsPhases _ (k := O.REG_DERATE_COUNT g) (not_phaseObj_status (by omega) (by omega)))
  refine comp (.ite (fun _ => hcounted) fun _ => hcounted.comp ?_) (State.applyDie_keepsPhases _ g)
  exact State.setEv_keepsPhases _ (not_phaseObj_status (by omega) (by omega)) _ _ _ _

/-- What follows once the record of a removed phase stands: the safe state of the device where the I/O regulator has too
few phases (R91), what keeps the phases' objects else, and nothing where phases enough are left for the load. -/
theorem State.removePhase_cases {s : State} {g p : Nat} (hp : (s.rd (O.REG_PHASE_MAP g)).testBit p = true) (cause : Nat)
    (load : RailLoad) :
    ∃ sev, let u := (s.rotateOut g p cause load).recordPhase g p cause (s.phasesLeft g p) sev
      u.KeepsPhases (s.removePhase g p cause load) ∧
      (g = 2 → s.phasesLeft g p < 3 → s.removePhase g p cause load = u.safeState 2 0x32) ∧
      (phasesNeeded g ≤ s.phasesLeft g p → load.totalMa ≤ phaseLimit g (s.phasesLeft g p) →
        s.removePhase g p cause load = u) := by
  generalize ht : s.removePhase g p cause load = t
  rw [State.removePhase, if_neg (by simp [hp])] at ht
  extract_lets map left limit _ _ _ u d1 _ f cannot _ _ _ _ at ht
  by_cases hg : g = 2
  · subst hg
    rw [if_pos rfl] at ht
    by_cases hfew : left < 3
    · rw [if_pos hfew] at ht
      subst ht
      exact ⟨4, State.safeState_keepsPhases _ _ _, fun _ _ => rfl, fun hleft => absurd hfew (Nat.not_lt.mpr hleft)⟩
    · rw [if_neg hfew] at ht
      subst ht
      exact ⟨2, .self _, fun _ h => absurd h hfew, fun _ _ => rfl⟩
  · rw [if_neg hg] at ht
    by_cases hsafe : (decide (left < 6) || cannot) = true
    · rw [if_pos hsafe] at ht
      subst ht
      refine ⟨3, State.regSafe_keepsPhases _ _ _, fun h => absurd h hg, fun hleft hload => ?_⟩
      rw [phasesNeeded, if_neg hg] at hleft
      have hneed : ¬ left < 6 := Nat.not_lt.mpr hleft
      have hmeets : ¬ limit < load.totalMa := Nat.not_lt.mpr hload
      simp [cannot, hmeets, hneed] at hsafe
    · rw [if_neg hsafe] at ht
      by_cases hload : load.totalMa ≤ limit
      · rw [if_pos hload] at ht
        subst ht
        exact ⟨2, .self _, fun h => absurd h hg, fun _ _ => rfl⟩
      · rw [if_neg hload] at ht
        subst ht
        exact ⟨2, State.derate_keepsPhases _ g f, fun h => absurd h hg, fun _ h => absurd h hload⟩

/-- The removal of a phase: what it leaves in the objects of its regulator and of the device (R87, R88, R91). -/
theorem State.removePhase_phaseRemoved {s : State} (hs : s.alive = true) {g : Fin 3} {p : Nat}
    (hp : (s.rd (O.REG_PHASE_MAP g)).testBit p = true) (cause : Nat) (load : RailLoad) :
    s.phaseRemoved (s.removePhase g p cause load) g p cause load.totalMa := by
  obtain ⟨sev, hkeeps, hsafe, henough⟩ := State.removePhase_cases hp cause load
  obtain ⟨hmap, hactive, hlimit, hcause⟩ := s.rotateOut_shows g p cause load
  generalize s.removePhase g p cause load = t at hkeeps hsafe henough ⊢
  have hframe := s.recordPhase_frame g p cause (s.phasesLeft g p) sev load
  have hrd : ∀ {sub : Nat}, sub ≤ 8 →
      t.rd (okey (0x2010 + g) sub 0) = (s.rotateOut g p cause load).rd (okey (0x2010 + g) sub 0) := fun h =>
    (State.KeepsPhases.comp (State.err_keepsPhases _ _ _ _ _ _ _) hkeeps).rd (phaseObj_of_sub g h)
  have hpart : ∀ q ∈ partsApart, q.same s t := fun q hq =>
    State.Frame.same_trans (hframe.1 q (by revert q; decide)) (hkeeps.1 q hq)
  have hlimit' : t.rd (O.REG_ILIMIT_MA g) = phaseLimit g (s.phasesLeft g p) := (hrd (by omega)).trans hlimit
  refine ⟨(hrd (by omega)).trans hmap, (hrd (by omega)).trans hactive, hlimit', (hrd (by omega)).trans hcause, ?safe,
    hpart .baseMem (by decide), hpart .camera (by decide), hpart .time (by decide), hpart .net (by decide), ?rest⟩
  case safe =>
    intro hg hfew
    rw [hsafe (by omega) hfew]
    refine State.safeState_shows ?_ (by omega) _
    have hsame := hframe.rd (DEVICE_SAFE_notMem_phaseKeys g) (not_carrier (by decide) (by decide))
    simpa [State.on, hsame, State.alive] using (Bool.and_eq_true_iff.mp hs).2
  case rest =>
    intro hneed hload
    rw [hlimit'] at hload
    rw [henough hneed hload]
    exact hframe

/-! ### The commands that remove a phase -/

section

variable {s : State} (hs : s.alive = true)
include hs

theorem exec_phaseFailOpen {g : Fin 3} (hg : s.regRuns g = true) (p : Fin 8) (l : RailLoad) :
    exec (.phaseFailOpen g p l) s = .next (s.removePhase g p 1 l) :=
  whenOk_of hs hg fun s => s.removePhase g p 1 l

theorem exec_phaseSenseDisagreement {g : Fin 3} (hg : s.regRuns g = true) (p : Fin 8) (l : RailLoad) :
    exec (.phaseSenseDisagreement g p l) s = .next (s.removePhase g p 2 l) :=
  whenOk_of hs hg fun s => s.removePhase g p 2 l

theorem exec_phaseOvercurrent {g : Fin 3} (hg : s.regRuns g = true) (p : Fin 8) (l : RailLoad) :
    exec (.phaseOvercurrent g p l) s = .next (s.removePhase g p 3 l) :=
  whenOk_of hs (c := s.regRuns g || (s.regBursts g && s.burstPhase g == p)) (by simp [hg]) fun s =>
    s.removePhase g p 3 l

/-- A burst judges the one phase that switches (R102). -/
theorem exec_burstEnd {g : Fin 3} (hg : s.regBursts g = true) (failOpen disagreement : Bool) (us : Nat) (l : RailLoad) :
    exec (.burstEnd g failOpen disagreement us l) s = .next
      (if failOpen then s.removePhase g (s.burstPhase g) 1 l
      else if disagreement && decide (50 ≤ us) then s.removePhase g (s.burstPhase g) 2 l else s) :=
  whenOk_of hs hg fun s =>
    if failOpen then s.removePhase g (s.burstPhase g) 1 l
    else if disagreement && decide (50 ≤ us) then s.removePhase g (s.burstPhase g) 2 l else s

/-- A tick that finds one regulator's bursts in disagreement judges that regulator's phase (R102). -/
theorem exec_housekeepingTick_one (hpower : s.rd O.POWER_STATE ≤ 2) {g : Fin 3} (hg : s.regBursts g = true)
    (l : RailLoad) :
    exec (.housekeepingTick (g == 0) (g == 1) (g == 2) l) s = .next (s.removePhase g (s.burstPhase g) 2 l) := by
  show execHousekeepingTick (g == 0) (g == 1) (g == 2) l s = _
  rw [execHousekeepingTick, whenOk_of hs (by simpa using hpower)]
  obtain rfl | rfl | rfl : g = 0 ∨ g = 1 ∨ g = 2 := by omega
  · simp [show s.regBursts 0 = true from hg]
  · simp [show s.regBursts 1 = true from hg]
  · simp [show s.regBursts 2 = true from hg]

end

/-- Settles O9: each command is the removal of one phase, and a removal keeps what it has shown of the phases through
whatever follows from it. -/
theorem failedPhasesLeaveTheRotation : Obligations.FailedPhasesLeaveTheRotation := by
  unfold Obligations.FailedPhasesLeaveTheRotation
  refine ⟨?rotation, ?burst, ?tick⟩
  case rotation =>
    intro s g p l hs hruns hp
    exact ⟨⟨_, exec_phaseFailOpen hs hruns p l, State.removePhase_phaseRemoved hs hp 1 l⟩,
      ⟨_, exec_phaseSenseDisagreement hs hruns p l, State.removePhase_phaseRemoved hs hp 2 l⟩,
      ⟨_, exec_phaseOvercurrent hs hruns p l, State.removePhase_phaseRemoved hs hp 3 l⟩⟩
  case burst =>
    intro s g l us hs hbursts hp
    refine ⟨fun d => ⟨_, exec_burstEnd hs hbursts true d us l, State.removePhase_phaseRemoved hs hp 1 l⟩,
      fun hlong => ⟨_, ?_, State.removePhase_phaseRemoved hs hp 2 l⟩, fun hshort => ?_,
      exec_burstEnd hs hbursts _ _ us l⟩
    · simp [exec_burstEnd hs hbursts, hlong]
    · simp [exec_burstEnd hs hbursts, Nat.not_le.mpr hshort]
  case tick =>
    intro s g l hs hpower hbursts hp
    exact ⟨_, exec_housekeepingTick_one hs hpower hbursts l, State.removePhase_phaseRemoved hs hp 2 l⟩

end Sys2Proof.Machine

/-!
Requests that write one object (R17-R20, R24, R28-R30): the message of an access row, what the endpoint answers to one
that the checks of R30 pass and to one that they refuse, and what either leaves.
-/

namespace Sys2Proof.Machine

/-! ### The message of an access row -/

/-- An access row's message names the slot of the session that it comes over. -/
theorem State.rowReq_via (s : State) (ep : Endpoint) (op flags idx sub ten : Nat) (p : List Byte) :
    (s.rowReq ep op flags idx sub ten p).via ep = s.rowReq ep op flags idx sub ten p := by
  cases ep with
  | mailbox f => rfl
  | session n =>
    have hnet : 32 ≤ 32 + n.val ∧ 32 + n.val < 48 := by omega
    have hslot : n.val + 1 = 32 + n.val - 31 := by omega
    simp [State.rowReq, Req.via, epIdx, hnet, hslot]
  | spi => rfl

/-- A short value is written by one WRITE. -/
theorem State.rowWrite_short {bs : List Byte} (hlen : bs.length ≤ 1024) (s : State) (ep : Endpoint) (idx sub ten : Nat) :
    s.rowWrite ep idx sub ten bs = s.rowReq ep 1 0 idx sub ten bs := if_pos hlen

theorem State.rowWrite_via {bs : List Byte} (hlen : bs.length ≤ 1024) (s : State) (ep : Endpoint) (idx sub ten : Nat) :
    (s.rowWrite ep idx sub ten bs).via ep = s.rowWrite ep idx sub ten bs := by
  rw [State.rowWrite_short hlen, State.rowReq_via]

theorem State.writeRow_short {bs : List Byte} (hlen : bs.length ≤ 1024) (s : State) (ep : Endpoint) (idx sub ten : Nat) :
    s.writeRow ep idx sub ten bs = s.request ep (s.rowWrite ep idx sub ten bs) := by
  rw [State.rowWrite_short hlen]
  exact if_pos hlen

/-- A WRITE of one subindex is well formed (R28) by its header alone. -/
theorem Req.write_not_bad {q : Req} {net : Bool} (hversion : q.version = 1) (hop : q.op = 1) (hflags : q.flags = 0)
    (hcount : q.count = 1) (hpayload : q.len = q.payload.length) (hmost : q.len ≤ 1024) (hstatus : q.status = 0)
    (htb : q.tb < 32) (hsession : (!net && q.session != 0) = false) : q.bad net = false := by
  have hmost' : q.payload.length ≤ 1024 := hpayload ▸ hmost
  simp_all [Req.bad, Req.payloadOk, flagsBad]

section

variable {s : State} {ep : Endpoint} {idx sub ten : Nat} {bs : List Byte} {r : ObjRow} (hten : ten < 32)
include hten

/-- The message of a short write is well formed (R28): TENANT names the tenant addressed or the requester. -/
theorem State.rowReq_write_not_bad (hr : objInfo idx sub = some r) (hw : s.epTenant (epIdx ep) < 32)
    (hlen : bs.length ≤ 1024) :
    (s.rowReq ep 1 0 idx sub ten bs).bad (isNetEp ep) = false := by
  have htb : (s.rowReq ep 1 0 idx sub ten bs).tb < 32 := by
    by_cases hscope : r.scope = .ten <;> simp [State.rowReq, hr, hscope, hten, hw]
  have hsession : (!isNetEp ep && (s.rowReq ep 1 0 idx sub ten bs).session != 0) = false := by
    by_cases hnet : 32 ≤ epIdx ep ∧ epIdx ep < 48 <;> simp [isNetEp, State.rowReq, hnet]
  exact Req.write_not_bad rfl rfl rfl rfl rfl hlen rfl htb hsession

/-- The message names the object whose key the row means. -/
theorem State.instKey_rowReq (hr : objInfo idx sub = some r) (op flags : Nat) (p : List Byte) :
    instKey r idx sub (s.rowReq ep op flags idx sub ten p).tenant = instKey r idx sub ten := by
  by_cases hscope : r.scope = .ten
  · simp [instKey, Req.tenant, State.rowReq, hr, hscope, Nat.mod_eq_of_lt hten]
  · simp [instKey, hscope]

end

/-! ### A mailbox's message leaves what the checks read -/

@[simp] theorem State.posted_rd (s : State) (ep : Endpoint) (q : Req) : (s.posted ep q).rd = s.rd := by
  cases ep <;> rfl

@[simp] theorem State.posted_audio (s : State) (ep : Endpoint) (q : Req) : (s.posted ep q).audio = s.audio := by
  cases ep <;> rfl

@[simp] theorem State.posted_stream (s : State) (ep : Endpoint) (q : Req) : (s.posted ep q).stream = s.stream := by
  cases ep <;> rfl

@[simp] theorem State.posted_streams (s : State) (ep : Endpoint) (q : Req) :
    (s.posted ep q).host.streams = s.host.streams := by
  cases ep <;> rfl

@[simp] theorem State.posted_streamOwner (s : State) (ep : Endpoint) (q : Req) :
    (s.posted ep q).streamOwner = s.streamOwner := by
  cases ep <;> rfl

@[simp] theorem State.posted_epAborts (s : State) (ep : Endpoint) (q : Req) :
    (s.posted ep q).epAborts = s.epAborts := by
  cases ep <;> rfl

@[simp] theorem State.posted_formAborts (s : State) (ep : Endpoint) (q : Req) :
    (s.posted ep q).formAborts = s.formAborts := by
  cases ep <;> rfl

/-! ### The checks of R30 -/

/-- The endpoint executes a write of the object with key `k`, and no check refuses it whatever its value. -/
structure State.Admits (s : State) (ep : Endpoint) (q : Req) (r : ObjRow) (k : Nat) : Prop where
  hears : s.hears ep q = true
  notSafe : s.on O.DEVICE_SAFE = false
  tenant : s.epTenant (epIdx ep) < 32
  endpoint : s.epAborts (epIdx ep) q = []
  form : s.formAborts (epIdx ep) (s.epTenant (epIdx ep)) r k q.tenant = []

/-- A write is accepted where no check refuses it for its form and none for its value. -/
theorem State.accepts_iff {s : State} {ep : Endpoint} {idx sub ten : Nat} {bs : List Byte} {r : ObjRow}
    (hr : objInfo idx sub = some r) :
    s.accepts ep idx sub ten bs = true ↔
      s.Admits ep (s.rowWrite ep idx sub ten bs) r (instKey r idx sub ten) ∧
        (s.posted ep (s.rowWrite ep idx sub ten bs)).valueAborts (epIdx ep) (s.epTenant (epIdx ep)) r
          (instKey r idx sub ten) bs = [] := by
  simp only [State.accepts, hr, Bool.and_eq_true, Bool.not_eq_true', decide_eq_true_eq, Option.isNone_iff_eq_none,
    firstAbort_eq_none, List.append_eq_nil_iff, State.posted_epAborts, State.posted_formAborts]
  constructor
  · rintro ⟨⟨⟨hears, notSafe⟩, tenant⟩, ⟨endpoint, form⟩, hvalue⟩
    exact ⟨⟨hears, notSafe, tenant, endpoint, form⟩, hvalue⟩
  · rintro ⟨⟨hears, notSafe, tenant, endpoint, form⟩, hvalue⟩
    exact ⟨⟨⟨hears, notSafe⟩, tenant⟩, ⟨endpoint, form⟩, hvalue⟩

/-- A value passes where it has the length and the range of its object's type, and the object's chapter takes it. -/
theorem State.valueAborts_eq_nil_iff {s : State} {e w : Nat} {r : ObjRow} {k : Nat} {bs : List Byte} :
    s.valueAborts e w r k bs = [] ↔
      r.ty.lenOk bs.length = true ∧ r.rangeOk bs = true ∧ s.objAborts { ep := e, w, k, v := r.valOf bs } = [] := by
  cases hlen : r.ty.lenOk bs.length <;> cases hrange : r.rangeOk bs <;>
    simp [State.valueAborts, hlen, hrange, denyIf]

/-- A value whose bytes are of its type and range is refused by its object's chapter alone. -/
theorem State.valueAborts_of_typed {s : State} {e w : Nat} {r : ObjRow} {k : Nat} {bs : List Byte}
    (hlen : r.ty.lenOk bs.length = true) (hrange : r.rangeOk bs = true) :
    s.valueAborts e w r k bs = s.objAborts { ep := e, w, k, v := r.valOf bs } := by
  simp [State.valueAborts, hlen, hrange, denyIf]

/-! ### The write executed -/

/-- Past the form of the message and the safe state, a WRITE is `doWrite`. -/
theorem State.execReq_write {s : State} {e : Nat} {q : Req} (hop : q.op = 1)
    (hb : q.bad (decide (32 ≤ e ∧ e < 48)) = false) (hsafe : s.on O.DEVICE_SAFE = false) :
    s.execReq e q = s.doWrite e (s.epTenant e) q (s.epAborts e q) := by
  simp only [State.execReq, hb, hsafe, hop, Bool.false_and, Bool.false_eq_true, if_false]

section

/- A WRITE of one subindex, of the object with row `r` and key `k`. -/
variable {s : State} {e w k : Nat} {q : Req} {r : ObjRow} {bs : List Byte} {extra : List Abort} (hc : q.count = 1)
  (hr : objInfo q.idx q.sub = some r) (hk : instKey r q.idx q.sub q.tenant = k) (hp : q.payload = bs)
include hc hr hk hp

/-- No check refuses it. -/
theorem State.doWrite_one_accepted
    (ha : firstAbort (extra ++ s.formAborts e w r k q.tenant ++ s.valueAborts e w r k bs) = none) :
    s.doWrite e w q extra = (Answer.ok q [], s.accept e w r k bs) := by
  subst hk hp
  rw [List.append_assoc] at ha
  simp [State.doWrite, Req.manyBlobs_of_count_one hc, hc, State.writeSubs, hr, State.writeOne, ha]

/-- A check refuses it. Only OUT_OF_RANGE may leave a record (R133). -/
theorem State.doWrite_one_refused {a : Abort} (hne : a ≠ .outOfRange)
    (ha : firstAbort (extra ++ s.formAborts e w r k q.tenant ++ s.valueAborts e w r k bs) = some a) :
    s.doWrite e w q extra = (Answer.abort a q.sub, s) := by
  subst hk hp
  rw [List.append_assoc] at ha
  simp [State.doWrite, Req.manyBlobs_of_count_one hc, hc, State.writeSubs, hr, State.writeOne, ha, State.noteRefusal,
    hne]

end

/-- An execution that keeps the lists of functions and of sessions leaves endpoints that can hold their responses. -/
theorem State.Frame.holdsResponses_of_jobs {s t : State} {ps : List Part} {ks : List Nat} (h : s.Frame ps ks t)
    (hj : Part.jobs ∉ ps) (hn : Part.sessions ∉ ps) (hs : s.holdsResponses) : t.holdsResponses := by
  have hqueues : t.host.funcs.map Func.queues = s.host.funcs.map Func.queues := h.1 .jobs hj
  have hsess : t.sessions = s.sessions := h.1 .sessions hn
  have hlen := congrArg List.length hqueues
  simp only [List.length_map] at hlen
  exact ⟨hlen.trans hs.1, by rw [hsess]; exact hs.2⟩

/-- The state on which an endpoint executes an access row's write. -/
abbrev State.rowPosted (s : State) (ep : Endpoint) (idx sub ten : Nat) (bs : List Byte) : State :=
  s.posted ep (s.rowWrite ep idx sub ten bs)

/-- The state that the effect of an access row's write leaves, before the write is counted and answered. -/
def State.rowApplied (s : State) (ep : Endpoint) (idx sub ten : Nat) (bs : List Byte) (r : ObjRow) : State :=
  (s.rowPosted ep idx sub ten bs).objApply
    { ep := epIdx ep, w := s.epTenant (epIdx ep), k := instKey r idx sub ten, v := r.valOf bs }

section

/- A short write of an object, admitted by its endpoint and refused by no check of its form. -/
variable {s : State} {ep : Endpoint} {idx sub ten : Nat} {bs : List Byte} {r : ObjRow} (hlen : bs.length ≤ 1024)
  (hten : ten < 32) (hr : objInfo idx sub = some r)
  (hadm : s.Admits ep (s.rowWrite ep idx sub ten bs) r (instKey r idx sub ten))
include hlen hten hr hadm

theorem State.executed_rowWrite :
    s.executed ep (s.rowWrite ep idx sub ten bs) =
      (s.rowPosted ep idx sub ten bs).doWrite (epIdx ep) (s.epTenant (epIdx ep)) (s.rowWrite ep idx sub ten bs) [] := by
  have hendpoint := hadm.endpoint
  rw [State.rowWrite_short hlen] at hendpoint
  rw [State.rowPosted, State.rowWrite_short hlen]
  rw [State.executed, State.execReq_write rfl (State.rowReq_write_not_bad hten hr hadm.tenant hlen)
    (by rw [State.posted_on]; exact hadm.notSafe), State.posted_epAborts, State.posted_epTenant, hendpoint]

/-- A value that its object takes: the write has its effect, and is counted. -/
theorem State.executed_rowWrite_accepted
    (hvalue : (s.rowPosted ep idx sub ten bs).valueAborts (epIdx ep) (s.epTenant (epIdx ep)) r (instKey r idx sub ten)
      bs = []) :
    s.executed ep (s.rowWrite ep idx sub ten bs) = (Answer.ok (s.rowWrite ep idx sub ten bs) [],
      (s.rowPosted ep idx sub ten bs).accept (epIdx ep) (s.epTenant (epIdx ep)) r (instKey r idx sub ten) bs) := by
  have hform := hadm.form
  rw [State.executed_rowWrite hlen hten hr hadm]
  rw [State.rowPosted, State.rowWrite_short hlen] at hvalue ⊢
  rw [State.rowWrite_short hlen] at hform
  exact State.doWrite_one_accepted rfl hr (State.instKey_rowReq hten hr 1 0 bs) rfl (by simp [hform, hvalue, firstAbort])

/-- A value that its object refuses: nothing is executed. -/
theorem State.executed_rowWrite_refused {a : Abort} (hne : a ≠ .outOfRange)
    (hvalue : (s.rowPosted ep idx sub ten bs).valueAborts (epIdx ep) (s.epTenant (epIdx ep)) r (instKey r idx sub ten)
      bs = [a]) :
    s.executed ep (s.rowWrite ep idx sub ten bs) = (Answer.abort a sub, s.rowPosted ep idx sub ten bs) := by
  have hform := hadm.form
  rw [State.executed_rowWrite hlen hten hr hadm]
  rw [State.rowPosted, State.rowWrite_short hlen] at hvalue ⊢
  rw [State.rowWrite_short hlen] at hform
  exact State.doWrite_one_refused (q := s.rowReq ep 1 0 idx sub ten bs) (bs := bs) rfl hr
    (State.instKey_rowReq hten hr 1 0 bs) rfl hne (by simp [hform, hvalue])

/-- A row whose value is refused, for another reason than its range: the abort answers, and nothing changes (R30). -/
theorem State.writeRow_refused (hs : s.sized = true) {a : Abort} (hne : a ≠ .outOfRange)
    (hvalue : (s.rowPosted ep idx sub ten bs).valueAborts (epIdx ep) (s.epTenant (epIdx ep)) r (instKey r idx sub ten)
      bs = [a]) :
    (s.writeRow ep idx sub ten bs).response ep = some ((s.rowWrite ep idx sub ten bs).reply (Answer.abort a sub)) ∧
      s.Frame answerParts [] (s.writeRow ep idx sub ten bs) := by
  have hexec := State.executed_rowWrite_refused hlen hten hr hadm hne hvalue
  have hvia := s.rowWrite_via hlen ep idx sub ten
  have hquiet : (s.posted ep ((s.rowWrite ep idx sub ten bs).via ep)).Frame [] []
      (s.executed ep ((s.rowWrite ep idx sub ten bs).via ep)).2 := by
    rw [hvia, hexec]; exact .self _
  obtain ⟨hresp, hframe, -⟩ := State.request_answers_quiet hs (by rw [hvia]; exact hadm.hears) (by simp) (by simp) hquiet
  rw [hvia, hexec] at hresp
  rw [State.writeRow_short hlen]
  exact ⟨hresp, by simpa using hframe⟩

end

/-! ### What an accepted write changes -/

/-- An object takes its value, and its mark of MISMATCH goes (R23). -/
theorem State.store_frame (s : State) (r : WReq) : s.Frame [.mismatch] [r.k] (s.store r) :=
  ((s.put_frame r.k r.v).mono (by simp) (by simp)).mismatch (by simp) _

@[simp] theorem State.store_audio (s : State) (r : WReq) : (s.store r).audio = s.audio := rfl

@[simp] theorem State.rd_store_same (s : State) (ep w k n : Nat) :
    (s.store { ep, w, k, v := .n n }).rd k = n := s.rd_put_same k n

/-- The objects that count an accepted write of a DEV object (R54). -/
def ObjRow.countKeys (r : ObjRow) : List Nat := if r.scope = .dev then cfgKeys else []

/-- Counting a write changes the counts of a DEV object's writes, and nothing else. -/
theorem State.countWrite_frame (s : State) (r : ObjRow) (k : Nat) : s.Frame [.delivery] r.countKeys (s.countWrite r k) := by
  unfold State.countWrite
  refine State.Frame.ite (fun hdev => ?_) fun _ => .self s
  rw [ObjRow.countKeys, if_pos hdev.1]
  have hcount : s.Frame [.delivery] cfgKeys (s.inc O.CONFIG_GENERATION) :=
    (s.inc_frame _).one (by simp) (by simp [cfgKeys])
  exact State.Frame.ite (fun _ => hcount.comp ((State.wr_frame _ _ _).one (by simp) (by simp [cfgKeys]))) fun _ => hcount

/-- An accepted write of an object that is not WPU is its chapter's effect, counted. -/
theorem State.accept_eq {s : State} {e w : Nat} {r : ObjRow} (hacc : r.acc ≠ .wpu) (k : Nat) (bs : List Byte) :
    s.accept e w r k bs = (s.objApply { ep := e, w, k, v := r.valOf bs }).countWrite r k := by
  simp [State.accept, hacc]

/-- An accepted row is answered and counted, and has its object's effect. -/
theorem State.writeRow_accepted {s : State} {ep : Endpoint} {idx sub ten : Nat} {bs : List Byte} {r : ObjRow}
    {ps : List Part} {ks : List Nat} (hs : s.sized = true) (hlen : bs.length ≤ 1024) (hten : ten < 32)
    (hr : objInfo idx sub = some r) (hacc : r.acc ≠ .wpu) (ha : s.accepts ep idx sub ten bs = true)
    (happly : (s.rowPosted ep idx sub ten bs).Frame ps ks (s.rowApplied ep idx sub ten bs r))
    (hjobs : Part.jobs ∉ ps) (hsess : Part.sessions ∉ ps) :
    s.wrote (s.writeRow ep idx sub ten bs) ep idx sub ten bs ∧
      (s.rowApplied ep idx sub ten bs r).Frame answerParts r.countKeys (s.writeRow ep idx sub ten bs) ∧
      s.Frame (answerParts ++ ps) (ks ++ r.countKeys) (s.writeRow ep idx sub ten bs) := by
  obtain ⟨hadm, hvalue⟩ := (State.accepts_iff hr).mp ha
  have hexec := State.executed_rowWrite_accepted hlen hten hr hadm hvalue
  rw [State.accept_eq hacc] at hexec
  have hcounted : (s.rowApplied ep idx sub ten bs r).Frame [.delivery] r.countKeys
      (s.executed ep (s.rowWrite ep idx sub ten bs)).2 := by
    rw [hexec]; exact State.countWrite_frame _ r _
  have hold := (happly.andThen hcounted).holdsResponses_of_jobs (by simpa using hjobs) (by simpa using hsess)
    (State.posted_holdsResponses ep _ (State.sized_holdsResponses hs))
  have hvia := s.rowWrite_via hlen ep idx sub ten
  obtain ⟨hresp, hheld⟩ := State.request_answers (q := s.rowWrite ep idx sub ten bs) (by rw [hvia]; exact hadm.hears)
    (by rw [hvia]; exact hold)
  rw [← State.writeRow_short hlen, hvia] at hresp hheld
  rw [hexec] at hresp
  have hanswered : (s.rowApplied ep idx sub ten bs r).Frame answerParts r.countKeys (s.writeRow ep idx sub ten bs) :=
    (hcounted.mono (by simp [answerParts]) (by simp)).comp (hheld.mono (by simp) (by simp))
  refine ⟨hresp, hanswered, ?_⟩
  exact (((s.posted_frame ep _).mono (by simp [answerParts]) (by simp)).comp (happly.mono (by simp) (by simp))).comp
    (hanswered.mono (by simp) (by simp))

end Sys2Proof.Machine

/-!
The history ring's rows (R346-R348, R351-R354): its reset by a write to its configuration, the first block recorded after
it, and the START and CLOSE of a handover.
-/

namespace Sys2Proof.Machine

open State.Frame

/-! ### Keys and values -/

theorem keyIdx_okey {i sub t : Nat} (hsub : sub < 256) (ht : t < 32) : keyIdx (okey i sub t) = i := by
  simp only [keyIdx, okey]; omega

theorem keySub_okey {i sub t : Nat} (hsub : sub < 256) (ht : t < 32) : keySub (okey i sub t) = sub := by
  simp only [keySub, okey]; omega

theorem keyTen_okey {i sub t : Nat} (ht : t < 32) : keyTen (okey i sub t) = t := by
  simp only [keyTen, okey]; omega

/-- A stream context's BLOCK_SEQ is none of the objects below index A000. -/
theorem ne_blockSeq {j : Nat} (h : keyIdx j < 0xA000) (k t : Nat) : j ≠ O.STR_BLOCK_SEQ k t := by
  rintro rfl
  simp only [keyIdx, O.STR_BLOCK_SEQ, okey] at h
  omega

theorem keyTy_RING_STATE : keyTy O.RING_STATE = .u8 := by decide +kernel
theorem keyTy_HANDOVERS : keyTy O.HANDOVERS = .u32 := by decide +kernel
theorem keyTy_RING_RESETS : keyTy O.RING_RESETS = .u32 := by decide +kernel

/-- The ring's own objects carry no events' cost. -/
theorem not_carrier_ring {k : Nat} (h : 0x4020 ≤ keyIdx k) : ¬ carrier k := not_carrier (by omega) (by omega)

/-- A counter of 32 bits that is counted up. -/
theorem State.rd_inc_u32 (s : State) {k : Nat} (hty : keyTy k = .u32) (hc : ¬ carrier k) :
    (s.inc k).rd k = (s.rd k + 1) % 4294967296 := by
  rw [State.inc, State.addTo, s.rd_wr hc, hty]
  simp [keyBits, hty, Ty.width]

theorem State.rd_wr_ringState (s : State) {v : Nat} (hv : v < 256) : (s.wr O.RING_STATE v).rd O.RING_STATE = v := by
  rw [s.rd_wr (not_carrier_ring (by decide)), keyTy_RING_STATE]
  simpa [keyBits, keyTy_RING_STATE, Ty.width] using hv

theorem denyIf_eq_nil {c : Bool} {a : Abort} : denyIf c a = [] ↔ c = false := by cases c <;> simp [denyIf]

/-- A byte's value. -/
theorem leNat_leBytes_one {v : Nat} (hv : v < 256) : leNat (leBytes 1 v) = v := by
  simp [leNat, leBytes, Nat.mod_eq_of_lt hv]

theorem ObjRow.valOf_byte {r : ObjRow} (hty : r.ty = .u8) {v : Nat} (hv : v < 256) : r.valOf (leBytes 1 v) = .n v := by
  simp [ObjRow.valOf, hty, leNat_leBytes_one hv]

/-! ### The ring emptied -/

/-- RING_CHANNELS (01) or RING_BITS (02) of 4020. -/
def ringSub (isBits : Bool) : Nat := if isBits then 2 else 1

theorem objInfo_ringConfig (isBits : Bool) :
    ∃ r, objInfo 0x4020 (ringSub isBits) = some r ∧ r.scope = .dev ∧ r.acc = .rwi ∧ r.ty = .u8 := by
  have hrow : ((objInfo 0x4020 (ringSub isBits)).map fun r => (r.scope, r.acc, r.ty)) = some (.dev, .rwi, .u8) := by
    revert isBits; decide +kernel
  obtain ⟨r, hr, hfields⟩ := Option.map_eq_some_iff.mp hrow
  simp only [Prod.mk.injEq] at hfields
  exact ⟨r, hr, hfields⟩

/-- RING_BITS or RING_CHANNELS. -/
def ringObj (isBits : Bool) : Nat := if isBits then O.RING_BITS else O.RING_CHANNELS

theorem instKey_ringConfig (r : ObjRow) (isBits : Bool) : instKey r 0x4020 (ringSub isBits) 0 = ringObj isBits := by
  cases isBits <;> simp [instKey, ringSub, ringObj, O.RING_BITS, O.RING_CHANNELS]

/-- Under a latch or a handover the ring keeps its configuration (R348). -/
theorem State.objAborts_ringConfig (s : State) (isBits : Bool) (ep w : Nat) (v : Val) :
    s.objAborts { ep, w, k := ringObj isBits, v } =
      denyIf (s.audio.ring.latch.isSome || s.audio.ring.handover.isSome) .unitNotIdle := by
  cases isBits <;>
    simp [State.objAborts, WReq.idx, State.aborts4, WReq.sub, keyIdx, keySub, ringObj, O.RING_BITS, O.RING_CHANNELS, okey]

theorem State.objApply_ringConfig (s : State) (isBits : Bool) (ep w : Nat) (v : Val) :
    s.objApply { ep, w, k := ringObj isBits, v } =
      (s.store { ep, w, k := ringObj isBits, v }).ringReset := by
  cases isBits <;>
    simp [State.objApply, WReq.idx, State.apply4, WReq.sub, keyIdx, keySub, ringObj, O.RING_BITS, O.RING_CHANNELS, okey]

/-- The objects that tell what the ring holds, and how often it was reset. -/
def ringKeys : List Nat := [O.RING_SPAN_MS, O.RING_OLDEST, O.RING_WRAPPED, O.RING_RESETS]

section

variable {s : State} (h : s.audio.ring.handover = none)
include h

theorem State.ringReset_of_idle :
    s.ringReset = ((((s.modRing fun r => { r with blocks := [], gapStop := none }).put O.RING_WRAPPED (.n 0)).put
      O.RING_SPAN_MS (.n 0)).put O.RING_OLDEST (.n 0)).inc O.RING_RESETS := by
  simp [State.ringReset, State.endHandover, h, State.ringReport, State.modRing]

theorem State.ringReset_frame : s.Frame [.audio, .delivery] ringKeys s.ringReset := by
  rw [State.ringReset_of_idle h]
  exact (((((s.modRing_frame _).andThen (State.put_frame _ _ _)).andThen (State.put_frame _ _ _)).andThen
    (State.put_frame _ _ _)).andThen (State.inc_frame _ _)).mono (by simp) (by simp [ringKeys])

theorem State.ringReset_ring : s.ringReset.audio.ring = { s.audio.ring with blocks := [], gapStop := none } := by
  rw [State.ringReset_of_idle h]
  exact congrArg Audio.ring ((State.inc_frame _ O.RING_RESETS).1 .audio (by simp))

theorem State.ringReset_shows :
    s.ringReset.rd O.RING_SPAN_MS = 0 ∧ s.ringReset.rd O.RING_RESETS = (s.rd O.RING_RESETS + 1) % 4294967296 := by
  rw [State.ringReset_of_idle h]
  constructor
  · rw [(State.inc_frame _ O.RING_RESETS).rd (by decide) (not_carrier_ring (by decide)), State.rd_put_ne _ (by decide),
      State.rd_put_same]
  · rw [State.rd_inc_u32 _ keyTy_RING_RESETS (not_carrier_ring (by decide)), State.rd_put_ne _ (by decide),
      State.rd_put_ne _ (by decide), State.rd_put_ne _ (by decide)]
    rfl

end

/-! ### The first block recorded -/

theorem popCount_le (n v : Nat) : popCount n v ≤ n :=
  Nat.le_trans (List.length_filter_le _ _) (Nat.le_of_eq List.length_range)

/-- No block is larger than its eight channels of 24 bits. -/
theorem rawBytes_le {bits : Nat} (h : bits ≤ 24) (chans absent : Nat) : rawBytes chans absent bits ≤ 1536 := by
  have hcount := popCount_le 8 (chans - Nat.land chans absent)
  have hbytes : popCount 8 (chans - Nat.land chans absent) * 64 * bits ≤ 8 * 64 * 24 :=
    Nat.mul_le_mul (Nat.mul_le_mul_right 64 hcount) h
  unfold rawBytes
  omega

/-- A ring with channels selected records a block at its next frame, no larger than stored raw (R346). -/
theorem State.recordBlock_ring {s : State} (hchans : s.rd O.RING_CHANNELS ≠ 0) (taps : List (List Int)) :
    ∃ b absent, b.frame = s.audio.ring.nextFrame ∧
      b.size ≤ rawBytes (s.rd O.RING_CHANNELS) absent (s.rd O.RING_BITS) ∧
      (s.recordBlock taps).audio.ring = { s.audio.ring with
        blocks := evict (s.audio.ring.blocks.length + 1) (s.audio.ring.blocks ++ [b]),
        nextFrame := s.audio.ring.nextFrame + 64, gapStop := none } := by
  rw [State.recordBlock, if_neg hchans]
  extract_lets bits absent raw sel
  rw [State.freeVal]
  dsimp -zeta only
  extract_lets b all kept recorded marked
  refine ⟨b, absent, rfl, Nat.le_of_lt_succ (Nat.mod_lt _ (Nat.succ_pos _)), ?_⟩
  have hmarked : marked.audio = recorded.audio := by
    unfold marked
    split <;> rfl
  have hlength : all.length = s.audio.ring.blocks.length + 1 := by simp [all]
  rw [State.ringReport, State.put_audio, State.put_audio, hmarked, ← hlength]
  rfl

/-- One block of a possible size never fills the ring. -/
theorem evict_one {b : RingBlock} (h : b.size ≤ 786432) : evict 1 [b] = [b] := by
  simp [evict, Nat.not_lt.mpr h]

/-- An empty ring keeps the block that it records (R346, R348). -/
theorem State.recordBlock_first {s : State} (hempty : s.audio.ring.blocks = []) (hchans : s.rd O.RING_CHANNELS ≠ 0)
    (hbits : s.rd O.RING_BITS ≤ 24) (taps : List (List Int)) :
    ∃ b, b.frame = s.audio.ring.nextFrame ∧ (s.recordBlock taps).audio.ring.blocks = [b] ∧
      (s.recordBlock taps).audio.ring.handover = s.audio.ring.handover := by
  obtain ⟨b, absent, hframe, hsize, hring⟩ := State.recordBlock_ring hchans taps
  have hmost := rawBytes_le hbits (s.rd O.RING_CHANNELS) absent
  refine ⟨b, hframe, ?_, by rw [hring]⟩
  simp [hring, hempty, evict_one (b := b) (by omega)]

/-- Up to the recording, a block boundary changes the clip counts and the channels, not the ring (R338, R340). -/
theorem State.blockBoundary_records (s : State) (taps : List (List Int)) :
    ∃ (u : State) (outs : List (List Int)), u.audio.ring = s.audio.ring ∧ u.rd O.RING_CHANNELS = s.rd O.RING_CHANNELS ∧
      u.rd O.RING_BITS = s.rd O.RING_BITS ∧
      ((u.recordBlock outs).audio.ring.handover = none → s.blockBoundary taps = u.recordBlock outs) := by
  unfold State.blockBoundary
  extract_lets cal outs clipped full frames _ u recorded
  have hclips : s.Frame [.delivery] ((List.range 8).map O.CH_CLIPS) clipped :=
    .fold _ _ _ fun s c hc => .ite (fun _ => (State.addTo_frame _ _ _).mono (by simp) (by
      simpa using ⟨c, List.mem_range.mp hc, rfl⟩)) fun _ => .self s
  have haudio : clipped.audio = s.audio := hclips.1 .audio (by simp)
  have hring : clipped.audio.ring = s.audio.ring := by rw [haudio]
  refine ⟨u, outs, hring, ?_, ?_, fun hnone => ?_⟩
  · exact hclips.rd (by decide) (not_carrier_ring (by decide))
  · exact hclips.rd (by decide) (not_carrier_ring (by decide))
  · rw [hnone]

/-- With no handover the boundary after a reset leaves one block in the ring (R348). -/
theorem exec_ringBlockBoundary_first {s : State} (halive : s.alive = true) (hready : s.ready 0x29 = true)
    (hpower : 2 ≤ s.rd O.POWER_STATE) (hidle : s.audio.ring.handover = none) (hempty : s.audio.ring.blocks = [])
    (hchans : s.rd O.RING_CHANNELS ≠ 0) (hbits : s.rd O.RING_BITS ≤ 24) (taps : List (List Int)) :
    ∃ u b, exec (.ringBlockBoundary taps) s = .next u ∧ u.audio.ring.blocks = [b] ∧
      b.frame = s.audio.ring.nextFrame := by
  obtain ⟨u, outs, hring, hsel, hwidth, hboundary⟩ := s.blockBoundary_records taps
  obtain ⟨b, hframe, hblocks, hnone⟩ := State.recordBlock_first (s := u) (by rw [hring, hempty]) (by rwa [hsel])
    (by rwa [hwidth]) outs
  refine ⟨u.recordBlock outs, b, ?_, hblocks, by rw [hframe, hring]⟩
  rw [← hboundary (by rw [hnone, hring, hidle])]
  exact whenOk_of halive (by simp [hready, hpower]) fun s => s.blockBoundary taps

/-! ### Records of a handover -/

theorem State.sourceBlock_frame (s : State) (k time : Nat) (data : List Byte) :
    s.Frame [.streams] [O.STR_BLOCK_SEQ k (s.streamOwner k)] (s.sourceBlock k time data) :=
  ((s.modStream_frame k _).andThen (State.put_frame _ _ _)).mono (by simp) (by simp)

/-- A source block waits in its stream context (R425). -/
theorem State.sourceBlock_waiting {s : State} {k : Nat} (hk : k < s.host.streams.length) (time : Nat)
    (data : List Byte) :
    ((s.sourceBlock k time data).stream k).waiting.length = (s.stream k).waiting.length + 1 := by
  simp [State.sourceBlock, State.stream, State.modStream, nth, modNth, hk]

section

variable {s : State} {h : Handover} (hopen : s.audio.ring.handover = some h) (ty flags frame time : Nat)
  (payload : List Byte)
include hopen

theorem State.pushRecord_of_open :
    s.pushRecord ty flags frame time payload =
      (s.sourceBlock h.stream time (ringRecord ty flags h.seq frame payload)).modRing fun r =>
        { r with handover := some { h with seq := (h.seq + 1) % 2 ^ 32 } } := by
  simp [State.pushRecord, hopen]

theorem State.pushRecord_frame :
    s.Frame [.audio, .streams] [O.STR_BLOCK_SEQ h.stream (s.streamOwner h.stream)]
      (s.pushRecord ty flags frame time payload) := by
  rw [State.pushRecord_of_open hopen]
  exact ((s.sourceBlock_frame _ _ _).andThen (State.modRing_frame _ _)).mono (by simp) (by simp)

theorem State.pushRecord_ring :
    (s.pushRecord ty flags frame time payload).audio.ring =
      { s.audio.ring with handover := some { h with seq := (h.seq + 1) % 2 ^ 32 } } := by
  rw [State.pushRecord_of_open hopen]
  rfl

theorem State.pushRecord_waiting (hk : h.stream < s.host.streams.length) :
    ((s.pushRecord ty flags frame time payload).stream h.stream).waiting.length =
      (s.stream h.stream).waiting.length + 1 := by
  rw [State.pushRecord_of_open hopen]
  exact State.sourceBlock_waiting hk _ _

end

/-! ### START and CLOSE -/

/-- The stream contexts of two states with the same ones. -/
theorem State.Frame.stream {s t : State} {ps : List Part} {ks : List Nat} (h : s.Frame ps ks t)
    (hp : Part.streams ∉ ps) (k : Nat) : t.stream k = s.stream k := by
  have hsame : t.host.streams = s.host.streams := h.1 .streams hp
  simp [State.stream, hsame]

/-- The handover that START opens, before its first record. -/
def State.opening (s : State) (ten next lastEnd : Nat) : Handover :=
  { tenant := ten, stream := s.rd (O.HANDOVER_STREAM ten), seq := 0, next, live := false, lastEnd }

/-- The ring with a handover opened, and the markers that it will deliver. -/
def State.opened (s : State) (h : Handover) : State :=
  s.modRing fun r => { r with handover := some h, markers := r.markers.filter fun m => decide (h.next ≤ m.frame) }

/-- START of a latched wake opens a handover and pushes its HEADER record (R351, R356). -/
theorem State.startHandover_of_latch {s : State} {w : WakeRec} (hw : s.audio.ring.latch = some w) (ten : Nat) :
    ∃ next lastEnd body, s.startHandover ten =
      (((s.opened (s.opening ten next lastEnd)).pushRecord 1 0 next s.timeNow body).wr O.RING_STATE 3).inc
        O.HANDOVERS := by
  rw [State.startHandover, hw]
  exact ⟨_, _, _, rfl⟩

theorem State.opened_frame (s : State) (h : Handover) : s.Frame [.audio] [] (s.opened h) := s.modRing_frame _

/-- What START leaves: a handover of the latched wake, with its first record in the owner's stream (R351, R355). -/
theorem State.startHandover_opens {s : State} {w : WakeRec} (hw : s.audio.ring.latch = some w) {ten : Nat}
    (hk : s.rd (O.HANDOVER_STREAM ten) < s.host.streams.length) :
    let t := s.startHandover ten
    let k := s.rd (O.HANDOVER_STREAM ten)
    ∃ h, t.audio.ring.latch = some w ∧ t.audio.ring.handover = some h ∧ h.tenant = ten ∧ h.stream = k ∧ h.seq = 1 ∧
      h.live = false ∧ t.rd O.RING_STATE = 3 ∧ t.rd O.HANDOVERS = (s.rd O.HANDOVERS + 1) % 4294967296 ∧
      (t.stream k).waiting.length = (s.stream k).waiting.length + 1 ∧
      s.Frame [.audio, .streams, .delivery] [O.RING_STATE, O.HANDOVERS, O.STR_BLOCK_SEQ k (s.streamOwner k)] t := by
  intro t k
  obtain ⟨next, lastEnd, body, hstart⟩ := State.startHandover_of_latch hw ten
  let h := s.opening ten next lastEnd
  have hopen : (s.opened h).audio.ring.handover = some h := rfl
  have hpush := State.pushRecord_frame hopen 1 0 next s.timeNow body
  have hring := State.pushRecord_ring hopen 1 0 next s.timeNow body
  have hwaiting := State.pushRecord_waiting hopen 1 0 next s.timeNow body hk
  have ht : t = (((s.opened h).pushRecord 1 0 next s.timeNow body).wr O.RING_STATE 3).inc O.HANDOVERS := hstart
  generalize (s.opened h).pushRecord 1 0 next s.timeNow body = p at hpush hring hwaiting ht
  have hsaid : p.Frame [.delivery] [O.RING_STATE, O.HANDOVERS] t :=
    ht ▸ (((p.wr_frame _ _).andThen (State.inc_frame _ _)).mono (by simp) (by simp))
  have hpushed : s.Frame [.audio, .streams] [O.STR_BLOCK_SEQ k (s.streamOwner k)] p :=
    ((s.opened_frame h).mono (by simp) (by simp)).comp hpush
  have haudio : t.audio = p.audio := hsaid.1 .audio (by simp)
  refine ⟨{ h with seq := 1 }, ?_, ?_, rfl, rfl, rfl, rfl, ?_, ?_, ?_, ?_⟩
  · rw [haudio, hring]; exact hw
  · rw [haudio, hring]; rfl
  · rw [ht, (State.inc_frame _ O.HANDOVERS).rd (by decide) (not_carrier_ring (by decide)),
      State.rd_wr_ringState _ (by decide)]
  · rw [ht, State.rd_inc_u32 _ keyTy_HANDOVERS (not_carrier_ring (by decide)),
      (State.wr_frame _ O.RING_STATE 3).rd (by decide) (not_carrier_ring (by decide)),
      hpushed.rd (by simpa using ne_blockSeq (by decide) _ _) (not_carrier_ring (by decide))]
  · rw [hsaid.stream (by simp)]; exact hwaiting
  · exact (hpushed.andThen hsaid).mono (by simp) (by simp)

/-- A handover that ends pushes its END record, and leaves neither latch nor markers (R354). -/
theorem State.endHandover_of_open {s : State} {h : Handover} (hopen : s.audio.ring.handover = some h) (reason : Nat) :
    s.endHandover reason = ((s.pushRecord 6 0 h.next s.timeNow (leBytes 1 reason ++ [0, 0, 0])).modRing fun r =>
      { r with handover := none, latch := none, markers := [] }).wr O.RING_STATE 1 := by
  simp [State.endHandover, hopen]

/-- What the end of a handover leaves: the ring with what it recorded, waiting for a wake (R354). -/
theorem State.endHandover_closes {s : State} {h : Handover} (hopen : s.audio.ring.handover = some h) (reason : Nat) :
    (s.endHandover reason).audio.ring = { s.audio.ring with handover := none, latch := none, markers := [] } ∧
      (s.endHandover reason).rd O.RING_STATE = 1 ∧
      s.Frame [.audio, .streams, .delivery] [O.RING_STATE, O.STR_BLOCK_SEQ h.stream (s.streamOwner h.stream)]
        (s.endHandover reason) := by
  rw [State.endHandover_of_open hopen]
  refine ⟨?_, State.rd_wr_ringState _ (by decide), ?_⟩
  · refine (congrArg Audio.ring ((State.wr_frame _ O.RING_STATE 1).1 .audio (by simp))).trans ?_
    simp [State.modRing, State.pushRecord_ring hopen]
  · exact (((State.pushRecord_frame hopen _ _ _ _ _).andThen (State.modRing_frame _ _)).andThen
      (State.wr_frame _ _ _)).mono (by simp) (by simp)

/-! ### A device at work stays at work -/

/-- Only a device that runs hears a request. -/
theorem State.hears_released {s : State} {ep : Endpoint} {q : Req} (h : s.hears ep q = true) : s.released = true := by
  simp only [State.hears, Bool.and_eq_true] at h
  obtain ⟨htakes, -⟩ := h
  cases ep with
  | mailbox f =>
    simp only [State.takes, State.alive, Bool.and_eq_true, and_assoc] at htakes
    exact htakes.1
  | session n =>
    simp only [State.takes, State.alive, Bool.and_eq_true, and_assoc] at htakes
    exact htakes.1
  | spi =>
    simp only [State.takes, State.spiUp, Bool.and_eq_true, and_assoc] at htakes
    exact htakes.1

/-- A device that hears a request, and is not in its safe state, is alive. -/
theorem State.Admits.alive {s : State} {ep : Endpoint} {q : Req} {r : ObjRow} {k : Nat} (h : s.Admits ep q r k) :
    s.alive = true := by
  simp [State.alive, State.hears_released h.hears, h.notSafe]

/-- It stays alive while the balls and DEVICE_SAFE are as they were. -/
theorem State.Frame.alive {s t : State} {ps : List Part} {ks : List Nat} (h : s.Frame ps ks t) (hp : Part.pins ∉ ps)
    (hk : O.DEVICE_SAFE ∉ ks) (hs : s.alive = true) : t.alive = true := by
  have hpins : t.pins = s.pins := h.1 .pins hp
  have hsafe : t.rd O.DEVICE_SAFE = s.rd O.DEVICE_SAFE := h.rd hk (not_carrier (by decide) (by decide))
  simpa [State.alive, State.released, State.on, hpins, hsafe] using hs

/-! ### RING_CONFIG_WRITE -/

/-- The configuration is none of the objects that a reset or its count changes. -/
theorem ringObj_apart (isBits : Bool) :
    0x4020 ≤ keyIdx (ringObj isBits) ∧ ringObj isBits ∉ cfgKeys ∧ ringObj isBits ∉ ringKeys := by
  cases isBits <;> decide

section

variable {s : State} {ep : Endpoint} {isBits : Bool} {v : Nat} (hs : s.sized = true)
include hs

/-- An accepted write to the ring's configuration empties the ring and counts its reset (R348). -/
theorem State.ringConfigWrite_accepted (hv : v < 256)
    (ha : s.accepts ep 0x4020 (ringSub isBits) 0 (leBytes 1 v) = true) :
    let t := s.writeRow ep 0x4020 (ringSub isBits) 0 (leBytes 1 v)
    s.audio.ring.latch = none ∧ s.audio.ring.handover = none ∧ t.alive = true ∧
      s.wrote t ep 0x4020 (ringSub isBits) 0 (leBytes 1 v) ∧ t.rd (ringObj isBits) = v ∧
      t.audio.ring = { s.audio.ring with blocks := [], gapStop := none } ∧ t.rd O.RING_SPAN_MS = 0 ∧
      t.rd O.RING_RESETS = (s.rd O.RING_RESETS + 1) % 4294967296 ∧
      s.Frame (answerParts ++ [.mismatch, .audio]) (ringObj isBits :: ringKeys ++ cfgKeys) t := by
  intro t
  obtain ⟨r, hr, hscope, hacc, hty⟩ := objInfo_ringConfig isBits
  obtain ⟨hadm, hvalue⟩ := (State.accepts_iff hr).mp ha
  obtain ⟨-, -, hchapter⟩ := State.valueAborts_eq_nil_iff.mp hvalue
  rw [instKey_ringConfig, State.objAborts_ringConfig, denyIf_eq_nil, Bool.or_eq_false_iff, State.posted_audio] at hchapter
  obtain ⟨hlatch, hidle⟩ := hchapter
  rw [Option.isSome_eq_false_iff, Option.isNone_iff_eq_none] at hlatch hidle
  have happlied : s.rowApplied ep 0x4020 (ringSub isBits) 0 (leBytes 1 v) r = ((s.rowPosted ep 0x4020 (ringSub isBits) 0
      (leBytes 1 v)).store { ep := epIdx ep, w := s.epTenant (epIdx ep), k := ringObj isBits, v := .n v }).ringReset := by
    rw [State.rowApplied, instKey_ringConfig, ObjRow.valOf_byte hty hv, State.objApply_ringConfig]
  generalize hstored : State.store _ _ = u at happlied
  have hu : (s.rowPosted ep 0x4020 (ringSub isBits) 0 (leBytes 1 v)).Frame [.mismatch] [ringObj isBits] u :=
    hstored ▸ State.store_frame _ _
  have haudio : u.audio = s.audio := by rw [← hstored, State.store_audio, State.posted_audio]
  have hreset := State.ringReset_frame (s := u) (by rw [haudio]; exact hidle)
  obtain ⟨hspan, hresets⟩ := State.ringReset_shows (s := u) (by rw [haudio]; exact hidle)
  have hring := State.ringReset_ring (s := u) (by rw [haudio]; exact hidle)
  rw [← happlied] at hreset hspan hresets hring
  obtain ⟨hwrote, hanswered, hframe⟩ := State.writeRow_accepted hs (by simp [leBytes]) (by decide) hr (by simp [hacc]) ha
    (hu.andThen hreset) (by simp) (by simp)
  rw [ObjRow.countKeys, if_pos hscope] at hanswered hframe
  have hrd : ∀ {j : Nat}, j ∉ cfgKeys → 0x4020 ≤ keyIdx j →
      t.rd j = (s.rowApplied ep 0x4020 (ringSub isBits) 0 (leBytes 1 v) r).rd j := fun hj hidx =>
    hanswered.rd hj (not_carrier_ring hidx)
  obtain ⟨hidx, hcount, hkeys⟩ := ringObj_apart isBits
  refine ⟨hlatch, hidle, hframe.alive (by simp [answerParts]) (by cases isBits <;> decide) hadm.alive, hwrote, ?value,
    ?ring, (hrd (by decide) (by decide)).trans hspan, ?resets,
    hframe.mono (by simp [answerParts]) (by simp)⟩
  case value => rw [hrd hcount hidx, hreset.rd hkeys (not_carrier_ring hidx), ← hstored, State.rd_store_same]
  case ring =>
    have haudio' : t.audio = _ := hanswered.1 .audio (by simp [answerParts])
    rw [haudio', hring, haudio]
  case resets =>
    rw [hrd (by decide) (by decide), hresets,
      hu.rd (by cases isBits <;> decide) (not_carrier_ring (by decide)), State.posted_rd]

/-- A write to the ring's configuration that its latch or handover alone refuses (R348). -/
theorem State.ringConfigWrite_refused
    (ha : (s.modRing fun r => { r with latch := none, handover := none }).accepts ep 0x4020 (ringSub isBits) 0
      (leBytes 1 v) = true) (hopen : s.audio.ring.latch ≠ none ∨ s.audio.ring.handover ≠ none) :
    let t := s.writeRow ep 0x4020 (ringSub isBits) 0 (leBytes 1 v)
    s.Frame answerParts [] t ∧ t.response ep =
      some ((s.rowWrite ep 0x4020 (ringSub isBits) 0 (leBytes 1 v)).reply (Answer.abort .unitNotIdle (ringSub isBits))) := by
  intro t
  obtain ⟨r, hr, -⟩ := objInfo_ringConfig isBits
  obtain ⟨hadm, hvalue⟩ := (State.accepts_iff hr).mp ha
  obtain ⟨hlen, hrange, -⟩ := State.valueAborts_eq_nil_iff.mp hvalue
  have hadm' : s.Admits ep (s.rowWrite ep 0x4020 (ringSub isBits) 0 (leBytes 1 v)) r
      (instKey r 0x4020 (ringSub isBits) 0) :=
    ⟨hadm.hears, hadm.notSafe, hadm.tenant, hadm.endpoint, hadm.form⟩
  have hbusy : (s.audio.ring.latch.isSome || s.audio.ring.handover.isSome) = true := by
    simpa [Option.isSome_iff_ne_none] using hopen
  have hvalue' : (s.rowPosted ep 0x4020 (ringSub isBits) 0 (leBytes 1 v)).valueAborts (epIdx ep) (s.epTenant (epIdx ep))
      r (instKey r 0x4020 (ringSub isBits) 0) (leBytes 1 v) = [.unitNotIdle] := by
    rw [State.valueAborts_of_typed hlen hrange, instKey_ringConfig, State.objAborts_ringConfig, State.posted_audio, hbusy]
    rfl
  exact (State.writeRow_refused (by simp [leBytes]) (by decide) hr hadm' hs (by decide) hvalue').symm

end

/-! ### START and CLOSE -/

theorem State.sized_streams {s : State} (h : s.sized = true) : s.host.streams.length = 96 := by
  simp only [State.sized, Bool.and_eq_true, beq_iff_eq, and_assoc] at h
  obtain ⟨-, -, -, -, -, -, hstreams, -⟩ := h
  exact hstreams

theorem objInfo_handoverControl : ∃ r, objInfo 0x4021 2 = some r ∧ r.scope = .ten ∧ r.acc = .wo ∧ r.ty = .u8 := by
  have hrow : ((objInfo 0x4021 2).map fun r => (r.scope, r.acc, r.ty)) = some (.ten, .wo, .u8) := by decide +kernel
  obtain ⟨r, hr, hfields⟩ := Option.map_eq_some_iff.mp hrow
  simp only [Prod.mk.injEq] at hfields
  exact ⟨r, hr, hfields⟩

theorem instKey_handoverControl {r : ObjRow} (hscope : r.scope = .ten) (ten : Nat) :
    instKey r 0x4021 2 ten = O.HANDOVER_CONTROL ten := by
  simp [instKey, hscope, O.HANDOVER_CONTROL]

section

variable {ten : Nat} (hten : ten < 32)
include hten

theorem keyIdx_handoverControl : keyIdx (O.HANDOVER_CONTROL ten) = 0x4021 := keyIdx_okey (by decide) hten
theorem keySub_handoverControl : keySub (O.HANDOVER_CONTROL ten) = 2 := keySub_okey (by decide) hten
theorem keyTen_handoverControl : keyTen (O.HANDOVER_CONTROL ten) = ten := keyTen_okey hten

variable (s : State) (ep w : Nat)

/-- A tenant hands over for itself (R351, R354). -/
theorem State.objAborts_handoverControl (v : Val) :
    s.objAborts { ep, w, k := O.HANDOVER_CONTROL ten, v } =
      denyIf (w != ten) .tenantDenied ++ s.handoverAborts { ep, w, k := O.HANDOVER_CONTROL ten, v } := by
  simp [State.objAborts, State.aborts4, WReq.idx, WReq.sub, WReq.ten, keyIdx_handoverControl hten,
    keySub_handoverControl hten, keyTen_handoverControl hten]

theorem State.objApply_start :
    s.objApply { ep, w, k := O.HANDOVER_CONTROL ten, v := .n 1 } = s.startHandover ten := by
  simp [State.objApply, State.apply4, WReq.idx, WReq.sub, WReq.ten, WReq.num, keyIdx_handoverControl hten,
    keySub_handoverControl hten, keyTen_handoverControl hten]

theorem State.objApply_close :
    s.objApply { ep, w, k := O.HANDOVER_CONTROL ten, v := .n 2 } = s.endHandover 1 := by
  simp [State.objApply, State.apply4, WReq.idx, WReq.sub, WReq.num, keyIdx_handoverControl hten,
    keySub_handoverControl hten]

variable {s ep w}

/-- What a START that is not refused has found (R351). -/
theorem State.start_not_refused (h : s.objAborts { ep, w, k := O.HANDOVER_CONTROL ten, v := .n 1 } = []) :
    s.rd O.RING_CONSUMER_CLAIM = ten ∧ s.rd (O.HANDOVER_STREAM ten) < 96 ∧ (∃ w, s.audio.ring.latch = some w) ∧
      s.audio.ring.handover = none := by
  have hstart : ¬ (1 : Nat) = 2 := by decide
  rw [State.objAborts_handoverControl hten] at h
  simp only [State.handoverAborts, WReq.ten, WReq.num, keyTen_handoverControl hten, if_neg hstart,
    List.append_eq_nil_iff, denyIf_eq_nil, Bool.or_eq_false_iff, bne_eq_false_iff_eq, decide_eq_false_iff_not,
    Nat.not_le, Option.isNone_eq_false_iff, Option.isSome_eq_false_iff, Option.isSome_iff_exists,
    Option.isNone_iff_eq_none] at h
  obtain ⟨-, ⟨⟨⟨hclaim, hstream⟩, -⟩, ⟨hlatch, hidle⟩, -⟩, -⟩ := h
  exact ⟨hclaim, hstream, hlatch, hidle⟩

/-- What a CLOSE that is not refused has found (R354). -/
theorem State.close_not_refused (h : s.objAborts { ep, w, k := O.HANDOVER_CONTROL ten, v := .n 2 } = []) :
    ∃ h, s.audio.ring.handover = some h ∧ h.tenant = ten := by
  rw [State.objAborts_handoverControl hten] at h
  simp only [State.handoverAborts, WReq.ten, WReq.num, keyTen_handoverControl hten, if_true, List.append_eq_nil_iff,
    denyIf_eq_nil, Bool.not_eq_false', State.handingOver, beq_iff_eq, Option.map_eq_some_iff] at h
  obtain ⟨-, hmine⟩ := h
  exact hmine

end

/-- What a write of HANDOVER_CONTROL that is accepted has passed, and what it applies. -/
theorem State.handoverControl_accepted {s : State} {ep : Endpoint} {ten : Nat} {b : Byte} (hten : ten < 32)
    (ha : s.accepts ep 0x4021 2 ten [b] = true) (hs : s.sized = true) :
    let u := s.rowPosted ep 0x4021 2 ten [b]
    let r : WReq := { ep := epIdx ep, w := s.epTenant (epIdx ep), k := O.HANDOVER_CONTROL ten, v := .n b.toNat }
    let t := s.writeRow ep 0x4021 2 ten [b]
    u.objAborts r = [] ∧ ∀ ps ks, u.Frame ps ks (u.objApply r) → Part.jobs ∉ ps → Part.sessions ∉ ps →
      s.wrote t ep 0x4021 2 ten [b] ∧ (u.objApply r).Frame answerParts [] t ∧ s.Frame (answerParts ++ ps) ks t := by
  intro u w t
  obtain ⟨r, hr, hscope, hacc, hty⟩ := objInfo_handoverControl
  obtain ⟨-, hvalue⟩ := (State.accepts_iff hr).mp ha
  obtain ⟨-, -, hchapter⟩ := State.valueAborts_eq_nil_iff.mp hvalue
  have hv : r.valOf [b] = .n b.toNat := by simp [ObjRow.valOf, hty, leNat]
  have happlied : s.rowApplied ep 0x4021 2 ten [b] r = u.objApply w := by
    rw [State.rowApplied, instKey_handoverControl hscope, hv]
  rw [instKey_handoverControl hscope, hv] at hchapter
  refine ⟨hchapter, fun ps ks hframe hjobs hsess => ?_⟩
  have hdone := State.writeRow_accepted hs (by simp) hten hr (by simp [hacc]) ha (happlied ▸ hframe) hjobs hsess
  simpa [ObjRow.countKeys, hscope, happlied] using hdone

section

variable {s : State} {ep : Endpoint} {ten : Nat} (hten : ten < 32) (hs : s.sized = true)
include hten hs

/-- An accepted START (R351, R355, R356). -/
theorem State.start_accepted (ha : s.accepts ep 0x4021 2 ten [1] = true) :
    let t := s.writeRow ep 0x4021 2 ten [1]
    s.rd O.RING_CONSUMER_CLAIM = ten ∧ s.audio.ring.handover = none ∧
    ∃ h w, s.wrote t ep 0x4021 2 ten [1] ∧ s.audio.ring.latch = some w ∧ t.audio.ring.latch = some w ∧
      t.audio.ring.handover = some h ∧ h.tenant = ten ∧ h.stream = s.rd (O.HANDOVER_STREAM ten) ∧ h.seq = 1 ∧
      h.live = false ∧ t.rd O.RING_STATE = 3 ∧ t.rd O.HANDOVERS = (s.rd O.HANDOVERS + 1) % 4294967296 ∧
      (t.stream h.stream).waiting.length = (s.stream h.stream).waiting.length + 1 ∧
      s.Frame (answerParts ++ [.audio, .streams]) [O.RING_STATE, O.HANDOVERS,
        O.STR_BLOCK_SEQ h.stream (s.streamOwner h.stream)] t := by
  intro t
  obtain ⟨hchapter, hdone⟩ := State.handoverControl_accepted hten ha hs
  obtain ⟨hclaim, hstream, ⟨w, hw⟩, hidle⟩ := State.start_not_refused hten hchapter
  rw [show BitVec.toNat (1 : Byte) = 1 from rfl, State.objApply_start hten] at hdone
  obtain ⟨h, hlatch, hopen, hmine, hk, hseq, hlive, hstate, hcount, hwaits, hframe⟩ :=
    State.startHandover_opens hw (ten := ten) (by rw [State.posted_streams, State.sized_streams hs]; exact hstream)
  obtain ⟨hwrote, hheld, hwhole⟩ := hdone _ _ hframe (by simp) (by simp)
  simp only [State.posted_rd, State.posted_audio, State.posted_stream, State.posted_streamOwner]
    at hclaim hw hidle hk hcount hwaits hwhole
  have haudio : t.audio = _ := hheld.1 .audio (by simp [answerParts])
  refine ⟨hclaim, hidle, h, w, hwrote, hw, ?_, ?_, hmine, hk, hseq, hlive, ?_, ?_, ?_, ?_⟩
  · rw [haudio]; exact hlatch
  · rw [haudio]; exact hopen
  · rw [hheld.rd (by simp) (not_carrier_ring (by decide))]; exact hstate
  · rw [hheld.rd (by simp) (not_carrier_ring (by decide))]; exact hcount
  · rw [hk, hheld.stream (by simp [answerParts])]; exact hwaits
  · rw [hk]; exact hwhole.mono (by simp [answerParts]) (by simp)

/-- An accepted CLOSE (R354). -/
theorem State.close_accepted (ha : s.accepts ep 0x4021 2 ten [2] = true) :
    let t := s.writeRow ep 0x4021 2 ten [2]
    ∃ h, s.wrote t ep 0x4021 2 ten [2] ∧ s.audio.ring.handover = some h ∧ h.tenant = ten ∧
      t.audio.ring = { s.audio.ring with handover := none, latch := none, markers := [] } ∧ t.rd O.RING_STATE = 1 ∧
      s.Frame (answerParts ++ [.audio, .streams]) [O.RING_STATE, O.STR_BLOCK_SEQ h.stream (s.streamOwner h.stream)] t := by
  intro t
  obtain ⟨hchapter, hdone⟩ := State.handoverControl_accepted hten ha hs
  obtain ⟨h, hopen, hmine⟩ := State.close_not_refused hten hchapter
  rw [show BitVec.toNat (2 : Byte) = 2 from rfl, State.objApply_close hten] at hdone
  obtain ⟨hring, hstate, hframe⟩ := State.endHandover_closes hopen 1
  obtain ⟨hwrote, hheld, hwhole⟩ := hdone _ _ hframe (by simp) (by simp)
  simp only [State.posted_audio, State.posted_streamOwner] at hopen hring hwhole
  have haudio : t.audio = _ := hheld.1 .audio (by simp [answerParts])
  refine ⟨h, hwrote, hopen, hmine, ?_, ?_, hwhole.mono (by simp [answerParts]) (by simp)⟩
  · rw [haudio]; exact hring
  · rw [hheld.rd (by simp) (not_carrier_ring (by decide))]; exact hstate

end

/-- Settles O33: an accepted row has its object's effect and its answer, so each clause is what that effect leaves: the
ring emptied, so that the next block is its only one; a handover opened with its first record; or its end. -/
theorem ringRowsConfigureAndHandOver : Obligations.RingRowsConfigureAndHandOver := by
  unfold Obligations.RingRowsConfigureAndHandOver
  refine ⟨?configure, ?busy, ?start, ?close⟩
  case configure =>
    intro s ep isBits v hs ha
    obtain ⟨hlatch, hidle, halive, hwrote, hvalue, hring, hspan, hresets, hframe⟩ :=
      State.ringConfigWrite_accepted hs v.isLt ha
    refine ⟨hlatch, hidle, _, rfl, hwrote, hvalue, congrArg Ring.blocks hring, hspan, hresets, hframe,
      fun taps hready hpower hchans hbits => ?_⟩
    exact exec_ringBlockBoundary_first halive hready hpower (by rw [hring]; exact hidle) (by rw [hring]) hchans hbits taps
  case busy =>
    intro s ep isBits v hs sub ha hopen
    exact ⟨_, rfl, State.ringConfigWrite_refused hs ha hopen⟩
  case start =>
    intro s ep ten hs ha
    obtain ⟨hclaim, hidle, h, w, hrest⟩ := State.start_accepted ten.isLt hs ha
    exact ⟨hclaim, hidle, _, h, w, rfl, hrest⟩
  case close =>
    intro s ep ten hs ha
    obtain ⟨h, hwrote, hopen, hmine, hring, hstate, hframe⟩ := State.close_accepted ten.isLt hs ha
    exact ⟨_, h, rfl, hwrote, hopen, hmine, by rw [hring], by rw [hring], by rw [hring], by rw [hring], hstate, hframe⟩

end Sys2Proof.Machine
